-- ==== Sys2Proof/Word.lean ====
section
/-!
DEFINITION. The word types of the N2416: bytes, keys, and the names of namespaces, banks and blocks.
-/

namespace Sys2Proof

/-- A byte is 8 bits (00, section 4). -/
abbrev Byte := BitVec 8

/-- The 32-bit name of a record within its namespace (R2). Every value is a valid key. -/
abbrev Key := BitVec 32

/-- One of the eight namespaces (R2). -/
abbrev NsIndex := Fin 8

/-- A slot number of the Update Context Table (R23). -/
abbrev SlotIndex := Fin 8

/-- One of the four banks (R115). -/
abbrev Bank := Fin 4

/-- A block number within its bank; block 0 is the descriptor block (R115). -/
abbrev BlockNo := Fin 512

/-- A block is named by (bank, block) (00 section 4, R115). -/
structure BlockAddr where
  bank  : Bank
  block : BlockNo
  deriving DecidableEq, Repr

/-- The place of a block in ascending (bank, block) order. -/
def BlockAddr.num (a : BlockAddr) : Nat := a.bank.val * 512 + a.block.val

/-- The (namespace, key) that names a record (R2). -/
structure RecordName where
  ns  : NsIndex
  key : Key
  deriving DecidableEq, Repr

/-- The place of a record in the order of the directory: by namespace, then by key, both compared
as unsigned numbers (R11). -/
def RecordName.num (r : RecordName) : Nat := r.ns.val * 4294967296 + r.key.toNat

end Sys2Proof
end

