-- ==== Sys2Proof/Syntax.lean ====
section
/-!
DEFINITION. The commands of the block: one constructor of `Instr` for each row of the table of
steps (spec/opcode_table.json), with what the outside brings to the step.
-/

namespace Sys2Proof

/-- The two ports (00 section 2.1). -/
inductive Port
  | primary
  | service
  deriving DecidableEq, Repr

/-- The moments of a COLLECT or STATUS frame that its rules name (R176, R177): the response begins,
the whole response has been transferred, or the transfer is cut short. -/
inductive Transfer
  | begins
  | completes
  | cut
  deriving DecidableEq, Repr

/-- The outcome of a program or an erase, and the raw finding of an erase verify (R121). -/
inductive OkFail
  | ok
  | fail
  deriving DecidableEq, Repr

/-- The outcome of a PAGE READ (R116): a corrected-bit count of 0 to 8, or UNCORRECTABLE. -/
inductive ReadOutcome
  | corrected (count : Fin 9)
  | uncorrectable
  deriving DecidableEq, Repr

/-- The commands, in the order of the table. The rows that take a request (FIND to RESET) carry no
operand: the request they take, with its port and parameters, is the one R174 names, and it came
with a SUBMIT frame (log 1). The rows that complete an array job carry the bank whose job in
progress completes and the outcome the array gave it (log 5). -/
inductive Instr
  | submit (port : Port) (frame : List Byte)
  | collect (port : Port) (transfer : Transfer)
  | status (port : Port) (transfer : Transfer)
  | portReset (port : Port) (frame : List Byte)
  | find
  | list
  | read
  | check
  | openUpdate
  | putChunk
  | commit
  | abandon
  | retire
  | restore
  | purge
  | hold
  | release
  | freeze
  | lockNamespace
  | configure
  | maintain
  | health
  | identify
  | defineNamespace
  | commitLayout
  | reset
  | resetNAsserted
  | resetNReleased
  | coldStart
  | powerLoss
  | drainJobDone (bank : Bank) (outcome : OkFail)
  | idleTimerExpiry (slot : SlotIndex)
  | putProgramDone (bank : Bank) (outcome : OkFail)
  | commitRecordDone (bank : Bank) (outcome : OkFail)
  | mirrorCommitRecordDone (bank : Bank) (outcome : OkFail)
  | commitCopyReadDone (bank : Bank) (outcome : ReadOutcome)
  | commitCopyProgramDone (bank : Bank) (outcome : OkFail)
  | markProgramDone (bank : Bank) (outcome : OkFail)
  | mirrorMarkProgramDone (bank : Bank) (outcome : OkFail)
  | markRelocationReadDone (bank : Bank) (outcome : ReadOutcome)
  | markRelocationProgramDone (bank : Bank) (outcome : OkFail)
  | markRelocationCommitDone (bank : Bank) (outcome : OkFail)
  | relocationReadDone (bank : Bank) (outcome : ReadOutcome)
  | relocationProgramDone (bank : Bank) (outcome : OkFail)
  | relocationCommitDone (bank : Bank) (outcome : OkFail)
  | relocationMirrorCommitDone (bank : Bank) (outcome : OkFail)
  | readPageDone (bank : Bank) (outcome : ReadOutcome)
  | checkPageDone (bank : Bank) (outcome : ReadOutcome)
  | scrubEraseDone (bank : Bank) (outcome : OkFail)
  | wearStampDone (bank : Bank) (outcome : OkFail)
  | purgeMarkDone (bank : Bank) (outcome : OkFail)
  | purgeEraseDone (bank : Bank) (outcome : OkFail)
  | purgeVerifyDone (bank : Bank) (outcome : OkFail)
  | purgeOverwriteDone (bank : Bank) (outcome : OkFail)
  | grownBadEntryDone (bank : Bank) (outcome : OkFail)
  | layoutPageProgramDone (bank : Bank) (outcome : OkFail)
  | scanReadDone (bank : Bank) (outcome : ReadOutcome)
  | scanVerifyDone (bank : Bank) (outcome : OkFail)
  | markRelocationMirrorCommitDone (bank : Bank) (outcome : OkFail)
  deriving DecidableEq, Repr

end Sys2Proof
end

