-- ==== Sys2Proof/WellFormed.lean ====
section
/-!
DEFINITION. Which commands are well formed. A frame begins with its frame code (R180, section 11.7);
every other operand is in range by its type.
-/

namespace Sys2Proof

/-- The frame code of a SUBMIT frame (section 11.7). -/
def submitCode : Byte := 0xA1
/-- The frame code of a PORT RESET frame (section 11.7). -/
def portResetCode : Byte := 0xA4

/-- A SUBMIT carries a frame that begins with the SUBMIT code, and a PORT_RESET one that begins with
the PORT RESET code; the COLLECT and STATUS rows stand for the whole of their one-byte frames. -/
def Instr.wellFormed : Instr → Bool
  | .submit _ frame => frame.head? = some submitCode
  | .collect _ _ => true
  | .status _ _ => true
  | .portReset _ frame => frame.head? = some portResetCode
  | .find => true
  | .list => true
  | .read => true
  | .check => true
  | .openUpdate => true
  | .putChunk => true
  | .commit => true
  | .abandon => true
  | .retire => true
  | .restore => true
  | .purge => true
  | .hold => true
  | .release => true
  | .freeze => true
  | .lockNamespace => true
  | .configure => true
  | .maintain => true
  | .health => true
  | .identify => true
  | .defineNamespace => true
  | .commitLayout => true
  | .reset => true
  | .resetNAsserted => true
  | .resetNReleased => true
  | .coldStart => true
  | .powerLoss => true
  | .drainJobDone _ _ => true
  | .idleTimerExpiry _ => true
  | .putProgramDone _ _ => true
  | .commitRecordDone _ _ => true
  | .mirrorCommitRecordDone _ _ => true
  | .commitCopyReadDone _ _ => true
  | .commitCopyProgramDone _ _ => true
  | .markProgramDone _ _ => true
  | .mirrorMarkProgramDone _ _ => true
  | .markRelocationReadDone _ _ => true
  | .markRelocationProgramDone _ _ => true
  | .markRelocationCommitDone _ _ => true
  | .relocationReadDone _ _ => true
  | .relocationProgramDone _ _ => true
  | .relocationCommitDone _ _ => true
  | .relocationMirrorCommitDone _ _ => true
  | .readPageDone _ _ => true
  | .checkPageDone _ _ => true
  | .scrubEraseDone _ _ => true
  | .wearStampDone _ _ => true
  | .purgeMarkDone _ _ => true
  | .purgeEraseDone _ _ => true
  | .purgeVerifyDone _ _ => true
  | .purgeOverwriteDone _ _ => true
  | .grownBadEntryDone _ _ => true
  | .layoutPageProgramDone _ _ => true
  | .scanReadDone _ _ => true
  | .scanVerifyDone _ _ => true
  | .markRelocationMirrorCommitDone _ _ => true

end Sys2Proof
end

