-- ==== Sys2Proof/Decode.lean ====
section
/-!
DEFINITION. The table of steps gives no row any bits (no "fixed", no "fields"), so no word spells a
command.
-/

namespace Sys2Proof

/-- The command a word of `nbits` bits spells by the table: none, because no row gives bits. -/
def decodeTableWord (_nbits _w : Nat) : Option Instr := none

end Sys2Proof
end

