-- ==== Sys2Proof/Config.lean ====
section
/-!
DEFINITION. What a part fixes: the numbers of the spec's tables, the choices the factory makes for
one part, and the free values of the model.
-/

namespace Sys2Proof.Config

/-- A chunk holds at most 3,328 body bytes (R1). -/
def chunkBytes : Nat := 3328
/-- The longest body (R1). -/
def maxBody : Nat := 53248
/-- The highest generation (R7). -/
def maxGeneration : Nat := 4294967294
/-- The most entries the directory holds (R11). -/
def maxEntries : Nat := 1024
/-- The in-flight set holds fewer than this when a request can be taken (R174). -/
def maxInFlight : Nat := 12
/-- The bank job queue holds at most this many jobs (R120). -/
def queueDepth : Nat := 16
/-- The places of the relocation allowance (R107). -/
def allowancePlaces : Nat := 16
/-- The slots of one grown-bad list (R110). -/
def grownBadSlots : Nat := 64
/-- The erase count at which a block is retired (R106). -/
def wearLimit : Nat := 120000
/-- The reserve beyond the quotas that keeps the part out of WORN (R112). -/
def reserveBlocks : Nat := 32
/-- The layout page number that means every page is used (R164). -/
def layoutPagesEnd : Nat := 16
/-- Where a saturating 32-bit count is held (R131). -/
def countLimit : Nat := 4294967295
/-- The vendor code of every N2416 (R169). -/
def vendorCode : Nat := 0x3D17
/-- The part code of every N2416 (R169). -/
def partCode : Nat := 0x2416

/-- The silicon revision in the identity page of the modelled part.
DESIGN CHOICE (unsafe, log 4): R130 allows 0 to 254. -/
def siliconRevision : Nat := 0
/-- The factory unique number in the identity page of the modelled part.
DESIGN CHOICE (unsafe, log 4): R130 allows any value. -/
def uniqueNumber : Nat := 0

/-- FREE VALUE (safe, log 6): what the `n`-th page read returns for the byte at array address `a`
when that byte lies in a segment whose content no rule fixes (R121, R127). -/
opaque freeByte : Nat → Nat → Byte

/-- FREE VALUE (safe, log 40): the body CRC-32 that the new commit record of a relocation carries when the old commit
record, read in the `n`-th page read, is not valid (R69, R130, R142). -/
opaque freeCrc : Nat → BitVec 32

end Sys2Proof.Config
end

