-- ==== Sys2Proof/Machine/State.lean ====
section
/-!
DEFINITION. The state of the N2416 as plain data: the ports, the Record Controller with its
directory and contexts, the Layout Store, the Block Pool Manager, the Bank Engines, the Maintenance
Unit, the Start-up Scanner, the array, and the queue of waiting commands. Each type names the rule
that gives it.
-/

namespace Sys2Proof.Machine

/-! ### Phases, layout and identity -/

/-- The device phase (R149), in the order of the STATUS codes of section 11.7. -/
inductive Phase
  | starting
  | early
  | resuming
  | ready
  | worn
  | halted
  deriving DecidableEq, Repr

/-- Whether the part has power, and whether a warm reset is waiting for the Bank Engines to drain
(R149, R150, R128). -/
inductive Power
  | off
  | draining
  | running
  deriving DecidableEq, Repr

/-- A port's right on a namespace (R81), in the order of the codes of R181. -/
inductive Right
  | none
  | read
  | full
  deriving DecidableEq, Repr

/-- One namespace descriptor of a layout (R164, R130). -/
structure NsDesc where
  enabled      : Bool
  mirrored     : Bool
  early        : Bool
  primaryRight : Right
  serviceRight : Right
  recordLimit  : Nat
  quota        : Nat
  deriving DecidableEq, Repr

/-- The descriptor of a disabled namespace: every field zero (R164). -/
def NsDesc.disabled : NsDesc :=
  { enabled := false, mirrored := false, early := false, primaryRight := .none,
    serviceRight := .none, recordLimit := 0, quota := 0 }

/-- The table of eight namespace descriptors (R164). -/
abbrev Layout := Vector NsDesc 8

/-- The default layout, version 0 (R164). -/
def Layout.default : Layout :=
  (Vector.replicate 8 NsDesc.disabled).set 0
    { enabled := true, mirrored := false, early := false, primaryRight := .full,
      serviceRight := .read, recordLimit := 1024, quota := 1792 }

/-- The Layout Store (R164). No layout is active until the scanner selects one (R150, R152). -/
structure LayoutStore where
  active   : Option Layout
  version  : Nat
  staged   : Layout
  pending  : Bool
  nextPage : Nat
  deriving DecidableEq, Repr

/-- The fields of the identity record as the part has read them (R152, R169). -/
structure Identity where
  vendor   : Nat
  part     : Nat
  revision : Nat
  unique   : Nat
  deriving DecidableEq, Repr

/-! ### Records -/

/-- The two copies of a chunk (00 section 4). -/
inductive Copy
  | primary
  | mirror
  deriving DecidableEq, Repr

/-- The states of a record entry (R2), in the order the rule lists them. -/
inductive RecordState
  | reserved
  | live
  | retired
  | purging
  deriving DecidableEq, Repr

/-- The hold of an entry with its holder, which is present at level HELD only (R84). -/
inductive Hold
  | none
  | held (holder : Port)
  | frozen
  deriving DecidableEq, Repr

/-- The one operation in progress on a record (R9). -/
inductive Busy
  | none
  | update (handle : BitVec 16)
  | mark
  | relocation
  | purge
  deriving DecidableEq, Repr

/-- An element of a chunk list that names a block, and which copy that block holds: PRIMARY, or
MIRROR where a start found the chunk in its MIRROR copy alone (R3, R158). -/
structure ChunkRef where
  addr : BlockAddr
  copy : Copy
  deriving DecidableEq, Repr

/-- One committed version of a record (R1, R2, R3). An element that is `none` is MISSING. The mirror
list is empty in an unmirrored namespace. -/
structure Version where
  generation : Nat
  bodyLength : Nat
  frozen     : Bool
  retired    : Bool
  chunks     : List (Option ChunkRef)
  mirrors    : List (Option BlockAddr)
  deriving DecidableEq, Repr

/-- What stands for the version of a RESERVED entry, which has none: lookups report 0 (R2, R4). -/
def Version.absent : Version :=
  { generation := 0, bodyLength := 0, frozen := false, retired := false, chunks := [], mirrors := [] }

/-- A record entry of the directory (R2). -/
structure Entry where
  name        : RecordName
  state       : RecordState
  version     : Version
  hold        : Hold
  marks       : Nat
  busy        : Busy
  damaged     : List Nat
  retireOrder : Option (BitVec 64)
  deriving DecidableEq, Repr

/-- The kinds of marks in the mark page (R64, R130). -/
inductive MarkKind
  | freeze
  | retire
  | restore
  | purge
  deriving DecidableEq, Repr

/-! ### Requests, completions and ports -/

/-- The 22 request kinds (00 section 2.4), in the order of their codes (R181). -/
inductive RequestKind
  | find
  | list
  | read
  | check
  | openUpdate
  | putChunk
  | commit
  | abandon
  | retire
  | restore
  | hold
  | release
  | freeze
  | lockNamespace
  | configure
  | maintain
  | health
  | identify
  | defineNamespace
  | commitLayout
  | reset
  | purge
  deriving DecidableEq, Repr

/-- A request with its parameters, each field as wide as R181 gives it. -/
inductive Req
  | find (ns : Byte) (key : Key)
  | list (ns : Byte) (start : Key) (count : Byte)
  | read (ns : Byte) (key : Key) (offset length : BitVec 16)
  | check (ns : Byte) (key : Key)
  | openUpdate (ns : Byte) (key : Key) (length : BitVec 16) (mode : Byte)
  | putChunk (handle : BitVec 16) (index : Byte) (data : List Byte)
  | commit (handle : BitVec 16)
  | abandon (handle : BitVec 16)
  | retire (ns : Byte) (key : Key)
  | restore (ns : Byte) (key : Key)
  | hold (ns : Byte) (key : Key)
  | release (ns : Byte) (key : Key)
  | freeze (ns : Byte) (key : Key)
  | lockNamespace (ns : Byte)
  | configure (timeout : BitVec 16) (threshold mode : Byte) (spread : BitVec 16)
      (primaryAlert serviceAlert : Byte)
  | maintain
  | health
  | identify
  | defineNamespace (ns enabled : Byte) (limit quota : BitVec 16)
      (mirrored early primaryRight serviceRight : Byte)
  | commitLayout
  | reset
  | purge
  deriving DecidableEq, Repr

/-- The result codes, in the order of their values (section 11.7). -/
inductive Result
  | ok
  | notFound
  | exists
  | recordBusy
  | recordRetired
  | holdConflict
  | holdFrozen
  | denied
  | nsInvalid
  | nsLocked
  | nsLimit
  | directoryFull
  | quotaExceeded
  | noContext
  | handleStale
  | badParameter
  | chunkPresent
  | chunkLength
  | incomplete
  | noSpace
  | mediaFailed
  | commitFailed
  | aborted
  | dataLost
  | checkMismatch
  | nothingToPurge
  | purgeBusy
  | maintBusy
  | generationLimit
  | worn
  | notReady
  | layoutPending
  | layoutNotEmpty
  | layoutInvalid
  | layoutExhausted
  deriving DecidableEq, Repr

/-- An accepted request in a request queue: its tag and its body (R172). -/
structure Request where
  tag  : Byte
  body : Req
  deriving DecidableEq, Repr

/-- A completion entry (R171). -/
structure Completion where
  tag    : Byte
  kind   : RequestKind
  result : Result
  reply  : List Byte
  deriving DecidableEq, Repr

/-- A notice set: each notice at most once (R171). -/
structure Notices where
  updateExpired : Bool
  urgencyRaised : Bool
  wornEntered   : Bool
  rebuildDone   : Bool
  deriving DecidableEq, Repr

/-- The empty notice set (R171). -/
def Notices.empty : Notices :=
  { updateExpired := false, urgencyRaised := false, wornEntered := false, rebuildDone := false }

/-- The last-submit result (R172), in the order of the STATUS codes of section 11.7. -/
inductive SubmitResult
  | none
  | accepted
  | queueFull
  | tagInUse
  | frameError
  deriving DecidableEq, Repr

/-- The response a port has begun and not yet ended: the entry chosen by a COLLECT, if any (R176),
or the notices captured by a STATUS (R177). -/
inductive LinkTransfer
  | none
  | collect (entry : Option Completion)
  | status (captured : Notices)
  deriving DecidableEq, Repr

/-- The state of one port (R171), with the response it has begun (R176, R177), the bytes of the last response it began
(section 11.7), and the notices posted since its last STATUS response began (R177). Reserved slots are a view,
`Device.reserved`. -/
structure PortState where
  requests    : List Request
  completions : List Completion
  tags        : List Byte
  notices     : Notices
  lastSubmit  : SubmitResult
  alertEnable : Bool
  transfer    : LinkTransfer
  response    : List Byte
  since       : Notices
  deriving DecidableEq, Repr

/-- A port as a start leaves it (R171). -/
def PortState.cleared : PortState :=
  { requests := [], completions := [], tags := [], notices := .empty, lastSubmit := .none,
    alertEnable := true, transfer := .none, response := [], since := .empty }

/-- The maintenance mode (R132). -/
inductive MaintMode
  | auto
  | manual
  deriving DecidableEq, Repr

/-- The settings of CONFIGURE but for the two alert enables, which stand in the ports (R170). -/
structure Settings where
  timeout    : Nat
  threshold  : Nat
  mode       : MaintMode
  wearSpread : Nat
  deriving DecidableEq, Repr

/-- The settings after every start (R170). -/
def Settings.default : Settings := { timeout := 30, threshold := 6, mode := .auto, wearSpread := 256 }

/-! ### Update contexts -/

/-- The states of a context that is not FREE (R23). -/
inductive CtxState
  | open
  | committing
  | abandoning
  deriving DecidableEq, Repr

/-- The mode of a context as resolved at its opening (R23). -/
inductive Mode
  | create
  | replace
  deriving DecidableEq, Repr

/-- What a context keeps for one chunk (R23). -/
structure ChunkRecord where
  primary : Option BlockAddr
  mirror  : Option BlockAddr
  crc     : BitVec 32
  deriving DecidableEq, Repr

/-- Commit attempt 2 in progress: the failed block it copies from, the page at work, and whether its
allowance place is secured and not yet a block (R39, R107). -/
structure CommitCopy where
  failed  : BlockAddr
  page    : Nat
  secured : Nat
  deriving DecidableEq, Repr

/-- An update context that is not FREE (R23). The idle timer is `none` when stopped, and otherwise
holds its remaining time, which the model does not count down (log 22). -/
structure Ctx where
  owner      : Port
  name       : RecordName
  state      : CtxState
  mode       : Mode
  bodyLength : Nat
  chunkCount : Nat
  copies     : Nat
  newGen     : Nat
  baseGen    : Option Nat
  present    : List Nat
  inFlight   : List Nat
  chunks     : List ChunkRecord
  reserved   : Nat
  requests   : Nat
  timer      : Option Nat
  attempt    : Nat
  copying    : Option CommitCopy
  deriving DecidableEq, Repr

/-- A slot of the Update Context Table: its sequence, and its context unless it is FREE (R23, R24). -/
structure Slot where
  seq : BitVec 8
  ctx : Option Ctx
  deriving DecidableEq, Repr

/-! ### Work in flight -/

/-- The writing of one copy of one chunk into a block: which attempt it is, the block granted, the
job in hand (0 the header, 1 to 13 the body pages), and whether every job completed OK (R32, R34). -/
structure CopyRun where
  attempt : Nat
  block   : Option BlockAddr
  job     : Option Nat
  done    : Bool
  deriving DecidableEq, Repr

/-- A copy whose first block has not been granted. -/
def CopyRun.start : CopyRun := { attempt := 1, block := none, job := none, done := false }

/-- A usable page kept by a reading request or a relocation (R54, R55). -/
structure PageData where
  chunk : Nat
  page  : Nat
  data  : List Byte
  deriving DecidableEq, Repr

/-- A page that was lost: its chunk and its page number (R58). -/
structure LostPage where
  chunk : Nat
  page  : Nat
  deriving DecidableEq, Repr

/-- The work of a READ (R51 to R58): its snapshot, pins, range, the chunk at work, the pages kept, the
jobs queued or in progress, and the first page lost. -/
structure ReadWork where
  name    : RecordName
  version : Version
  pins    : List BlockAddr
  offset  : Nat
  length  : Nat
  chunk   : Nat
  got     : List PageData
  jobs    : Nat
  lost    : Option LostPage
  deriving DecidableEq, Repr

/-- The work of a CHECK (R51 to R58). `pagesRead` counts the usable pages up to the first loss. -/
structure CheckWork where
  name      : RecordName
  version   : Version
  pins      : List BlockAddr
  got       : List PageData
  pagesRead : Nat
  jobs      : Nat
  lost      : Option LostPage
  deriving DecidableEq, Repr

/-- The work of a PUT CHUNK (R30 to R35). `ending` is the result of a put that queues no further job
and waits for a job in progress (R34, R42). -/
structure PutWork where
  slot    : SlotIndex
  chunk   : Nat
  data    : List Byte
  primary : CopyRun
  mirror  : Option CopyRun
  ending  : Option Result
  deriving DecidableEq, Repr

/-- Why a relocation is made (R131, R68). -/
inductive RelocKind
  | refresh
  | wear
  | mark (kind : MarkKind)
  deriving DecidableEq, Repr

/-- How far a relocation has come (R68, R131, R140 to R142). -/
inductive RelocStage
  | draw
  | grant
  | copying
  | commitQueued
  | mirrorCommit
  deriving DecidableEq, Repr

/-- Why a relocation ends without a commit point (R69, R143). -/
inductive RelocEnd
  | interrupted
  | worn
  | dataLost (chunk : Nat)
  | mediaFailed
  | noSpace
  deriving DecidableEq, Repr

/-- A block of the new version of a relocation, and whether it was drawn against the allowance. -/
structure NewBlock where
  addr    : BlockAddr
  flagged : Bool
  deriving DecidableEq, Repr

/-- A relocation in progress, of the Maintenance Unit or of mark work (R68, R69, R131, R140, R141): the
record, the version it copies, the new generation and carried flags, the allowance places secured
and the reservation still held, the new blocks in grant order, the chunk at work with its pages,
the body CRC-32 of the old commit record, the two copies being written, the jobs queued or in
progress, and why it is ending, if it is. -/
structure Reloc where
  name    : RecordName
  kind    : RelocKind
  source  : Version
  copies  : Nat
  newGen  : Nat
  frozen  : Bool
  retired : Bool
  secured : Nat
  excess  : Nat
  stage   : RelocStage
  blocks  : List NewBlock
  chunk   : Nat
  got     : List PageData
  crc     : List Byte
  primary : CopyRun
  mirror  : Option CopyRun
  jobs    : Nat
  ending  : Option RelocEnd
  deriving DecidableEq, Repr

/-- What mark work is doing: programming a slot of one copy's mark page (R66), or relocating (R68). -/
inductive MarkStage
  | slot (number : Nat) (copy : Copy)
  | relocation (r : Reloc)
  deriving DecidableEq, Repr

/-- The mark work of a FREEZE, RETIRE or RESTORE (R65 to R69). -/
structure MarkWork where
  kind  : MarkKind
  name  : RecordName
  stage : MarkStage
  deriving DecidableEq, Repr

/-- The work of a taken request. `taken` is a request in the step of its take; `layout` is a COMMIT
LAYOUT with its version and whether bank 0's program completed OK (R167). -/
inductive Work
  | taken
  | read (w : ReadWork)
  | check (w : CheckWork)
  | put (w : PutWork)
  | commit (slot : SlotIndex)
  | abandon (slot : SlotIndex)
  | mark (w : MarkWork)
  | purge
  | maintain
  | layout (version : Nat) (bank0 : Option OkFail)
  deriving DecidableEq, Repr

/-- A request of the in-flight set (R174, R175, R179). `id` is the model's own name for it: the lowest
number no other request in flight has. -/
structure Flight where
  id      : Nat
  port    : Port
  tag     : Byte
  kind    : RequestKind
  discard : Bool
  work    : Work
  deriving DecidableEq, Repr

/-! ### Purge -/

/-- The step a block of a purge's erase set has reached (R77, R78). `waiting`: the purge has not taken
it. `toVerify` and `toOverwrite`: an erase or stamp of scrub has completed and the purge's own next
job waits for the bank. The verify's argument is its first page. -/
inductive MemberStep
  | waiting
  | erasing
  | toVerify (first : Nat)
  | verifying (first : Nat)
  | toOverwrite
  | overwriting (page : Nat)
  deriving DecidableEq, Repr

/-- The place of a block in the order of R77: the version's MIRROR chunk 0 block comes second to last
and its PRIMARY chunk 0 block last. -/
inductive MemberRank
  | ordinary
  | mirrorZero
  | primaryZero
  deriving DecidableEq, Repr

/-- A block of a purge's erase set that has not yet been verified or overwritten (R77). -/
structure PurgeMember where
  addr : BlockAddr
  rank : MemberRank
  step : MemberStep
  deriving DecidableEq, Repr

/-- Where the purge of one record stands: a PURGE mark program into one copy (R76), or the erase step
with what is left of its set (R77). -/
inductive PurgeStep
  | mark (copy : Copy)
  | erase (set : List PurgeMember)
  deriving DecidableEq, Repr

/-- The purge in progress (R75, R162). `flight` is the request, absent for a resumed purge; `rest` is
the work list after the record at work. -/
structure PurgeWork where
  flight      : Option Nat
  current     : RecordName
  step        : PurgeStep
  rest        : List RecordName
  purged      : Nat
  overwritten : Nat
  skipped     : Nat
  deriving DecidableEq, Repr

/-! ### The block pool -/

/-- The states of a block (R96). -/
inductive BlockState
  | descriptor
  | free
  | allocated
  | stale
  | erasing
  | bad
  deriving DecidableEq, Repr

/-- The owner of a block (R96). -/
structure Owner where
  name       : RecordName
  generation : Nat
  chunk      : Nat
  copy       : Copy
  deriving DecidableEq, Repr

/-- Who queued the erase of an ERASING block (R104, R137, R77). -/
inductive Eraser
  | run
  | demand
  | purge
  deriving DecidableEq, Repr

/-- The erase of an ERASING block: who queued it, and whether it has completed OK and the wear stamp is
due (R106). -/
structure EraseWork where
  eraser : Eraser
  stamp  : Bool
  deriving DecidableEq, Repr

/-- An entry of the Block State Table (R96). A STALE block without an owner has owner UNKNOWN (R154).
`factory` marks a BAD block classified by its factory marker at the last start (R168). -/
structure BlockEntry where
  state     : BlockState
  count     : Nat
  estimated : Bool
  owner     : Option Owner
  pins      : Nat
  flag      : Bool
  factory   : Bool
  erase     : Option EraseWork
  deriving DecidableEq, Repr

/-- A line of the Block State Table. -/
structure BlockLine where
  addr  : BlockAddr
  entry : BlockEntry
  deriving DecidableEq, Repr

/-- The bank a block request must avoid (R101): none, a given bank, or the bank chosen for the request
before it in the same grant. -/
inductive Avoid
  | nothing
  | bank (b : Bank)
  | previous
  deriving DecidableEq, Repr

/-- One block request of a grant (R101). The placement follows from the owner's namespace (R102). -/
structure BlockRequest where
  owner     : Owner
  allowance : Bool
  tail      : Bool
  avoid     : Avoid
  deriving DecidableEq, Repr

/-- Which relocation: the mark work of a request in flight, or the Maintenance Unit's. -/
inductive RelocId
  | mark (flight : Nat)
  | maint
  deriving DecidableEq, Repr

/-- Who asked for a grant, and what for: `none` for the first grant of a put or a relocation, a copy for
a repeat attempt at it (R101). -/
inductive Asker
  | put (flight : Nat) (again : Option Copy)
  | commit (slot : SlotIndex)
  | reloc (id : RelocId) (again : Option Copy)
  deriving DecidableEq, Repr

/-- A grant of the wait list (R101, R103). -/
structure Grant where
  asker    : Asker
  requests : List BlockRequest
  deriving DecidableEq, Repr

/-- Who draws on the allowance (R107). -/
inductive Drawer
  | commit (slot : SlotIndex)
  | reloc (id : RelocId)
  deriving DecidableEq, Repr

/-- A draw waiting for places of the allowance (R107). -/
structure Draw where
  drawer : Drawer
  places : Nat
  deriving DecidableEq, Repr

/-- The Block Pool Manager (R96 to R114). A block that is not in `table` has not been classified since the last start
(R150). Block 0 of each bank is DESCRIPTOR and stands in no line. `joined` is the model's own: the blocks that have
joined the scrub queue in the step under way (R105); between steps it is empty (log 39). `head`, the grant that headed
the wait list when the last step ended, and `examine`, which says that the step under way has completed an erase job or
taken the last pin of a STALE block, are the model's own too: they tell when the demand erases are examined (R104, log
56). `recheck`, the model's own as well, says that the step under way has given a cause to re-examine the wait list
(R103, log 59). -/
structure Pool where
  table   : List BlockLine
  scrub   : List BlockAddr
  joined  : List BlockAddr
  waits   : List Grant
  draws   : List Draw
  refresh : List RecordName
  level   : Fin 4
  worn    : Bool
  slots   : Vector Nat 4
  head    : Option Grant
  examine : Bool
  recheck : Bool
  deriving DecidableEq, Repr

/-- The pool as a start finds it (R99, R150). -/
def Pool.cleared : Pool :=
  { table := [], scrub := [], joined := [], waits := [], draws := [], refresh := [], level := 0, worn := false,
    slots := Vector.replicate 4 0, head := none, examine := false, recheck := false }

/-! ### Bank Engines -/

/-- The classes of jobs (R122). -/
inductive JobClass
  | read
  | program
  | erase
  deriving DecidableEq, Repr

/-- The kinds of jobs with their target within the block and their data (R121). A segment program names
its page, its first segment and its bytes. An erase verify names its first page. -/
inductive JobOp
  | pageRead (page : Nat)
  | pageProgram (page : Nat) (data : List Byte)
  | segmentProgram (page segment : Nat) (data : List Byte)
  | blockErase
  | eraseVerify (first : Nat)
  deriving DecidableEq, Repr

/-- Who queued a job and receives its completion (R120, R124). -/
inductive Queuer
  | put (flight : Nat) (copy : Copy)
  | commitRecord (slot : SlotIndex)
  | mirrorCommitRecord (slot : SlotIndex)
  | commitCopyRead (slot : SlotIndex) (copy : Copy)
  | commitCopyProgram (slot : SlotIndex)
  | mark (flight : Nat)
  | mirrorMark (flight : Nat)
  | relocRead (id : RelocId) (chunk page : Nat) (copy : Copy)
  | relocProgram (id : RelocId) (copy : Copy)
  | relocCommit (id : RelocId)
  | relocMirrorCommit (id : RelocId)
  | readPage (flight chunk page : Nat) (copy : Copy)
  | checkPage (flight chunk page : Nat) (copy : Copy)
  | scrubErase
  | wearStamp
  | purgeMark
  | purgeErase
  | purgeVerify
  | purgeOverwrite
  | grownBad
  | layoutPage (flight : Nat)
  | scanRead
  | scanVerify
  deriving DecidableEq, Repr

/-- An array job (section 7.3). Its bank is the engine's. -/
structure Job where
  block : BlockNo
  op    : JobOp
  cls   : JobClass
  by_   : Queuer
  deriving DecidableEq, Repr

/-- A Bank Engine (R120). Both lists stand in order of arrival. -/
structure Engine where
  queue   : List Job
  waiting : List Job
  current : Option Job
  deriving DecidableEq, Repr

/-- An engine with no job (R120). -/
def Engine.idle : Engine := { queue := [], waiting := [], current := none }

/-! ### Maintenance Unit -/

/-- The run state (R131). -/
inductive RunState
  | idle
  | running
  | foreground
  | stopping
  deriving DecidableEq, Repr

/-- The run origin (R131). -/
inductive RunOrigin
  | auto
  | maintain (requester : Port)
  | level
  deriving DecidableEq, Repr

/-- The Maintenance Unit (R131). The current part is a view, `Device.inScrubPart`. -/
structure Maint where
  run        : RunState
  origin     : RunOrigin
  erased     : Nat
  relocated  : Nat
  wornSeen   : Bool
  reloc      : Option Reloc
  visited    : List RecordName
  wearMoved  : Bool
  passOver   : List RecordName
  refreshed  : Nat
  wearMoves  : Nat
  markMoves  : Nat
  deriving DecidableEq, Repr

/-- The unit after a start (R131). The origin, the counts and the sets of a run that is not there yet are chosen
(log 46). -/
def Maint.cleared : Maint :=
  { run := .idle, origin := .auto, erased := 0, relocated := 0, wornSeen := false, reloc := none,
    visited := [], wearMoved := false, passOver := [], refreshed := 0, wearMoves := 0, markMoves := 0 }

/-! ### Start-up Scanner -/

/-- A valid block header (R130). -/
structure Header where
  name       : RecordName
  chunk      : Nat
  count      : Nat
  copy       : Copy
  generation : Nat
  bodyLength : Nat
  frozen     : Bool
  retired    : Bool
  deriving DecidableEq, Repr

/-- A valid commit record (R130). The body CRC-32 is kept as its four bytes. -/
structure CommitRecord where
  generation : Nat
  count      : Nat
  bodyLength : Nat
  crc        : BitVec 32
  deriving DecidableEq, Repr

/-- A valid mark (R130). -/
structure Mark where
  kind       : MarkKind
  slot       : Nat
  generation : Nat
  deriving DecidableEq, Repr

/-- The causes of a grown-bad entry (R110). -/
inductive BadCause
  | program
  | erase
  | wear
  deriving DecidableEq, Repr

/-- A valid grown-bad entry (R110, R130). -/
structure GrownBad where
  addr    : BlockAddr
  cause   : BadCause
  page    : Nat
  segment : Nat
  deriving DecidableEq, Repr

/-- What the scanner knows of a page of a chunk 0 block. -/
inductive PageFound
  | unread
  | unreadable
  | data (bytes : List Byte)
  deriving DecidableEq, Repr

/-- A block with a valid header, as the scanner has read it (R154, R156): whether a grown-bad entry
names it, its wear stamp, the highest corrected-bit count of its page reads, and its mark and commit
pages. -/
structure FoundBlock where
  addr   : BlockAddr
  header : Header
  bad    : Bool
  stamp  : Option Nat
  worst  : Nat
  page14 : PageFound
  page15 : PageFound
  deriving DecidableEq, Repr

/-- A valid layout page found (R152). -/
structure FoundLayout where
  version : Nat
  bank    : Bank
  layout  : Layout
  deriving DecidableEq, Repr

/-- A block that awaits its erase verify (R155): the first page to verify, and the count its wear stamp
names, if it has one. -/
structure PendingVerify where
  addr  : BlockAddr
  first : Nat
  stamp : Option Nat
  deriving DecidableEq, Repr

/-- A body page read to resolve a duplicate (R157); `none` when it read UNCORRECTABLE. -/
structure BodyPage where
  addr : BlockAddr
  page : Nat
  data : Option (List Byte)
  deriving DecidableEq, Repr

/-- A read or verify in the scanner's list for a bank (R152). -/
inductive ScanTask
  | page (block : BlockNo) (page : Nat)
  | verify (block : BlockNo) (first : Nat)
  deriving DecidableEq, Repr

/-- The stages of the scan (R152 to R161). -/
inductive ScanStage
  | identity (bank : Bank)
  | descriptors
  | early
  | earlyBodies
  | full
  | fullBodies
  | finished
  deriving DecidableEq, Repr

/-- The Start-up Scanner (R152 to R161): each bank's list of jobs to come, whether a job of its own is
queued or in progress there, whether the bank has gone on from its page 0 reads to the reads and
verifies that follow them, and everything it has found. -/
structure Scan where
  stage      : ScanStage
  todo       : Vector (List ScanTask) 4
  out        : Vector Bool 4
  detail     : Vector Bool 4
  layouts    : List FoundLayout
  topPage    : Nat
  grownBad   : List GrownBad
  found      : List FoundBlock
  verifies   : List PendingVerify
  stampSum   : Vector Nat 4
  stampCount : Vector Nat 4
  bodies     : List BodyPage
  deriving DecidableEq, Repr

/-- The scanner with nothing read. -/
def Scan.cleared : Scan :=
  { stage := .identity 0, todo := Vector.replicate 4 [], out := Vector.replicate 4 false,
    detail := Vector.replicate 4 false, layouts := [], topPage := 4, grownBad := [], found := [],
    verifies := [], stampSum := Vector.replicate 4 0, stampCount := Vector.replicate 4 0, bodies := [] }

/-! ### The whole machine -/

/-- Everything of the part but the array: what a step of a port, of the Record Controller, of the Block
Pool Manager, of the Maintenance Unit or of the scanner reads and changes. -/
structure Device where
  power          : Power
  resetLow       : Bool
  straps         : BitVec 2
  serviceAddress : BitVec 7
  phase          : Phase
  primary        : PortState
  service        : PortState
  turn           : Port
  flights        : List Flight
  dir            : List Entry
  slots          : Vector Slot 8
  locks          : Vector Bool 8
  retireCounter  : BitVec 64
  settings       : Settings
  layout         : LayoutStore
  identity       : Identity
  pool           : Pool
  engines        : Vector Engine 4
  maint          : Maint
  purge          : Option PurgeWork
  scan           : Scan
  deriving DecidableEq, Repr

/-- The state of the whole machine: the part, its array as a list of cells in canonical form
(`Memory.wf`), the segments whose content no rule fixes (R121, R127), the pages that hold a program that failed (R121),
the first segments of the records that fail their CRC whatever they read as (R47, R70, R128, R152, R167), the blocks whose last
erase was cut short over a wear stamp's segment that still held what a rule fixes (R127), the counter the free values
are drawn with, and the commands that are waiting, first in first out. -/
structure State extends Device where
  cells   : List Host.Cell
  weak    : List Nat
  spoilt  : List Nat
  torn    : List Nat
  cut     : List Nat
  fresh   : Nat
  pending : List Instr
  deriving DecidableEq, Repr

/-- Why a step may stop with a fault: no command of the table is left without an effect by the spec, so
there is no fault. -/
inductive Fault
  deriving DecidableEq, Repr

/-- Why a step may be refused. -/
inductive Refusal
  /-- Raised by an arm of `exec` whose command has no meaning yet (none has). Safe: the model stops. -/
  | notModelled (mnemonic : String)
  deriving DecidableEq, Repr

/-- The part with power off, RESET_N high, nothing stored outside the array and no job anywhere. Every
volatile part is at the value a start gives it. -/
def Device.blank : Device :=
  { power := .off, resetLow := false, straps := 0, serviceAddress := 0x38, phase := .starting,
    primary := .cleared, service := .cleared, turn := .primary, flights := [], dir := [],
    slots := Vector.replicate 8 { seq := 0, ctx := none }, locks := Vector.replicate 8 false,
    retireCounter := 1, settings := .default,
    layout := { active := none, version := 0, staged := .default, pending := false, nextPage := 5 },
    identity := { vendor := 0, part := 0, revision := 0, unique := 0 },
    pool := .cleared, engines := Vector.replicate 4 .idle, maint := .cleared, purge := none,
    scan := .cleared }

/-- The machine right after a cold start of a part as it leaves the factory (log 3): phase STARTING, all
volatile state at its defaults (R150), and the scanner's first read, page 0 of (0, 0), in progress
(R152). The array lists nothing: every byte is as the factory left it (R118, log 4). -/
def State.reset : State :=
  { Device.blank with
    power := .running
    engines := (Vector.replicate 4 Engine.idle).set 0
      { queue := [], waiting := [],
        current := some { block := 0, op := .pageRead 0, cls := .read, by_ := .scanRead } }
    scan := { Scan.cleared with out := (Vector.replicate 4 false).set 0 true }
    cells := []
    weak := []
    spoilt := []
    torn := []
    cut := []
    fresh := 0
    pending := [] }

end Sys2Proof.Machine
end

