-- ==== Sys2Proof/Machine/Formats.lean ====
section
/-!
DEFINITION. The byte layouts of section 7.8: the CRCs of R129, and for each record the part keeps in
the array what its bytes are and when bytes read as a valid record (R130). Also the content of the
array as the factory leaves it (R118).
-/

namespace Sys2Proof.Machine

/-! ### Bytes and CRCs -/

/-- The low `n` bytes of a number, least significant byte first (R129). -/
def leBytes : Nat → Nat → List Byte
  | 0, _ => []
  | n + 1, v => BitVec.ofNat 8 v :: leBytes n (v / 256)

/-- The unsigned number that bytes hold, least significant byte first (R129). -/
def leValue : List Byte → Nat
  | [] => 0
  | b :: rest => b.toNat + 256 * leValue rest

/-- `n` bytes from offset `o`. -/
def sliceBytes (bytes : List Byte) (o n : Nat) : List Byte := (bytes.drop o).take n

/-- The unsigned number in the `n` bytes at offset `o`. -/
def fieldAt (bytes : List Byte) (o n : Nat) : Nat := leValue (sliceBytes bytes o n)

/-- `n` bytes of the given value. -/
def fill (n : Nat) (b : Byte) : List Byte := List.replicate n b

/-- Bytes padded with zeros to `n` bytes (R32). -/
def padded (n : Nat) (bytes : List Byte) : List Byte := (bytes ++ fill n 0).take n

/-- One bit of the CRC-16 of R129: polynomial 0x1021, most significant bit first. -/
def crc16Bit (c : BitVec 16) : BitVec 16 := if c.msb then (c <<< 1) ^^^ 0x1021 else c <<< 1

/-- One byte of the CRC-16 of R129. -/
def crc16Byte (c : BitVec 16) (b : Byte) : BitVec 16 :=
  let c := c ^^^ (b.setWidth 16 <<< 8)
  crc16Bit (crc16Bit (crc16Bit (crc16Bit (crc16Bit (crc16Bit (crc16Bit (crc16Bit c)))))))

/-- The CRC-16 of R129: initial value 0xFFFF, no final inversion. -/
def crc16 (bytes : List Byte) : BitVec 16 := bytes.foldl crc16Byte 0xFFFF

/-- Bytes followed by their CRC-16, least significant byte first (R129). -/
def withCrc16 (bytes : List Byte) : List Byte := bytes ++ leBytes 2 (crc16 bytes).toNat

/-- A record of `n` bytes whose last two are the CRC-16 of the ones before them (R130). -/
def crc16Valid (bytes : List Byte) (n : Nat) : Bool :=
  bytes.length ≥ n && fieldAt bytes (n - 2) 2 == (crc16 (bytes.take (n - 2))).toNat

/-- One bit of the CRC-32 register. R129 gives polynomial 0x04C11DB7 with each byte taken least
significant bit first: the register is kept bit-reversed (DEDUCED, log 8). -/
def crc32Bit (c : BitVec 32) : BitVec 32 := if c.getLsbD 0 then (c >>> 1) ^^^ 0xEDB88320 else c >>> 1

/-- One byte of the CRC-32 register. -/
def crc32Byte (c : BitVec 32) (b : Byte) : BitVec 32 :=
  let c := c ^^^ b.setWidth 32
  crc32Bit (crc32Bit (crc32Bit (crc32Bit (crc32Bit (crc32Bit (crc32Bit (crc32Bit c)))))))

/-- The CRC-32 of R129: initial value 0xFFFFFFFF, the result inverted. -/
def crc32 (bytes : List Byte) : BitVec 32 := ~~~ (bytes.foldl crc32Byte 0xFFFFFFFF)

/-- A CRC-32 register run over `n` zero bytes. -/
def crc32Zeros : Nat → BitVec 32 → BitVec 32
  | 0, c => c
  | n + 1, c => crc32Zeros n (crc32Byte c 0)

/-- The CRC-32 of two runs of bytes in order, from the CRC-32 of each and the length of the second:
this is how COMMIT forms the body CRC-32 from the chunk CRC-32 values (R36). -/
def crc32Join (first second : BitVec 32) (secondLength : Nat) : BitVec 32 :=
  crc32Zeros secondLength first ^^^ second

/-! ### Versions, chunks and segments -/

/-- The chunk count of a version with body length `l` (R1). -/
def chunkCountOf (l : Nat) : Nat := (l + (Config.chunkBytes - 1)) / Config.chunkBytes

/-- The length of chunk `i` of a version with body length `l` (R1). -/
def chunkLengthOf (l i : Nat) : Nat := min (l - Config.chunkBytes * i) Config.chunkBytes

/-- Segment `s` of a page (R115). -/
def segment (page : List Byte) (s : Nat) : List Byte := sliceBytes page (16 * s) 16

/-- Segments `s` to `s + n - 1` of a page (R115). -/
def segments (page : List Byte) (s n : Nat) : List Byte := sliceBytes page (16 * s) (16 * n)

/-- Bytes that read as erased (R115). -/
def allOnes (bytes : List Byte) : Bool := bytes.all (· == 0xFF)

/-- Bytes that read as zero. -/
def allZero (bytes : List Byte) : Bool := bytes.all (· == 0)

/-! ### Identity record -/

/-- The identity record (section 7.8), 32 bytes. -/
def identityRecord (revision unique : Nat) : List Byte :=
  withCrc16 (leBytes 2 Config.vendorCode ++ leBytes 2 Config.partCode ++ leBytes 1 revision ++ fill 3 0
    ++ leBytes 8 unique ++ fill 14 0)

/-- The identity in page 0 of a descriptor block, when its record is valid (R130, R152). -/
def readIdentity (page : List Byte) : Option Identity :=
  if crc16Valid page 32 && fieldAt page 0 2 == Config.vendorCode && fieldAt page 2 2 == Config.partCode
      && decide (fieldAt page 4 1 ≤ 254) then
    some { vendor := fieldAt page 0 2, part := fieldAt page 2 2, revision := fieldAt page 4 1,
           unique := fieldAt page 8 8 }
  else none

/-! ### Wear stamp -/

/-- The wear stamp of an erase count (section 7.8), 16 bytes. -/
def wearStamp (count : Nat) : List Byte := withCrc16 (leBytes 4 count ++ fill 10 0)

/-- The erase count that a wear stamp names, when the stamp is valid (R130). -/
def readStamp (seg : List Byte) : Option Nat :=
  if crc16Valid seg 16 && decide (fieldAt seg 0 4 ≤ Config.wearLimit - 1) then some (fieldAt seg 0 4) else none

/-! ### Block header -/

/-- The code of a copy in a block header. -/
def Copy.code : Copy → Nat
  | .primary => 1
  | .mirror => 2

/-- The block header (section 7.8), 64 bytes. -/
def headerRecord (h : Header) : List Byte :=
  withCrc16 (leBytes 4 h.name.key.toNat ++ leBytes 1 h.name.ns.val ++ leBytes 1 h.chunk ++ leBytes 1 h.count
    ++ leBytes 1 h.copy.code ++ leBytes 4 h.generation ++ leBytes 4 h.bodyLength
    ++ leBytes 1 ((if h.frozen then 1 else 0) + (if h.retired then 2 else 0)) ++ fill 45 0)

/-- The block header that segments 1 to 4 of a page 0 hold, when it is valid (R130): every field in its
range, the chunk index below the chunk count, and the chunk count that of the body length. -/
def readHeader (b : List Byte) : Option Header :=
  let ns := fieldAt b 4 1
  let copy := fieldAt b 7 1
  let gen := fieldAt b 8 4
  let len := fieldAt b 12 4
  let flags := fieldAt b 16 1
  if h : crc16Valid b 64 ∧ ns < 8 ∧ fieldAt b 5 1 < fieldAt b 6 1 ∧ 1 ≤ fieldAt b 6 1 ∧ fieldAt b 6 1 ≤ 16
      ∧ 1 ≤ copy ∧ copy ≤ 2 ∧ 1 ≤ gen ∧ gen ≤ Config.maxGeneration ∧ 1 ≤ len ∧ len ≤ Config.maxBody
      ∧ fieldAt b 6 1 = chunkCountOf len ∧ flags < 4 then
    some { name := { ns := ⟨ns, h.2.1⟩, key := BitVec.ofNat 32 (fieldAt b 0 4) }, chunk := fieldAt b 5 1,
           count := fieldAt b 6 1, copy := if copy = 1 then .primary else .mirror, generation := gen,
           bodyLength := len, frozen := flags % 2 = 1, retired := flags / 2 = 1 }
  else none

/-! ### Commit record -/

/-- The commit record (section 7.8), 32 bytes. The body CRC-32 is given as its four bytes. -/
def commitRecord (generation count bodyLength : Nat) (crc : List Byte) : List Byte :=
  withCrc16 (leBytes 4 generation ++ leBytes 1 count ++ fill 3 0 ++ leBytes 4 bodyLength ++ padded 4 crc ++ fill 14 0)

/-- The commit record in page 15, when it is valid (R130). -/
def readCommit (page : List Byte) : Option CommitRecord :=
  let gen := fieldAt page 0 4
  let count := fieldAt page 4 1
  let len := fieldAt page 8 4
  if crc16Valid page 32 && decide (1 ≤ gen ∧ gen ≤ Config.maxGeneration ∧ 1 ≤ count ∧ count ≤ 16 ∧ 1 ≤ len
      ∧ len ≤ Config.maxBody) then
    some { generation := gen, count := count, bodyLength := len, crc := BitVec.ofNat 32 (fieldAt page 12 4) }
  else none

/-! ### Mark slot -/

/-- The code of a mark kind. -/
def MarkKind.code : MarkKind → Nat
  | .freeze => 1
  | .retire => 2
  | .restore => 3
  | .purge => 4

/-- The mark kind of a code. -/
def MarkKind.ofCode : Nat → Option MarkKind
  | 1 => some .freeze
  | 2 => some .retire
  | 3 => some .restore
  | 4 => some .purge
  | _ => none

/-- The mark of a kind in slot `k`, naming a generation (section 7.8), 64 bytes. -/
def markRecord (kind : MarkKind) (k generation : Nat) : List Byte :=
  withCrc16 (leBytes 1 kind.code ++ leBytes 1 k ++ fill 2 0 ++ leBytes 4 generation ++ fill 54 0)

/-- The 64 bytes of mark slot `k` of page 14 (R64). -/
def markSlot (page : List Byte) (k : Nat) : List Byte := segments page (4 * (k - 1)) 4

/-- The mark in slot `k` of page 14, when it is valid (R130): its CRC matches, it names its own slot, and
its kind belongs in that slot, PURGE in slot 4 and no other kind there. -/
def readMark (page : List Byte) (k : Nat) : Option Mark :=
  let b := markSlot page k
  let gen := fieldAt b 4 4
  match MarkKind.ofCode (fieldAt b 0 1) with
  | none => none
  | some kind =>
    if crc16Valid b 64 && fieldAt b 1 1 == k && (decide (kind = .purge) == decide (k = 4))
        && decide (1 ≤ gen ∧ gen ≤ Config.maxGeneration) then
      some { kind := kind, slot := k, generation := gen }
    else none

/-! ### Grown-bad entry -/

/-- The code of a cause. -/
def BadCause.code : BadCause → Nat
  | .program => 1
  | .erase => 2
  | .wear => 3

/-- The cause of a code. -/
def BadCause.ofCode : Nat → Option BadCause
  | 1 => some .program
  | 2 => some .erase
  | 3 => some .wear
  | _ => none

/-- A grown-bad entry (section 7.8), 16 bytes. -/
def grownBadRecord (block : Nat) (cause : BadCause) (page seg : Nat) : List Byte :=
  withCrc16 (leBytes 2 block ++ leBytes 1 cause.code ++ leBytes 1 page ++ leBytes 1 seg ++ fill 9 0)

/-- The grown-bad entry in a slot of a bank's list, when it is valid (R130): page and segment 0 unless the
cause is PROGRAM. -/
def readGrownBad (bank : Bank) (b : List Byte) : Option GrownBad :=
  let block := fieldAt b 0 2
  let page := fieldAt b 3 1
  let seg := fieldAt b 4 1
  match BadCause.ofCode (fieldAt b 2 1) with
  | none => none
  | some cause =>
    if h : crc16Valid b 16 ∧ 1 ≤ block ∧ block < 512 ∧ page ≤ 15 ∧ seg ≤ 15
        ∧ (cause = .program ∨ (page = 0 ∧ seg = 0)) then
      some { addr := { bank := bank, block := ⟨block, h.2.2.1⟩ }, cause := cause, page := page, segment := seg }
    else none

/-! ### Layout page -/

/-- The code of a right (R181). -/
def Right.code : Right → Nat
  | .none => 0
  | .read => 1
  | .full => 2

/-- The right of a code (R181). -/
def Right.ofCode : Nat → Option Right
  | 0 => some .none
  | 1 => some .read
  | 2 => some .full
  | _ => none

/-- A set-or-clear field (R181). -/
def flagCode (b : Bool) : Nat := if b then 1 else 0

/-- The bool of a set-or-clear field, when it is neither other value (R181). -/
def flagOf : Nat → Option Bool
  | 0 => some false
  | 1 => some true
  | _ => none

/-- A namespace descriptor in a layout page, 24 bytes. The fields of a disabled namespace are zero. -/
def descRecord (d : NsDesc) : List Byte :=
  if d.enabled then
    leBytes 1 1 ++ leBytes 1 (flagCode d.mirrored) ++ leBytes 1 (flagCode d.early) ++ leBytes 1 d.primaryRight.code
      ++ leBytes 1 d.serviceRight.code ++ fill 3 0 ++ leBytes 2 d.recordLimit ++ leBytes 2 d.quota ++ fill 12 0
  else fill 24 0

/-- The descriptor of namespace `n` in a layout page, when every field is in range (R130). -/
def readDesc (n : Nat) (b : List Byte) : Option NsDesc := do
  let enabled ← flagOf (fieldAt b 0 1)
  let mirrored ← flagOf (fieldAt b 1 1)
  let early ← flagOf (fieldAt b 2 1)
  let pr ← Right.ofCode (fieldAt b 3 1)
  let sr ← Right.ofCode (fieldAt b 4 1)
  let limit := fieldAt b 8 2
  let quota := fieldAt b 10 2
  if limit ≤ 1024 ∧ quota ≤ 1792 ∧ (early = true → n = 0) then
    some (if enabled then
      { enabled := true, mirrored := mirrored, early := early, primaryRight := pr, serviceRight := sr,
        recordLimit := limit, quota := quota }
      else NsDesc.disabled)
  else none

/-- The layout page of a version (section 7.8), 256 bytes. -/
def layoutPage (version : Nat) (l : Layout) : List Byte :=
  let body := leBytes 1 version ++ fill 7 0 ++ l.toList.flatMap descRecord ++ fill 52 0
  body ++ leBytes 4 (crc32 body).toNat

/-- The layout that page `page` of a descriptor block holds, when the page is valid (R130, R152): its
CRC-32 matches, its version is the page number less 4, and every descriptor is in range. -/
def readLayout (page : Nat) (b : List Byte) : Option Layout :=
  if fieldAt b 252 4 = (crc32 (b.take 252)).toNat ∧ fieldAt b 0 1 + 4 = page ∧ 1 ≤ fieldAt b 0 1
      ∧ fieldAt b 0 1 ≤ 11 then
    let desc (n : Nat) := readDesc n (sliceBytes b (8 + 24 * n) 24)
    match desc 0, desc 1, desc 2, desc 3, desc 4, desc 5, desc 6, desc 7 with
    | some a, some b, some c, some d, some e, some f, some g, some h => some #v[a, b, c, d, e, f, g, h]
    | _, _, _, _, _, _, _, _ => none
  else none

/-! ### The array as the factory leaves it -/

/-- The number of bytes of the array (R115). -/
def arrayBytes : Nat := 4 * 512 * 16 * 256

/-- The byte at an array address as the part leaves the factory (R118): the identity in page 0 of each
descriptor block, a wear stamp of erase count 0 in each general block, and everything else erased.
The modelled part has no factory-bad block (DESIGN CHOICE, log 4). -/
def factoryByte (a : Nat) : Byte :=
  if a % 4096 < 32 then
    if a / 4096 % 512 = 0 then
      (identityRecord Config.siliconRevision Config.uniqueNumber).getD (a % 4096) 0xFF
    else (wearStamp 0).getD (a % 4096) 0xFF
  else 0xFF

end Sys2Proof.Machine
end

