-- ==== Sys2Proof/Machine/Memory.lean ====
section
/-!
DEFINITION. The array as memory: a list of (address, byte) cells in one canonical form, and what reads,
programs, erases and cut-short jobs do to it (R115, R121, R125, R127).
-/

namespace Sys2Proof.Machine

/-- The byte at an array address. A byte that no cell lists reads as the factory left it (R118). -/
def Memory.get : List Host.Cell → Nat → Byte
  | [], a => factoryByte a
  | (b, v) :: rest, a => if a = b then v else Memory.get rest a

/-- The cells that a run of bytes from an address on lists: those that differ from what the factory left. -/
def listCells : Nat → List Byte → List Host.Cell
  | _, [] => []
  | a, v :: rest => if v = factoryByte a then listCells (a + 1) rest else (a, v) :: listCells (a + 1) rest

/-- The cells with a run of bytes stored from an address on, in canonical form: storing what an unlisted byte reads
as removes its cell. -/
def Memory.store (m : List Host.Cell) (a : Nat) (bytes : List Byte) : List Host.Cell :=
  m.filter (fun c => decide (c.1 < a)) ++ listCells a bytes ++ m.filter (fun c => decide (a + bytes.length ≤ c.1))

/-- The canonical form: addresses strictly rising and within the array, and no cell that lists what its
address reads as unlisted. -/
def Memory.wf : List Host.Cell → Bool
  | [] => true
  | [(a, v)] => decide (a < arrayBytes) && v != factoryByte a
  | (a, v) :: (b, w) :: rest =>
    decide (a < b) && (v != factoryByte a) && Memory.wf ((b, w) :: rest)

/-- The array address of byte 0 of a block. -/
def blockBase (a : BlockAddr) : Nat := a.num * 4096

/-- The array address of byte 0 of a page (R115). -/
def pageBase (a : BlockAddr) (page : Nat) : Nat := blockBase a + page % 16 * 256

/-- The cells that lie in a run of `n` addresses from `a` on. Every byte of the run reads the same from them as from
all the cells. -/
def Memory.window (m : List Host.Cell) (a n : Nat) : List Host.Cell :=
  m.filter fun c => decide (a ≤ c.1) && decide (c.1 < a + n)

/-- What the bytes from an address on hold when data has been programmed over them and the job completed OK: each
keeps its zeros and takes those of the data (R115), and one in a segment whose content no rule fixed holds the data
(R121). -/
def programBytes (weak : List Nat) (m : List Host.Cell) : Nat → List Byte → List Byte
  | _, [] => []
  | a, v :: rest =>
    (if a / 16 ∈ weak then v else Memory.get m a &&& v) :: programBytes weak m (a + 1) rest

/-- Programs bytes from an address on: programming clears bits and never sets one (R115). -/
def Memory.program (weak : List Nat) (m : List Host.Cell) (a : Nat) (data : List Byte) : List Host.Cell :=
  Memory.store m a (programBytes weak (Memory.window m a data.length) a data)

/-- A BLOCK ERASE sets every byte of the block to 0xFF (R115). Only the first 32 bytes of a block can
read as anything else unlisted (`factoryByte`). -/
def Memory.eraseBlock (m : List Host.Cell) (a : BlockAddr) : List Host.Cell :=
  Memory.store (m.filter fun c => decide (c.1 / 4096 ≠ a.num)) (blockBase a) (fill 32 0xFF)

/-- The number of a page of the array. -/
def pageNum (a : BlockAddr) (page : Nat) : Nat := pageBase a page / 256

/-- The number of a segment of the array. -/
def segmentNum (a : BlockAddr) (page seg : Nat) : Nat := pageBase a page / 16 + seg % 16

/-- The array address from which a program into a page from a segment on stores. -/
def runBase (a : BlockAddr) (page seg : Nat) : Nat := pageBase a page + seg % 16 * 16

/-- The bytes that such a program stores: those that lie in the page. -/
def runData (seg : Nat) (data : List Byte) : List Byte := data.take (256 - seg % 16 * 16)

/-- The segments that such a program stores into. -/
def runSegments (a : BlockAddr) (page seg : Nat) (data : List Byte) : List Nat :=
  (List.range (((runData seg data).length + 15) / 16)).map fun i => runBase a page seg / 16 + i

/-- The segments of a block. -/
def blockSegments (a : BlockAddr) : List Nat := (List.range 256).map fun i => a.num * 256 + i

/-- Inserts a number into an ascending set of numbers. -/
def insertNat (n : Nat) : List Nat → List Nat
  | [] => [n]
  | m :: rest => if n < m then n :: m :: rest else if n = m then m :: rest else m :: insertNat n rest

/-- Adds numbers to an ascending set of numbers. -/
@[irreducible] def insertNums (set ns : List Nat) : List Nat := ns.foldr insertNat set

/-- A set of numbers without those of a kind. -/
def dropNums (set : List Nat) (p : Nat → Bool) : List Nat := set.filter fun n => !p n

/-- Blocks without one, in a list in which each stands once. -/
def mended (cut : List Nat) (a : BlockAddr) : List Nat := dropNums cut (· == a.num)

/-! ### What a page reads as -/

/-- Whether no rule fixes what a byte of the array reads as (log 6): its page holds a program that failed (R121), or its
segment's program or erase failed or was cut short (R121, R127). -/
def State.unfixed (s : State) (x : Nat) : Bool := decide (x / 256 ∈ s.spoilt) || decide (x / 16 ∈ s.weak)

/-- What a page reads as where nothing but its cells and the bytes that no rule fixes decide (R116): the cells'
content, but a free value for each byte that no rule fixes. -/
def rawBytes (s : State) (a : BlockAddr) (page : Nat) : List Byte :=
  let here := Memory.window s.cells (pageBase a page) 256
  (List.range 256).map fun i =>
    if s.unfixed (pageBase a page + i) then Config.freeByte s.fresh (pageBase a page + i)
    else Memory.get here (pageBase a page + i)

/-- What segment 0 of page 0 of a block reads as after an erase of it was cut short (R127): any bytes, but a wear stamp
that is still readable names the count from before the erase, which is the one `old` names. -/
def cutStamp (old free : List Byte) : List Byte :=
  if readStamp free = none ∨ readStamp free = readStamp old then free else old

/-- The same of a whole page: only page 0 of a block whose erase was cut short reads otherwise than its bytes say. -/
def stampedBytes (s : State) (a : BlockAddr) (page : Nat) : List Byte :=
  let raw := rawBytes s a page
  if a.num ∈ s.cut ∧ page % 16 = 0 then
    cutStamp ((List.range 16).map fun i => Memory.get s.cells (blockBase a + i)) (segment raw 0) ++ raw.drop 16
  else raw

/-- The runs of a page in which a record stands (section 7.8): the first segment and the number of segments. -/
def recordRuns (a : BlockAddr) (page : Nat) : List (Nat × Nat) :=
  if a.block = 0 then
    if page % 16 = 0 then [(0, 2)]
    else if page % 16 ≤ 4 then (List.range 16).map fun i => (i, 1)
    else [(0, 16)]
  else if page % 16 = 0 then [(0, 1), (1, 4)]
  else if page % 16 = 14 then [(0, 4), (4, 4), (8, 4), (12, 4)]
  else if page % 16 = 15 then [(0, 2)]
  else []

/-- Whether the CRC of a record's bytes matches (R129, R130): the layout page, which fills its page, has a CRC-32, and
every other record a CRC-16. -/
def crcMatches (bytes : List Byte) : Bool :=
  if bytes.length = 256 then fieldAt bytes 252 4 == (crc32 (bytes.take 252)).toNat else crc16Valid bytes bytes.length

/-- Whether the records of a page stand in slots that count as used from the first program of them on, whatever came of
it: the mark slots (R159), and the grown-bad slots and layout pages of a descriptor block (R110, R119, R152, R167). -/
def slotPage (a : BlockAddr) (page : Nat) : Bool :=
  if a.block = 0 then decide (page % 16 ≠ 0) else decide (page % 16 = 14)

/-- Whether a record that fails its CRC reads otherwise than as these bytes: the CRC would match, or a slot that counts
as used would read as erased. -/
def recordBarred (a : BlockAddr) (page : Nat) (bytes : List Byte) : Bool :=
  crcMatches bytes || (slotPage a page && allOnes bytes)

/-- Where the records of a page end that fail their CRC whatever their bytes read as (R47, R70, R128, R167), of those
that these bytes would not let fail it or would let read as erased. -/
def tornEnds (s : State) (a : BlockAddr) (page : Nat) (bytes : List Byte) : List Nat :=
  ((recordRuns a page).filter fun run =>
    decide (segmentNum a page run.1 ∈ s.torn) && recordBarred a page (segments bytes run.1 run.2)).map
    fun run => 16 * (run.1 + run.2) - 1

/-- Bytes, the first of which stands at an offset, with a bit changed at each of some offsets. -/
def disturbed (ends : List Nat) : Nat → List Byte → List Byte
  | _, [] => []
  | i, v :: rest => (if i ∈ ends then v ^^^ 1 else v) :: disturbed ends (i + 1) rest

/-- The 256 bytes a PAGE READ of a page returns (R116, R121, R127): a record that `torn` names, because its program was
cut short, failed in a drain or failed in a descriptor block, reads with a CRC that does not match (R47, R70, R128,
R167), and as programmed where its slot counts as used (R119, R152, R159, log 60). -/
def pageBytes (s : State) (a : BlockAddr) (page : Nat) : List Byte :=
  let bytes := stampedBytes s a page
  disturbed (tornEnds s a page bytes) 0 bytes

/-! ### What jobs leave -/

/-- The state after a job programmed bytes into a page from a segment on and completed OK (R121): its cells hold what
was asked, and the record they held before is gone. -/
def State.programmed (s : State) (a : BlockAddr) (page seg : Nat) (data : List Byte) : State :=
  let run := runSegments a page seg data
  { s with
    cells := Memory.program s.weak s.cells (runBase a page seg) (runData seg data)
    weak := dropNums s.weak (run.contains ·)
    torn := dropNums s.torn (run.contains ·)
    cut := if page % 16 = 0 ∧ seg % 16 = 0 then mended s.cut a else s.cut }

/-- The state after a page program or segment program completed FAIL: the whole page may read with any data
until its block is erased (R121), but a record of it that failed its CRC already goes on to fail it. -/
def State.pageSpoiled (s : State) (a : BlockAddr) (page : Nat) : State :=
  { s with
    spoilt := insertNums s.spoilt [pageNum a page]
    cut := if page % 16 = 0 then mended s.cut a else s.cut }

/-- The state after a page program or segment program was cut short: the cells it was programming may read with any
data (R127). -/
def State.runCut (s : State) (a : BlockAddr) (page seg : Nat) (data : List Byte) : State :=
  let run := runSegments a page seg data
  { s with
    weak := insertNums s.weak run
    torn := dropNums s.torn (run.contains ·)
    cut := if page % 16 = 0 ∧ seg % 16 = 0 then mended s.cut a else s.cut }

/-- The record that begins at a segment of a page fails its CRC from now on, until its segments are programmed or
erased (R47, R70, R128, R152, R167). -/
def State.recordTorn (s : State) (a : BlockAddr) (page seg : Nat) : State :=
  { s with torn := insertNums s.torn [segmentNum a page seg] }

/-- The state after a page program or segment program from a segment of a page on completed FAIL (R121). In a
descriptor block the slot or page concerned counts as used, and what it holds is no valid record: no entry of the
grown-bad list (R110, R119), and no layout of its version (R152, R167, log 60). -/
def State.runFailed (s : State) (a : BlockAddr) (page seg : Nat) : State :=
  if a.block = 0 then (s.pageSpoiled a page).recordTorn a page seg else s.pageSpoiled a page

/-- The state after a BLOCK ERASE completed OK (R115, R121). -/
def State.blockErased (s : State) (a : BlockAddr) : State :=
  { s with
    cells := Memory.eraseBlock s.cells a
    weak := dropNums s.weak (· / 256 == a.num)
    spoilt := dropNums s.spoilt (· / 16 == a.num)
    torn := dropNums s.torn (· / 256 == a.num)
    cut := mended s.cut a }

/-- The state after a BLOCK ERASE completed FAIL: no page of the block reads as anything a rule fixes
(R121). -/
def State.blockSpoiled (s : State) (a : BlockAddr) : State :=
  { s with
    weak := insertNums s.weak (blockSegments a)
    spoilt := dropNums s.spoilt (· / 16 == a.num)
    torn := dropNums s.torn (· / 256 == a.num)
    cut := mended s.cut a }

/-- The state after a BLOCK ERASE was cut short (R127): the same, but a wear stamp that is still readable names the
count from before the erase, unless no rule fixed that segment before. -/
def State.blockCut (s : State) (a : BlockAddr) : State :=
  { s.blockSpoiled a with
    cut := if s.unfixed (blockBase a) then s.cut else insertNums s.cut [a.num] }

/-- The state after a page of a zero overwrite completed, with either outcome: a page read of it returns 256
zero bytes or UNCORRECTABLE (R125), since programming only clears bits. -/
def State.pageOverwritten (s : State) (a : BlockAddr) (page : Nat) : State :=
  { s with
    cells := Memory.store s.cells (pageBase a page) (fill 256 0)
    weak := dropNums s.weak (· / 16 == pageNum a page)
    spoilt := dropNums s.spoilt (· == pageNum a page)
    torn := dropNums s.torn (· / 16 == pageNum a page)
    cut := if page % 16 = 0 then mended s.cut a else s.cut }

/-- Whether an ERASE VERIFY from a first page on completes OK (R121): every raw bit it reads is one. The
outcome of the command says what the raw bits of the erased cells and of the cells no rule fixes
show; a cell whose content is fixed and is not all ones makes it FAIL whatever the command says. -/
def State.verifyPasses (s : State) (a : BlockAddr) (first : Nat) (o : OkFail) : Bool :=
  let here := Memory.window s.cells (blockBase a) 4096
  decide (o = .ok) &&
    (List.range (4096 - 256 * first)).all fun i =>
      let at_ := blockBase a + 256 * first + i
      s.unfixed at_ || Memory.get here at_ == 0xFF

/-- Whether a number is that of a unit of `n` bytes in the pages of a block from a first one on. -/
def inPagesFrom (a : BlockAddr) (first n x : Nat) : Bool :=
  decide (blockBase a + 256 * first ≤ n * x) && decide (n * x < blockBase a + 4096)

/-- The state after an ERASE VERIFY that completed OK (R121): every bit it read was one, so the pages it read are
erased. -/
def State.verified (s : State) (a : BlockAddr) (first : Nat) : State :=
  { s with
    cells := if first = 0 then Memory.eraseBlock s.cells a else s.cells.filter fun c => !inPagesFrom a first 1 c.1
    weak := dropNums s.weak (inPagesFrom a first 16)
    spoilt := dropNums s.spoilt (inPagesFrom a first 256)
    torn := dropNums s.torn (inPagesFrom a first 16)
    cut := if first = 0 then mended s.cut a else s.cut }

/-- What a job that completes leaves in the array (R121). A zero overwrite goes by R125; a read changes nothing, and a
verify changes what no rule fixed at most. -/
def State.jobWorked (s : State) (bank : Bank) (j : Job) (o : OkFail) : State :=
  let a : BlockAddr := { bank := bank, block := j.block }
  match j.op, o with
  | .pageRead _, _ => s
  | .eraseVerify first, o => if s.verifyPasses a first o then s.verified a first else s
  | .pageProgram page data, o =>
    if j.by_ = .purgeOverwrite then s.pageOverwritten a page
    else if o = .ok then s.programmed a page 0 data
    else s.runFailed a page 0
  | .segmentProgram page seg data, .ok => s.programmed a page seg data
  | .segmentProgram page seg _, .fail => s.runFailed a page seg
  | .blockErase, .ok => s.blockErased a
  | .blockErase, .fail => s.blockSpoiled a

/-- Where the record begins that a job writes, when it writes one: a segment program is one record, and a layout page
is one. -/
def Job.record? (j : Job) : Option (Nat × Nat) :=
  match j.op, j.by_ with
  | .segmentProgram page seg _, _ => some (page, seg)
  | .pageProgram page _, .layoutPage _ => some (page, 0)
  | _, _ => none

/-- What a job that completes while a warm reset drains leaves (R128): the same, but the scanner finds a program that
failed through the CRC of the record it was to write. -/
def State.drainWorked (s : State) (bank : Bank) (j : Job) (o : OkFail) : State :=
  match o, j.record? with
  | .fail, some (page, seg) => (s.jobWorked bank j .fail).recordTorn { bank := bank, block := j.block } page seg
  | o, _ => s.jobWorked bank j o

/-- What a job cut short by a loss of power leaves (R127): the cells it was programming in a pattern that may read with
any data, or the block it was erasing in one that a rule fixes in its wear stamp alone. A commit record cut short counts
as not programmed (R47), a mark cut short names no state and its slot counts as used (R70, R159), and a layout page cut
short is programmed and not valid (R152, R167). -/
def State.jobCut (s : State) (bank : Bank) (j : Job) : State :=
  let a : BlockAddr := { bank := bank, block := j.block }
  match j.op with
  | .pageRead _ => s
  | .eraseVerify _ => s
  | .pageProgram page data =>
    let s := s.runCut a page 0 data
    if j.block = 0 then s.recordTorn a page 0 else s
  | .segmentProgram page seg data =>
    let s := s.runCut a page seg data
    if 14 ≤ page % 16 ∧ j.block ≠ 0 then s.recordTorn a page seg else s
  | .blockErase => s.blockCut a

end Sys2Proof.Machine
end

