-- ==== Sys2Proof/Machine/Ops.lean ====
section
/-!
DEFINITION. The named operations over the state that every step is built from: ports and completions,
the directory, the contexts, the Block State Table, the job queues, and the quantities the spec
names that are views of them (log 7).
-/

namespace Sys2Proof

/-- The other port. -/
def Port.other : Port → Port
  | .primary => .service
  | .service => .primary

/-- The depth of a port's request queue and of its completion queue (R171). -/
def Port.depth : Port → Nat
  | .primary => 8
  | .service => 4

end Sys2Proof

namespace Sys2Proof.Machine

/-- A count that is held at 4,294,967,295 once it has reached it (R131). -/
def countUp (n : Nat) : Nat := if n < Config.countLimit then n + 1 else n

/-- The first failing check decides the result (R19, R25, R26 and the rest). -/
def firstFailure : List (Bool × Result) → Option Result
  | [] => none
  | (failed, r) :: rest => if failed then some r else firstFailure rest

/-- Inserts a block at its place in ascending (bank, block) order. -/
def insertBlock (a : BlockAddr) : List BlockAddr → List BlockAddr
  | [] => [a]
  | b :: rest => if a.num ≤ b.num then a :: b :: rest else b :: insertBlock a rest

/-- Blocks in ascending (bank, block) order. -/
def sortBlocks (as : List BlockAddr) : List BlockAddr := as.foldr insertBlock []

/-- Inserts a record into an ascending set of records (R111). -/
def insertName (r : RecordName) : List RecordName → List RecordName
  | [] => [r]
  | x :: rest => if r.num < x.num then r :: x :: rest else if r = x then x :: rest else x :: insertName r rest

/-! ### Ports -/

/-- The state of a port. -/
def Device.port (d : Device) : Port → PortState
  | .primary => d.primary
  | .service => d.service

/-- The device with a port's state replaced. -/
def Device.setPort (d : Device) (p : Port) (s : PortState) : Device :=
  match p with
  | .primary => { d with primary := s }
  | .service => { d with service := s }

/-- Whether the ports serve frames: not without power, not while a warm reset drains, and not while RESET_N
is low (R180). -/
def Device.linkUp (d : Device) : Bool := decide (d.power = .running) && !d.resetLow

/-- Posts notices to one port; a notice already in the set leaves it unchanged (R177). -/
def Notices.union (a b : Notices) : Notices :=
  { updateExpired := a.updateExpired || b.updateExpired, urgencyRaised := a.urgencyRaised || b.urgencyRaised,
    wornEntered := a.wornEntered || b.wornEntered, rebuildDone := a.rebuildDone || b.rebuildDone }

/-- The notices of a set that are not among the captured ones (R177). -/
def Notices.minus (a b : Notices) : Notices :=
  { updateExpired := a.updateExpired && !b.updateExpired, urgencyRaised := a.urgencyRaised && !b.urgencyRaised,
    wornEntered := a.wornEntered && !b.wornEntered, rebuildDone := a.rebuildDone && !b.rebuildDone }

/-- Posts notices to a port (R177). One that is in the set already leaves the set unchanged, and stays in it when a
STATUS that has captured it completes. -/
def Device.post (d : Device) (p : Port) (n : Notices) : Device :=
  d.setPort p { d.port p with notices := (d.port p).notices.union n, since := (d.port p).since.union n }

/-- Posts notices to both ports (R177). -/
def Device.postBoth (d : Device) (n : Notices) : Device := (d.post .primary n).post .service n

/-! ### The in-flight set -/

/-- A request in flight, by the model's name for it. -/
def Device.flight? (d : Device) (id : Nat) : Option Flight := d.flights.find? fun f => decide (f.id = id)

/-- The work of a request in flight. -/
def Device.work? (d : Device) (id : Nat) : Option Work := (d.flight? id).map (·.work)

/-- The requests whose work is the given one. -/
def Device.flightsWith (d : Device) (w : Work) : List Nat :=
  d.flights.filterMap fun f => if f.work = w then some f.id else none

/-- The device with the work of a request replaced. -/
def Device.setWork (d : Device) (id : Nat) (w : Work) : Device :=
  { d with flights := d.flights.map fun f => if f.id = id then { f with work := w } else f }

/-- The completion slots a port's taken requests hold (R171, R174): those not marked for discard. -/
def Device.reserved (d : Device) (p : Port) : Nat := d.flights.countP fun f => decide (f.port = p) && !f.discard

/-- The lowest number that names no request in flight. -/
def Device.newFlightId (d : Device) : Nat :=
  ((List.range (d.flights.length + 1)).find? fun n => d.flights.all fun f => decide (f.id ≠ n)).getD 0

/-- Ends a request's work (R175): it leaves the in-flight set, and its completion joins the end of its port's
completion queue, unless a port reset has marked it for discard. -/
def Device.complete (d : Device) (id : Nat) (r : Result) (reply : List Byte) : Device :=
  match d.flight? id with
  | none => d
  | some f =>
    let d := { d with flights := d.flights.filter fun g => decide (g.id ≠ id) }
    if f.discard then d
    else d.setPort f.port { d.port f.port with
      completions := (d.port f.port).completions ++ [{ tag := f.tag, kind := f.kind, result := r, reply := reply }] }

/-! ### Phase and layout -/

/-- A phase before READY, or HALTED (R25 and the check orders of most requests). -/
def Phase.notReady : Phase → Bool
  | .starting => true
  | .early => true
  | .resuming => true
  | .halted => true
  | .ready => false
  | .worn => false

/-- The active layout's descriptor of a namespace; before a layout is selected, a disabled one (R150). -/
def Device.desc (d : Device) (n : NsIndex) : NsDesc :=
  match d.layout.active with
  | none => .disabled
  | some l => l[n]

/-- The namespace a parameter names, when it is in 0 to 7 and the active layout enables it (R19 check 2). -/
def Device.nsOf (d : Device) (b : Byte) : Option NsIndex :=
  if h : b.toNat < 8 then
    if (d.desc ⟨b.toNat, h⟩).enabled then some ⟨b.toNat, h⟩ else none
  else none

/-- The right of a port in a descriptor (R81). -/
def NsDesc.right (x : NsDesc) : Port → Right
  | .primary => x.primaryRight
  | .service => x.serviceRight

/-- The active layout's early namespace, if it has one (R164): namespace 0, enabled and early. -/
def Device.earlyNs (d : Device) : Option NsIndex := if (d.desc 0).enabled && (d.desc 0).early then some 0 else none

/-- The sum of the quotas of the active layout; 0 before a layout is selected (R112, R168). -/
def Device.quotaSum (d : Device) : Nat :=
  match d.layout.active with
  | none => 0
  | some l => (l.toList.map fun x => if x.enabled then x.quota else 0).sum

/-- Copies of a chunk in a namespace (R1). -/
def Device.copiesOf (d : Device) (n : NsIndex) : Nat := if (d.desc n).mirrored then 2 else 1

/-! ### The directory -/

/-- The entry of a record (R11). -/
def Device.entry? (d : Device) (r : RecordName) : Option Entry := d.dir.find? fun e => decide (e.name = r)

/-- Inserts an entry at its place in the order of R11; an entry of the same name is replaced. -/
def insertEntry (e : Entry) : List Entry → List Entry
  | [] => [e]
  | x :: rest =>
    if e.name.num < x.name.num then e :: x :: rest
    else if e.name = x.name then e :: rest
    else x :: insertEntry e rest

/-- The device with an entry inserted (R12, R14). -/
def Device.insertRecord (d : Device) (e : Entry) : Device := { d with dir := insertEntry e d.dir }

/-- The device without the entry of a record (R13). The record also leaves the refresh set (R111) and the
pass-over list (R138). -/
def Device.removeRecord (d : Device) (r : RecordName) : Device :=
  { d with
    dir := d.dir.filter fun e => decide (e.name ≠ r)
    pool := { d.pool with refresh := d.pool.refresh.filter fun x => decide (x ≠ r) }
    maint := { d.maint with passOver := d.maint.passOver.filter fun x => decide (x ≠ r) } }

/-- The device with an entry changed in place; its name stays. -/
def Device.modEntry (d : Device) (r : RecordName) (f : Entry → Entry) : Device :=
  { d with dir := d.dir.map fun e => if e.name = r then { f e with name := e.name } else e }

/-- The record count of a namespace (R15). -/
def Device.recordCount (d : Device) (n : NsIndex) : Nat := d.dir.countP fun e => decide (e.name.ns = n)

/-- The blocks a version names, in chunk order, chunk list before mirror list, without the MISSING ones
(R3). -/
def Version.blocks (v : Version) : List BlockAddr :=
  v.chunks.filterMap (fun c => c.map (·.addr)) ++ v.mirrors.filterMap id

/-- Element `i` of a chunk list (R3). -/
def Version.chunkAt (v : Version) (i : Nat) : Option ChunkRef := (v.chunks[i]?).getD none

/-- Element `i` of a mirror list; `none` when MISSING or when the version is unmirrored (R3). -/
def Version.mirrorAt (v : Version) (i : Nat) : Option BlockAddr := (v.mirrors[i]?).getD none

/-- A record joins the refresh set, which holds it once (R111). -/
def Device.joinRefresh (d : Device) (r : RecordName) : Device :=
  { d with pool := { d.pool with refresh := insertName r d.pool.refresh } }

/-- A record leaves the refresh set (R111), and with it the pass-over list (R138). -/
def Device.leaveRefresh (d : Device) (r : RecordName) : Device :=
  if r ∈ d.pool.refresh then
    { d with
      pool := { d.pool with refresh := d.pool.refresh.filter fun x => decide (x ≠ r) }
      maint := { d.maint with passOver := d.maint.passOver.filter fun x => decide (x ≠ r) } }
  else d

/-- Element 0 of a record's mirror list becomes MISSING, and the record joins the refresh set (R3, R38,
R66). -/
def Device.loseMirrorZero (d : Device) (r : RecordName) : Device :=
  (d.modEntry r fun e => { e with version := { e.version with mirrors := e.version.mirrors.set 0 none } }).joinRefresh r

/-! ### Update contexts -/

/-- The context in a slot, unless it is FREE (R23). -/
def Device.ctx? (d : Device) (i : SlotIndex) : Option Ctx := d.slots[i].ctx

/-- The device with the context of a slot replaced. -/
def Device.setCtx (d : Device) (i : SlotIndex) (c : Ctx) : Device :=
  { d with slots := d.slots.set i { d.slots[i] with ctx := some c } }

/-- The slot goes FREE and its sequence rises by one, 255 wrapping to 0 (R24). -/
def Device.freeSlot (d : Device) (i : SlotIndex) : Device :=
  { d with slots := d.slots.set i { seq := d.slots[i].seq + 1, ctx := none } }

/-- The handle of a slot's current sequence (R24). -/
def Device.handle (d : Device) (i : SlotIndex) : BitVec 16 :=
  BitVec.ofNat 16 (i.val * 256 + d.slots[i].seq.toNat)

/-- The idle timer as it starts now (R43): the update timeout, or no timer when that is 0. -/
def Device.timerStart (d : Device) : Option Nat := if d.settings.timeout = 0 then none else some d.settings.timeout

/-- A request naming a context completes (R43): its requests in flight fall by one, and the timer of an OPEN
context whose requests reach zero starts again. -/
def Device.leaveContext (d : Device) (i : SlotIndex) : Device :=
  match d.ctx? i with
  | none => d
  | some c =>
    let n := c.requests - 1
    d.setCtx i { c with
      requests := n
      timer := if n = 0 ∧ c.state = .open then d.timerStart else c.timer }

/-! ### The Block State Table -/

/-- The entry of a DESCRIPTOR block (R96). -/
def BlockEntry.descriptor : BlockEntry :=
  { state := .descriptor, count := 0, estimated := false, owner := none, pins := 0, flag := false, factory := false,
    erase := none }

/-- A general block in a given state with a given count and nothing else. -/
def BlockEntry.plain (s : BlockState) (count : Nat) : BlockEntry :=
  { state := s, count := count, estimated := false, owner := none, pins := 0, flag := false, factory := false,
    erase := none }

/-- The entry of a block: DESCRIPTOR for block 0 of each bank (R96), `none` for a block not yet classified. -/
def Pool.block? (p : Pool) (a : BlockAddr) : Option BlockEntry :=
  if a.block = 0 then some .descriptor
  else (p.table.find? fun l => decide (l.addr = a)).map (·.entry)

/-- A line inserted at its place in ascending (bank, block) order, replacing the line of the same block. -/
def insertLine (l : BlockLine) : List BlockLine → List BlockLine
  | [] => [l]
  | x :: rest =>
    if l.addr.num < x.addr.num then l :: x :: rest
    else if l.addr = x.addr then l :: rest
    else x :: insertLine l rest

/-- The device with a block classified (R154) or its entry replaced. A DESCRIPTOR block never changes. -/
def Device.setBlock (d : Device) (a : BlockAddr) (e : BlockEntry) : Device :=
  if a.block = 0 then d
  else { d with pool := { d.pool with table := insertLine { addr := a, entry := e } d.pool.table } }

/-- The device with the entry of a classified general block changed. -/
def Device.modBlock (d : Device) (a : BlockAddr) (f : BlockEntry → BlockEntry) : Device :=
  { d with pool := { d.pool with
    table := d.pool.table.map fun l => if l.addr = a then { l with entry := f l.entry } else l } }

/-- The state of a block, when it has been classified. -/
def Device.blockState (d : Device) (a : BlockAddr) : Option BlockState := (d.pool.block? a).map (·.state)

/-- The pin count of a block (R98). -/
def Device.pinsOf (d : Device) (a : BlockAddr) : Nat := ((d.pool.block? a).map (·.pins)).getD 0

/-- The general blocks in a given state, device-wide. -/
def Device.countState (d : Device) (s : BlockState) : Nat := d.pool.table.countP fun l => decide (l.entry.state = s)

/-- The general blocks of a bank in a given state (R168). -/
def Device.countStateIn (d : Device) (b : Bank) (s : BlockState) : Nat :=
  d.pool.table.countP fun l => decide (l.addr.bank = b) && decide (l.entry.state = s)

/-- good_total: the general blocks that are not BAD (R96). -/
def Device.goodTotal (d : Device) : Nat := d.pool.table.countP fun l => decide (l.entry.state ≠ .bad)

/-- Whether a block counts in its namespace's blocks held (R16): ALLOCATED, with the allowance flag clear. -/
def BlockEntry.heldBy (e : BlockEntry) (n : NsIndex) : Bool :=
  decide (e.state = .allocated) && !e.flag && (e.owner.any fun o => decide (o.name.ns = n))

/-- The blocks held by a namespace (R16). -/
def Device.held (d : Device) (n : NsIndex) : Nat := d.pool.table.countP fun l => l.entry.heldBy n

/-- The relocation that mark work is doing, if it is relocating (R68). -/
def Work.reloc? : Work → Option Reloc
  | .mark { stage := .relocation r, .. } => some r
  | _ => none

/-- Every relocation in progress: those of mark work and the Maintenance Unit's. -/
def Device.relocs (d : Device) : List Reloc := d.flights.filterMap (·.work.reloc?) ++ d.maint.reloc.toList

/-- The contexts in use. -/
def Device.contexts (d : Device) : List Ctx := d.slots.toList.filterMap (·.ctx)

/-- The blocks reserved by a namespace (R17): by its contexts and by the relocations of its records. -/
def Device.reservedBlocks (d : Device) (n : NsIndex) : Nat :=
  ((d.contexts.filter fun c => decide (c.name.ns = n)).map (·.reserved)).sum
    + ((d.relocs.filter fun r => decide (r.name.ns = n)).map (·.excess)).sum

/-- The places of the allowance in use (R107): those secured by a draw and not yet turned into a block, and
those that stand for an ALLOCATED block with its allowance flag set. -/
def Device.placesInUse (d : Device) : Nat :=
  (d.contexts.map fun c => (c.copying.map (·.secured)).getD 0).sum + (d.relocs.map (·.secured)).sum
    + d.pool.table.countP fun l => decide (l.entry.state = .allocated) && l.entry.flag

/-- Pins blocks for a reading request (R52, R98). -/
def Device.pin (d : Device) (as : List BlockAddr) : Device :=
  as.foldl (fun d a => d.modBlock a fun e => { e with pins := e.pins + 1 }) d

/-- The demand erases are examined in the step under way (R104). -/
def Device.toExamine (d : Device) : Device := { d with pool := { d.pool with examine := true } }

/-- A block has become FREE or BAD: the wait list is re-examined (R103, log 59). -/
def Device.toRecheck (d : Device) : Device := { d with pool := { d.pool with recheck := true } }

/-- Releases the pins of a reading request (R53, R98). The demand erases are examined when a STALE block has none left
(R104). -/
def Device.unpin (d : Device) (as : List BlockAddr) : Device :=
  let d := as.foldl (fun d a => d.modBlock a fun e => { e with pins := e.pins - 1 }) d
  if as.any fun a => decide (d.blockState a = some .stale) && decide (d.pinsOf a = 0) then d.toExamine else d

/-- Blocks join the scrub queue (R105): those that join it in one step stand at its end in ascending (bank, block)
order, whatever the order in which the step's effects made them STALE (log 39). -/
def Pool.joinScrub (p : Pool) (going : List BlockAddr) : Pool :=
  let recent := p.joined.filter p.scrub.contains
  { p with
    scrub := p.scrub.filter (fun a => !recent.contains a) ++ sortBlocks (recent ++ going)
    joined := recent ++ going }

/-- Blocks are reported to the Block Pool Manager: those that are ALLOCATED become STALE in one step and join
the scrub queue (R8, R41, R105). Owner and allowance flag stay (R97). -/
def Device.toStale (d : Device) (as : List BlockAddr) : Device :=
  let going := sortBlocks (as.filter fun a => decide (d.blockState a = some .allocated))
  let d := going.foldl (fun d a => d.modBlock a fun e => { e with state := .stale }) d
  { d with pool := d.pool.joinScrub going }

/-! ### Bank Engines -/

/-- The place in the queue of the job the engine takes next: among the eligible ones, the oldest of the
highest class present (R123). `older` are the jobs before it in the queue. -/
def nextIndex (queue : List Job) (cls : JobClass) : Option Nat :=
  (List.range queue.length).find? fun i =>
    match queue[i]? with
    | none => false
    | some j => decide (j.cls = cls) && !((queue.take i).any fun o => decide (o.block = j.block))

/-- An engine with no job in progress takes its next job, and the oldest job of the waiting list enters the
queue (R123). -/
def Engine.takeNext (e : Engine) : Engine :=
  match e.current with
  | some _ => e
  | none =>
    match (nextIndex e.queue .read).orElse fun _ => (nextIndex e.queue .program).orElse fun _ => nextIndex e.queue .erase with
    | none => e
    | some i =>
      { queue := e.queue.eraseIdx i ++ e.waiting.take 1, waiting := e.waiting.drop 1, current := e.queue[i]? }

/-- Hands a job over to an engine (R120): it joins the queue when the queue holds fewer than 16 jobs and the
waiting list is empty, and otherwise the waiting list. An engine with no job in progress takes it at
once. -/
def Engine.handOver (e : Engine) (j : Job) : Engine :=
  Engine.takeNext
    (if e.queue.length < Config.queueDepth ∧ e.waiting = [] then { e with queue := e.queue ++ [j] }
     else { e with waiting := e.waiting ++ [j] })

/-- Hands a job over to the engine of a bank. -/
def Device.queueJob (d : Device) (b : Bank) (j : Job) : Device :=
  { d with engines := d.engines.set b (d.engines[b].handOver j) }

/-- The job in progress of a bank is over, and the engine takes its next one (R123). -/
def Device.advance (d : Device) (b : Bank) : Device :=
  { d with engines := d.engines.set b ({ d.engines[b] with current := none } : Engine).takeNext }

/-- A PAGE READ job, of the READ class (R122). -/
def readJob (block : BlockNo) (page : Nat) (q : Queuer) : Job :=
  { block := block, op := .pageRead page, cls := .read, by_ := q }

/-- A SEGMENT PROGRAM job, of the PROGRAM class (R122). -/
def segmentJob (block : BlockNo) (page seg : Nat) (data : List Byte) (q : Queuer) : Job :=
  { block := block, op := .segmentProgram page seg data, cls := .program, by_ := q }

/-- A PAGE PROGRAM job, of the PROGRAM class (R122). -/
def pageJob (block : BlockNo) (page : Nat) (data : List Byte) (q : Queuer) : Job :=
  { block := block, op := .pageProgram page data, cls := .program, by_ := q }

/-- Queues a page read of a block. -/
def Device.queueRead (d : Device) (a : BlockAddr) (page : Nat) (q : Queuer) : Device :=
  d.queueJob a.bank (readJob a.block page q)

/-- Queues the commit record, segments 0 and 1 of page 15 (R36). -/
def Device.queueCommitRecord (d : Device) (a : BlockAddr) (record : List Byte) (q : Queuer) : Device :=
  d.queueJob a.bank (segmentJob a.block 15 0 record q)

/-- Queues a mark into slot `k` of page 14 (R66, R76). -/
def Device.queueMark (d : Device) (a : BlockAddr) (kind : MarkKind) (k generation : Nat) (q : Queuer) : Device :=
  d.queueJob a.bank (segmentJob a.block 14 (4 * (k - 1)) (markRecord kind k generation) q)

/-- Job `k` of the run of 14 that writes one copy of a chunk (R32): the block header into segments 1 to 4 of
page 0, then page `k` with its share of the chunk's bytes and zeros after them. -/
def copyJob (block : BlockNo) (h : Header) (data : List Byte) (k : Nat) (q : Queuer) : Job :=
  if k = 0 then segmentJob block 0 1 (headerRecord h) q
  else pageJob block k (padded 256 (sliceBytes data (256 * (k - 1)) 256)) q

/-! ### Blocks that go BAD -/

/-- Whether a block is a chunk 0 block of its owner's committed version (R97). -/
def Device.isCommittedZero (d : Device) (a : BlockAddr) (o : Owner) : Bool :=
  decide (o.chunk = 0) && (d.entry? o.name).any fun e =>
    decide (e.version.generation = o.generation) &&
      (decide ((e.version.chunkAt 0).map (·.addr) = some a) || decide (e.version.mirrorAt 0 = some a))

/-- Queues a grown-bad entry into the next unused slot of the bank's list, which counts as used from this step; a bank
whose list is full gets no entry (R110). The next unused slot is the one whose number is the number of slots used (log
45). -/
def Device.queueGrownBad (d : Device) (a : BlockAddr) (cause : BadCause) (page seg : Nat) : Device :=
  let k := d.pool.slots[a.bank]
  if k < Config.grownBadSlots then
    let d := { d with pool := { d.pool with slots := d.pool.slots.set a.bank (k + 1) } }
    d.queueJob a.bank (segmentJob 0 (1 + k / 16) (k % 16)
      (grownBadRecord a.block.val cause (if cause = .program then page else 0) (if cause = .program then seg else 0))
      .grownBad)
  else d

/-- A general block becomes BAD in service (R109): its owner is cleared unless it is a chunk 0 block of a committed
version, its allowance flag is cleared and its estimated flag stays (R97), it leaves the scrub queue, the wait list is
re-examined (R103), and a grown-bad entry is queued. A block that is already BAD, and a DESCRIPTOR block, stay as they
are. The WORN test stands at the end of the step. -/
def Device.makeBad (d : Device) (a : BlockAddr) (cause : BadCause) (page seg : Nat) : Device :=
  match d.pool.block? a with
  | none => d
  | some e =>
    if e.state = .bad ∨ e.state = .descriptor then d
    else
      let keep := e.owner.any fun o => d.isCommittedZero a o
      let d := d.modBlock a fun e =>
        { e with state := .bad, owner := if keep then e.owner else none, flag := false, erase := none }
      let d := { d with pool := { d.pool with scrub := d.pool.scrub.filter fun x => decide (x ≠ a) } }
      d.toRecheck.queueGrownBad a cause page seg

/-- The page and first segment a program job targets, for its grown-bad entry (R110). -/
def Job.target (j : Job) : Nat × Nat :=
  match j.op with
  | .pageProgram page _ => (page, 0)
  | .segmentProgram page seg _ => (page, seg)
  | .pageRead page => (page, 0)
  | .blockErase => (0, 0)
  | .eraseVerify page => (page, 0)

/-- The block of a program job that completed FAIL becomes BAD with cause PROGRAM (R109, R124). -/
def Device.programFailed (d : Device) (b : Bank) (j : Job) : Device :=
  d.makeBad { bank := b, block := j.block } .program j.target.1 j.target.2

/-! ### A new committed version -/

/-- An entry takes a new committed version (R8): marks used 0, an empty damaged set, and RESERVED becomes
LIVE; the state and hold a mark relocation carries are set by its own step. The previous version's
blocks that are not BAD or MISSING become STALE; the new version's blocks lose their allowance flag
and count towards the namespace (R16, R108); the record leaves the refresh set (R111). A block drawn against the
allowance counts from here without a quota test (R39), also where R17's bound is then passed: this is the model's choice
(log 57). -/
def Device.takeVersion (d : Device) (r : RecordName) (v : Version) : Device :=
  match d.entry? r with
  | none => d
  | some old =>
    let d := d.modEntry r fun e =>
      { e with version := v, marks := 0, damaged := [], state := if e.state = .reserved then .live else e.state }
    let d := d.toStale old.version.blocks
    let d := v.blocks.foldl (fun d a => d.modBlock a fun e => { e with flag := false }) d
    d.leaveRefresh r

end Sys2Proof.Machine
end

