-- ==== Sys2Proof/Machine/Operands.lean ====
section
/-!
DEFINITION. Every operand form of the block: the request kinds with their codes and parameter lengths,
the parameters a SUBMIT frame carries (R172, R181), the result codes, and how a reply lays its fields
(R181).
-/

namespace Sys2Proof

/-- The code of a port. -/
def Port.code : Port → Nat
  | .primary => 0
  | .service => 1

end Sys2Proof

namespace Sys2Proof.Machine

/-- The code of a request kind (R181). -/
def RequestKind.code : RequestKind → Nat
  | .find => 0x01
  | .list => 0x02
  | .read => 0x03
  | .check => 0x04
  | .openUpdate => 0x05
  | .putChunk => 0x06
  | .commit => 0x07
  | .abandon => 0x08
  | .retire => 0x09
  | .restore => 0x0A
  | .hold => 0x0B
  | .release => 0x0C
  | .freeze => 0x0D
  | .lockNamespace => 0x0E
  | .configure => 0x0F
  | .maintain => 0x10
  | .health => 0x11
  | .identify => 0x12
  | .defineNamespace => 0x13
  | .commitLayout => 0x14
  | .reset => 0x15
  | .purge => 0x16

/-- The request kind of a code (R181). -/
def RequestKind.ofCode : Nat → Option RequestKind
  | 0x01 => some .find
  | 0x02 => some .list
  | 0x03 => some .read
  | 0x04 => some .check
  | 0x05 => some .openUpdate
  | 0x06 => some .putChunk
  | 0x07 => some .commit
  | 0x08 => some .abandon
  | 0x09 => some .retire
  | 0x0A => some .restore
  | 0x0B => some .hold
  | 0x0C => some .release
  | 0x0D => some .freeze
  | 0x0E => some .lockNamespace
  | 0x0F => some .configure
  | 0x10 => some .maintain
  | 0x11 => some .health
  | 0x12 => some .identify
  | 0x13 => some .defineNamespace
  | 0x14 => some .commitLayout
  | 0x15 => some .reset
  | 0x16 => some .purge
  | _ => none

/-- Whether a parameter length is the one a kind requires (R172, R181). PUT CHUNK carries 3 bytes and 1 to
3,328 of data. -/
def RequestKind.lengthOk (k : RequestKind) (l : Nat) : Bool :=
  match k with
  | .find => decide (l = 5)
  | .list => decide (l = 6)
  | .read => decide (l = 9)
  | .check => decide (l = 5)
  | .openUpdate => decide (l = 8)
  | .putChunk => decide (4 ≤ l ∧ l ≤ 3 + Config.chunkBytes)
  | .commit => decide (l = 2)
  | .abandon => decide (l = 2)
  | .retire => decide (l = 5)
  | .restore => decide (l = 5)
  | .hold => decide (l = 5)
  | .release => decide (l = 5)
  | .freeze => decide (l = 5)
  | .lockNamespace => decide (l = 1)
  | .configure => decide (l = 8)
  | .maintain => decide (l = 0)
  | .health => decide (l = 0)
  | .identify => decide (l = 0)
  | .defineNamespace => decide (l = 10)
  | .commitLayout => decide (l = 0)
  | .reset => decide (l = 0)
  | .purge => decide (l = 0)

/-- The kind of a request. -/
def Req.kind : Req → RequestKind
  | .find .. => .find
  | .list .. => .list
  | .read .. => .read
  | .check .. => .check
  | .openUpdate .. => .openUpdate
  | .putChunk .. => .putChunk
  | .commit .. => .commit
  | .abandon .. => .abandon
  | .retire .. => .retire
  | .restore .. => .restore
  | .hold .. => .hold
  | .release .. => .release
  | .freeze .. => .freeze
  | .lockNamespace .. => .lockNamespace
  | .configure .. => .configure
  | .maintain => .maintain
  | .health => .health
  | .identify => .identify
  | .defineNamespace .. => .defineNamespace
  | .commitLayout => .commitLayout
  | .reset => .reset
  | .purge => .purge

/-- A one-byte parameter. -/
def param8 (p : List Byte) (o : Nat) : Byte := p.getD o 0

/-- A two-byte parameter, least significant byte first (section 11.7). -/
def param16 (p : List Byte) (o : Nat) : BitVec 16 := BitVec.ofNat 16 (fieldAt p o 2)

/-- A key parameter, four bytes (R181). -/
def paramKey (p : List Byte) (o : Nat) : Key := BitVec.ofNat 32 (fieldAt p o 4)

/-- The parameters of a request kind, laid in the order its rule names them (R181). -/
def Req.parse (k : RequestKind) (p : List Byte) : Req :=
  match k with
  | .find => .find (param8 p 0) (paramKey p 1)
  | .list => .list (param8 p 0) (paramKey p 1) (param8 p 5)
  | .read => .read (param8 p 0) (paramKey p 1) (param16 p 5) (param16 p 7)
  | .check => .check (param8 p 0) (paramKey p 1)
  | .openUpdate => .openUpdate (param8 p 0) (paramKey p 1) (param16 p 5) (param8 p 7)
  | .putChunk => .putChunk (param16 p 0) (param8 p 2) (p.drop 3)
  | .commit => .commit (param16 p 0)
  | .abandon => .abandon (param16 p 0)
  | .retire => .retire (param8 p 0) (paramKey p 1)
  | .restore => .restore (param8 p 0) (paramKey p 1)
  | .hold => .hold (param8 p 0) (paramKey p 1)
  | .release => .release (param8 p 0) (paramKey p 1)
  | .freeze => .freeze (param8 p 0) (paramKey p 1)
  | .lockNamespace => .lockNamespace (param8 p 0)
  | .configure => .configure (param16 p 0) (param8 p 2) (param8 p 3) (param16 p 4) (param8 p 6) (param8 p 7)
  | .maintain => .maintain
  | .health => .health
  | .identify => .identify
  | .defineNamespace =>
    .defineNamespace (param8 p 0) (param8 p 1) (param16 p 2) (param16 p 4) (param8 p 6) (param8 p 7) (param8 p 8)
      (param8 p 9)
  | .commitLayout => .commitLayout
  | .reset => .reset
  | .purge => .purge

/-- The request a SUBMIT frame carries, when the frame passes the form tests of R172: its length is the one
its parameter length gives, its CRC-16 matches, its kind is a request kind, and its parameter length is
one the kind requires. The bytes are the whole frame, from the frame code on (section 11.7). -/
def parseSubmit (frame : List Byte) : Option Request :=
  let l := fieldAt frame 3 2
  if frame.length = 7 + l ∧ crc16Valid frame (7 + l) = true then
    match RequestKind.ofCode (fieldAt frame 2 1) with
    | none => none
    | some k =>
      if k.lengthOk l then some { tag := param8 frame 1, body := Req.parse k (sliceBytes frame 5 l) } else none
  else none

/-- The SUBMIT frame that carries a kind and its parameter bytes under a tag (section 11.7). -/
def submitFrame (tag : Byte) (k : RequestKind) (params : List Byte) : List Byte :=
  withCrc16 ([submitCode, tag] ++ leBytes 1 k.code ++ leBytes 2 params.length ++ params)

/-- The code of a result (section 11.7). -/
def Result.code : Result → Nat
  | .ok => 0x00
  | .notFound => 0x01
  | .exists => 0x02
  | .recordBusy => 0x03
  | .recordRetired => 0x04
  | .holdConflict => 0x05
  | .holdFrozen => 0x06
  | .denied => 0x07
  | .nsInvalid => 0x08
  | .nsLocked => 0x09
  | .nsLimit => 0x0A
  | .directoryFull => 0x0B
  | .quotaExceeded => 0x0C
  | .noContext => 0x0D
  | .handleStale => 0x0E
  | .badParameter => 0x0F
  | .chunkPresent => 0x10
  | .chunkLength => 0x11
  | .incomplete => 0x12
  | .noSpace => 0x13
  | .mediaFailed => 0x14
  | .commitFailed => 0x15
  | .aborted => 0x16
  | .dataLost => 0x17
  | .checkMismatch => 0x18
  | .nothingToPurge => 0x19
  | .purgeBusy => 0x1A
  | .maintBusy => 0x1B
  | .generationLimit => 0x1C
  | .worn => 0x1D
  | .notReady => 0x1E
  | .layoutPending => 0x1F
  | .layoutNotEmpty => 0x20
  | .layoutInvalid => 0x21
  | .layoutExhausted => 0x22

/-! ### Reply fields (R181): enumerated values coded in the order their rule lists them, from 0 -/

/-- The code of a record state (R2, R20). -/
def RecordState.code : RecordState → Nat
  | .reserved => 0
  | .live => 1
  | .retired => 2
  | .purging => 3

/-- The code of a hold level (R2, R20). -/
def Hold.code : Hold → Nat
  | .none => 0
  | .held _ => 1
  | .frozen => 2

/-- The code of the holder; reported as PRIMARY when there is none (R20). -/
def Hold.holderCode : Hold → Nat
  | .held p => p.code
  | .none => 0
  | .frozen => 0

/-- The code of a resolved mode (R181: 1 CREATE, 2 REPLACE). -/
def Mode.code : Mode → Nat
  | .create => 1
  | .replace => 2

/-- The code of a maintenance mode (section 11.7). -/
def MaintMode.code : MaintMode → Nat
  | .auto => 0
  | .manual => 1

/-- The code of a phase (section 11.7). -/
def Phase.code : Phase → Nat
  | .starting => 0
  | .early => 1
  | .resuming => 2
  | .ready => 3
  | .worn => 4
  | .halted => 5

/-- The code of a last-submit result (section 11.7). -/
def SubmitResult.code : SubmitResult → Nat
  | .none => 0
  | .accepted => 1
  | .queueFull => 2
  | .tagInUse => 3
  | .frameError => 4

/-- A signed number in two's complement in two bytes (R181). -/
def leSigned16 (v : Int) : List Byte := leBytes 2 (BitVec.ofInt 16 v).toNat

/-- The reply of FIND for an entry (R20). -/
def findReply (e : Entry) (mirrored : Bool) : List Byte :=
  leBytes 1 e.state.code ++ leBytes 4 e.version.generation ++ leBytes 2 e.version.bodyLength
    ++ leBytes 1 e.version.chunks.length ++ leBytes 1 e.hold.code ++ leBytes 1 e.hold.holderCode
    ++ leBytes 1 (flagCode mirrored) ++ leBytes 1 e.damaged.length

/-- An item of a LIST answer (R21): key, state and generation. -/
def listItem (e : Entry) : List Byte :=
  leBytes 4 e.name.key.toNat ++ leBytes 1 e.state.code ++ leBytes 4 e.version.generation

/-- The reply of LIST (R21): the items, then the MORE flag and the next key. -/
def listReply (items : List Entry) (next : Option Entry) : List Byte :=
  items.flatMap listItem ++ leBytes 1 (flagCode next.isSome) ++ leBytes 4 ((next.map (·.name.key.toNat)).getD 0)

/-- The reply of mark work that succeeded (R65), and of a FREEZE of a FROZEN record (R88). -/
def markReply (e : Entry) : List Byte :=
  leBytes 1 e.state.code ++ leBytes 1 e.hold.code ++ leBytes 4 e.version.generation ++ leBytes 1 e.marks

/-- The reply of a RESTORE of a LIVE record (R73): state, generation and marks used (log 9). -/
def restoreLiveReply (e : Entry) : List Byte :=
  leBytes 1 e.state.code ++ leBytes 4 e.version.generation ++ leBytes 1 e.marks

/-- The reply of HOLD and RELEASE (R85, R86): the hold and holder as they stand after the request. -/
def holdReply (h : Hold) : List Byte := leBytes 1 h.code ++ leBytes 1 h.holderCode

/-- The reply of OPEN UPDATE (R29). -/
def openReply (handle : BitVec 16) (c : Ctx) : List Byte :=
  leBytes 2 handle.toNat ++ leBytes 4 c.newGen ++ leBytes 1 c.chunkCount ++ leBytes 1 c.mode.code

/-- The reply of DEFINE NAMESPACE (R165): the descriptor as it now stands, in the order of the request. -/
def descReply (x : NsDesc) : List Byte :=
  leBytes 1 (flagCode x.enabled) ++ leBytes 2 x.recordLimit ++ leBytes 2 x.quota ++ leBytes 1 (flagCode x.mirrored)
    ++ leBytes 1 (flagCode x.early) ++ leBytes 1 x.primaryRight.code ++ leBytes 1 x.serviceRight.code

end Sys2Proof.Machine
end

