-- ==== Sys2Proof/Machine/Flags.lean ====
section
/-!
DEFINITION. Every flag and level the part derives: the alert lines (R178), the STATUS response (R177),
the WORN condition (R112), the spread of erase counts and the urgency level (R114).
-/

namespace Sys2Proof.Machine

/-- A port's alert line is asserted while its alert enable is on and it has a posted completion or a notice
(R178). -/
def PortState.alert (p : PortState) : Bool :=
  p.alertEnable && (!p.completions.isEmpty || decide (p.notices ≠ .empty))

/-- The notice bits of a STATUS response (section 11.7). -/
def Notices.code (n : Notices) : Nat :=
  flagCode n.updateExpired + 2 * flagCode n.urgencyRaised + 4 * flagCode n.wornEntered + 8 * flagCode n.rebuildDone

/-- The STATUS response of a port (R177, section 11.7). -/
def Device.statusResponse (d : Device) (p : Port) : List Byte :=
  let s := d.port p
  withCrc16 (leBytes 1 s.notices.code ++ leBytes 1 s.requests.length ++ leBytes 1 s.completions.length
    ++ leBytes 1 (d.reserved p) ++ leBytes 1 s.lastSubmit.code ++ leBytes 1 d.phase.code ++ leBytes 1 d.pool.level.val
    ++ leBytes 1 (flagCode d.pool.worn + 2 * flagCode d.layout.pending))

/-- The COLLECT response for an entry, or the EMPTY response (section 11.7). -/
def collectResponse : Option Completion → List Byte
  | none => withCrc16 [0x00]
  | some c =>
    withCrc16 ([0x01, c.tag] ++ leBytes 1 c.kind.code ++ leBytes 1 c.result.code ++ leBytes 2 c.reply.length ++ c.reply)

/-- The WORN condition (R112): good_total below the sum of the quotas plus 32, or a full grown-bad list. -/
def Device.wornCondition (d : Device) : Bool :=
  decide (d.goodTotal < d.quotaSum + Config.reserveBlocks)
    || d.pool.slots.toList.any fun k => decide (Config.grownBadSlots ≤ k)

/-- The erase counts of the good general blocks, estimated ones included (R139, R168). -/
def Device.goodCounts (d : Device) : List Nat :=
  (d.pool.table.filter fun l => decide (l.entry.state ≠ .bad)).map (·.entry.count)

/-- The highest erase count among good general blocks (R139, R168). -/
def Device.highestCount (d : Device) : Nat := d.goodCounts.foldl max 0

/-- The lowest erase count among good general blocks (R139, R168). -/
def Device.lowestCount (d : Device) : Nat :=
  match d.goodCounts with
  | [] => 0
  | c :: rest => rest.foldl min c

/-- A wear-levelling move is due when the spread of erase counts exceeds the setting (R114, R139). -/
def Device.moveDue (d : Device) : Bool := decide (d.settings.wearSpread < d.highestCount - d.lowestCount)

/-- A record of the refresh set that counts as waiting work: LIVE and below the generation limit (R114). -/
def Device.refreshWaits (d : Device) (r : RecordName) : Bool :=
  (d.entry? r).any fun e => decide (e.state = .live) && decide (e.version.generation < Config.maxGeneration)

/-- Whether work waits (R114). In phase WORN only the scrub queue counts. -/
def Device.workWaits (d : Device) : Bool :=
  !d.pool.scrub.isEmpty || (decide (d.phase ≠ .worn) && (d.pool.refresh.any d.refreshWaits || d.moveDue))

/-- The urgency level as its inputs give it (R114). -/
def Device.urgency (d : Device) : Fin 4 :=
  if d.workWaits then
    if 64 ≤ d.countState .free then 1 else if 16 ≤ d.countState .free then 2 else 3
  else 0

/-- The margin that HEALTH reports (R112, R168), a signed number. -/
def Device.margin (d : Device) : Int := (d.goodTotal : Int) - d.quotaSum - Config.reserveBlocks

end Sys2Proof.Machine
end

