-- ==== Sys2Proof/Machine/Pool.lean ====
section
/-!
DEFINITION. The Block Pool Manager's shared operations: how a grant chooses its blocks (R100 to R102), the
wait list and the demand erases (R103, R104), the draws on the allowance (R107), erases of scrub-queue
blocks and what follows them (R105, R106), and the refresh set (R56, R111).
-/

namespace Sys2Proof.Machine

/-! ### Choosing blocks -/

/-- Blocks 1 to 63 of banks 0 and 1, the early range of a layout with an early namespace (R102). -/
def inEarlyRange (a : BlockAddr) : Bool := decide (a.bank.val ≤ 1) && decide (a.block.val ≤ 63)

/-- Whether a block satisfies the placement of a block request (R102): the early namespace takes PRIMARY
copies in bank 0 and MIRROR copies in bank 1, within the range, and every other namespace blocks
outside it. -/
def Device.placed (d : Device) (o : Owner) (a : BlockAddr) : Bool :=
  match d.earlyNs with
  | none => true
  | some n =>
    if o.name.ns = n then
      inEarlyRange a && decide (a.bank = match o.copy with | .primary => 0 | .mirror => 1)
    else !inEarlyRange a

/-- The order of a free list (R100): by erase count, then by block number. -/
def BlockLine.before (x y : BlockLine) : Bool :=
  decide (x.entry.count < y.entry.count) || (decide (x.entry.count = y.entry.count) && decide (x.addr.num < y.addr.num))

/-- A bank's free list (R100): its FREE blocks in order. -/
def insertFree (l : BlockLine) : List BlockLine → List BlockLine
  | [] => [l]
  | x :: rest => if l.before x then l :: x :: rest else x :: insertFree l rest

/-- The free list of a bank (R100), the head first. -/
def Device.freeList (d : Device) (b : Bank) : List BlockAddr :=
  ((d.pool.table.filter fun l => decide (l.addr.bank = b) && decide (l.entry.state = .free)).foldr insertFree []).map
    (·.addr)

/-- The lines of a bank that a block request may take: in a state that counts as available, not taken by an
earlier request of the same grant, and of the right placement (R101, R102). -/
def Device.offered (d : Device) (avail : BlockState → Bool) (taken : List BlockAddr) (o : Owner) (b : Bank) :
    List BlockLine :=
  d.pool.table.filter fun l =>
    decide (l.addr.bank = b) && avail l.entry.state && !(taken.contains l.addr) && d.placed o l.addr

/-- The first line of a list in free-list order, or the last one (R100). -/
def pickLine (tail : Bool) : List BlockLine → Option BlockLine
  | [] => none
  | x :: rest => some (rest.foldl (fun best l => if (if tail then best.before l else l.before best) then l else best) x)

/-- The bank with the most blocks on offer, the lowest-numbered of equals (R101 step 3). -/
def mostOffered (count : Bank → Nat) : List Bank → Option Bank
  | [] => none
  | b :: rest => some (rest.foldl (fun best c => if count best < count c then c else best) b)

/-- The bank a request must avoid, given the bank chosen for the request before it (R101). -/
def Avoid.resolved (a : Avoid) (previous : Option Bank) : Option Bank :=
  match a with
  | .nothing => none
  | .bank b => some b
  | .previous => previous

/-- The block that one block request is given (R101): the candidate banks, those with a queue of fewer than
16 jobs preferred, the one with the most blocks on offer, and its head or tail. -/
def Device.chooseBlock (d : Device) (avail : BlockState → Bool) (taken : List BlockAddr) (r : BlockRequest)
    (previous : Option Bank) : Option BlockAddr :=
  let offer := d.offered avail taken r.owner
  let candidates := ([0, 1, 2, 3] : List Bank).filter fun b =>
    decide (some b ≠ r.avoid.resolved previous) && !(offer b).isEmpty
  let preferred := candidates.filter fun b => decide (d.engines[b].queue.length < Config.queueDepth)
  let remain := if preferred.isEmpty then candidates else preferred
  match mostOffered (fun b => (offer b).length) remain with
  | none => none
  | some b => (pickLine r.tail (offer b)).map (·.addr)

/-- The blocks of a grant, resolved in list order, each against what the earlier requests left (R101);
`none` when some request finds no bank. -/
def Device.resolveGrant (d : Device) (avail : BlockState → Bool) :
    List BlockRequest → List BlockAddr → Option Bank → Option (List BlockAddr)
  | [], _, _ => some []
  | r :: rest, taken, previous =>
    match d.chooseBlock avail taken r previous with
    | none => none
    | some a =>
      match d.resolveGrant avail rest (a :: taken) (some a.bank) with
      | none => none
      | some as => some (a :: as)

/-- Only FREE blocks are granted (R101). -/
def onlyFree (s : BlockState) : Bool := decide (s = .free)

/-- The blocks a waiting grant is tested against: FREE, STALE and ERASING, pinned or not (R103). -/
def freeStaleErasing (s : BlockState) : Bool := decide (s = .free) || decide (s = .stale) || decide (s = .erasing)

/-- The blocks the grant gets now, if it can be made (R101). -/
def Device.grantNow (d : Device) (g : Grant) : Option (List BlockAddr) := d.resolveGrant onlyFree g.requests [] none

/-- Whether a grant that cannot be made now may wait (R103, log 21). -/
def Device.grantMayWait (d : Device) (g : Grant) : Bool := (d.resolveGrant freeStaleErasing g.requests [] none).isSome

/-- Makes a grant (R101): each block leaves its free list and becomes ALLOCATED with its owner and, where
asked, its allowance flag. -/
def Device.allocate (d : Device) (rs : List BlockRequest) (as : List BlockAddr) : Device :=
  (rs.zip as).foldl (fun d x =>
    d.modBlock x.2 fun e => { e with state := .allocated, owner := some x.1.owner, flag := x.1.allowance }) d

/-- A grant is asked for: it joins the end of the wait list (R103). One that finds the list empty is made, refused or
kept waiting at the end of the step. One that does not waits until a re-examination of the list comes to it (log 59). -/
def Device.askGrant (d : Device) (asker : Asker) (rs : List BlockRequest) : Device :=
  { d with pool := { d.pool with
      waits := d.pool.waits ++ [{ asker := asker, requests := rs }]
      recheck := d.pool.recheck || d.pool.waits.isEmpty } }

/-- The grants of an asker are withdrawn from the wait list, which is re-examined when there were any (R103). -/
def Device.withdrawGrants (d : Device) (p : Asker → Bool) : Device :=
  { d with pool := { d.pool with
      waits := d.pool.waits.filter fun g => !p g.asker
      recheck := d.pool.recheck || d.pool.waits.any fun g => p g.asker } }

/-- A draw joins the end of the list of draws; the draws that fit are granted at the end of the step (R107). -/
def Device.askDraw (d : Device) (who : Drawer) (places : Nat) : Device :=
  { d with pool := { d.pool with draws := d.pool.draws ++ [{ drawer := who, places := places }] } }

/-- The draws of a drawer are withdrawn (R107). -/
def Device.withdrawDraws (d : Device) (who : Drawer) : Device :=
  { d with pool := { d.pool with draws := d.pool.draws.filter fun x => decide (x.drawer ≠ who) } }

/-! ### Erases of scrub-queue blocks -/

/-- Whether the erase job of a scrub-queue block, of a run or a demand erase, is queued or in progress in a bank (R104).
The wear stamp that follows it is no erase job. -/
def Device.eraseJobOut (d : Device) (b : Bank) : Bool :=
  d.pool.table.any fun l =>
    decide (l.addr.bank = b) && decide (l.entry.state = .erasing)
      && l.entry.erase.any fun w => decide (w.eraser ≠ .purge) && !w.stamp

/-- Whether a bank has an erase of a scrub-queue block, by a run or a demand erase, that bars a run's next one there
(R133, R137). It counts until R106 has handled it to its end (log 18). -/
def Device.scrubBusy (d : Device) (b : Bank) : Bool :=
  d.pool.table.any fun l =>
    decide (l.addr.bank = b) && decide (l.entry.state = .erasing)
      && l.entry.erase.any fun w => decide (w.eraser ≠ .purge)

/-- The next scrub block of a bank (R105): the oldest of the queue in that bank whose pin count is 0. -/
def Device.nextScrub (d : Device) (b : Bank) : Option BlockAddr :=
  d.pool.scrub.find? fun a => decide (a.bank = b) && decide (d.pinsOf a = 0)

/-- The class of a scrub erase handed over now (R122). -/
def Device.scrubClass (d : Device) : JobClass := if d.pool.level = 3 then .program else .erase

/-- A block leaves the scrub queue, becomes ERASING, and its erase is queued (R104, R105, R137). -/
def Device.beginScrubErase (d : Device) (a : BlockAddr) (who : Eraser) : Device :=
  let d := { d with pool := { d.pool with scrub := d.pool.scrub.filter fun x => decide (x ≠ a) } }
  let d := d.modBlock a fun e => { e with state := .erasing, erase := some { eraser := who, stamp := false } }
  d.queueJob a.bank { block := a.block, op := .blockErase, cls := d.scrubClass, by_ := .scrubErase }

/-- The requests of a grant that no FREE block meets, each with the bank it must avoid; a request whose
predecessor is itself unmet avoids no bank yet (R104). -/
def Device.unmet (d : Device) : List BlockRequest → List BlockAddr → Option Bank → List (Owner × Option Bank)
  | [], _, _ => []
  | r :: rest, taken, previous =>
    match d.chooseBlock onlyFree taken r previous with
    | none => (r.owner, r.avoid.resolved previous) :: d.unmet rest taken none
    | some a => d.unmet rest (a :: taken) (some a.bank)

/-- The block of a bank that a demand erase takes for the head of the wait list, if any (R104): the oldest of
the scrub queue in that bank that meets an unmet request's placement and has no pins, when no erase job of
a scrub-queue block is queued or in progress there. -/
def Device.demandIn (d : Device) (head : Grant) (b : Bank) : Option BlockAddr :=
  if d.eraseJobOut b then none
  else
    let wants := (d.unmet head.requests [] none).filter fun w => decide (w.2 ≠ some b)
    d.pool.scrub.find? fun a =>
      decide (a.bank = b) && decide (d.pinsOf a = 0) && wants.any fun w => d.placed w.1 a

/-- What names a grant of the wait list while it waits: who asked, and for which blocks. The bank that a request must
avoid may change while it waits (log 11). -/
def Grant.named (g : Grant) : Asker × List Owner := (g.asker, g.requests.map (·.owner))

/-- Whether the Block Pool Manager makes its examination in the step under way (R104): the head of the wait list is
another than when the last step ended, an erase job has completed, or a STALE block has lost its last pin. -/
def Pool.examines (p : Pool) : Bool := p.examine || decide (p.waits.head?.map Grant.named ≠ p.head.map Grant.named)

/-- An erase job, of a scrub-queue block or of a purge, calls for an examination when it completes (R104). -/
def Device.eraseOver (d : Device) (j : Job) : Device := if j.op = .blockErase then d.toExamine else d

/-- The block of the next demand erase, banks in ascending order (R104). -/
def Device.nextDemand (d : Device) : Option BlockAddr :=
  match d.pool.waits with
  | [] => none
  | g :: _ => ([0, 1, 2, 3] : List Bank).findSome? fun b => d.demandIn g b

/-- An erase is handled from the rise of the erase count on (R106): a count that reaches 120,000 retires the
block with cause WEAR, and otherwise the wear stamp is queued (R124). -/
def Device.eraseCounted (d : Device) (a : BlockAddr) : Device :=
  match d.pool.block? a with
  | none => d
  | some e =>
    let d := d.modBlock a fun e => { e with count := e.count + 1 }
    if Config.wearLimit ≤ e.count + 1 then d.makeBad a .wear 0 0
    else
      let d := d.modBlock a fun e => { e with erase := e.erase.map fun w => { w with stamp := true } }
      d.queueJob a.bank (segmentJob a.block 0 0 (wearStamp (e.count + 1)) .wearStamp)

/-- A block whose wear stamp completed OK becomes FREE (R106): estimated flag, owner and allowance flag are cleared,
and the wait list is re-examined (R103). A block of the maintenance run raises its count of blocks erased (R137). -/
def Device.blockFreed (d : Device) (a : BlockAddr) : Device :=
  let own := (d.pool.block? a).any fun e => e.erase.any fun w => decide (w.eraser = .run)
  let d := (d.modBlock a fun e =>
    { e with state := .free, estimated := false, owner := none, flag := false, erase := none }).toRecheck
  if own then { d with maint := { d.maint with erased := countUp d.maint.erased } } else d

/-! ### The refresh set -/

/-- A page read reports a record for the refresh set (R56): it joins if the entry still has the reported
generation. -/
def Device.reportRefresh (d : Device) (r : RecordName) (generation : Nat) : Device :=
  if (d.entry? r).any fun e => decide (e.version.generation = generation) then d.joinRefresh r else d

/-- What a usable page read reports (R56, R57): a corrected-bit count at or above the threshold as it stands now, or
any mirror read that stood in for a PRIMARY page, also when its request has lost another page before (log 44). -/
def Device.reportPage (d : Device) (r : RecordName) (generation : Nat) (copy : Copy) (o : ReadOutcome) : Device :=
  match o with
  | .uncorrectable => d
  | .corrected n =>
    if d.settings.threshold ≤ n.val ∨ copy = .mirror then d.reportRefresh r generation else d

end Sys2Proof.Machine
end

