-- ==== Sys2Proof/Machine/Checks.lean ====
section
/-!
DEFINITION. The parts that many check orders share, and the lookups answered from the directory alone:
FIND and LIST (R19 to R22).
-/

namespace Sys2Proof.Machine

/-- The right of a port on the namespace a parameter names (R81); none for a namespace that is not enabled. -/
def Device.rightOn (d : Device) (p : Port) (ns : Byte) : Right :=
  match d.nsOf ns with
  | none => .none
  | some n => (d.desc n).right p

/-- The entry of (namespace, key) as a request names it. -/
def Device.entryOf (d : Device) (ns : Byte) (key : Key) : Option Entry :=
  match d.nsOf ns with
  | none => none
  | some n => d.entry? { ns := n, key := key }

/-- Whether the namespace a parameter names carries a startup lock (R91, R92). -/
def Device.lockedOn (d : Device) (ns : Byte) : Bool := (d.nsOf ns).any fun n => d.locks[n]

/-- The entry's state is the given one. -/
def inState (e : Option Entry) (s : RecordState) : Bool := e.any fun e => decide (e.state = s)

/-- The entry's busy field is not empty (R9). -/
def isBusy (e : Option Entry) : Bool := e.any fun e => decide (e.busy ≠ .none)

/-- The entry's hold is FROZEN (R84). -/
def isFrozen (e : Option Entry) : Bool := e.any fun e => decide (e.hold = .frozen)

/-- The entry's hold is HELD with a holder other than the requester (R84). -/
def heldByOther (e : Option Entry) (p : Port) : Bool := e.any fun e => decide (e.hold = .held p.other)

/-- Checks 1 to 4 of R19, which READ makes too (R49). -/
def Device.lookupChecks (d : Device) (p : Port) (ns : Byte) : List (Bool × Result) :=
  [ (decide (d.phase = .starting) || decide (d.phase = .halted), .notReady),
    ((d.nsOf ns).isNone, .nsInvalid),
    ((decide (d.phase = .early) || decide (d.phase = .resuming)) && decide (d.nsOf ns ≠ d.earlyNs), .notReady),
    (decide (d.rightOn p ns = .none), .denied) ]

/-- Checks 1 to 6 of R71, which RESTORE (R73) and FREEZE (R88) make too. -/
def Device.markRequestChecks (d : Device) (p : Port) (ns : Byte) (key : Key) : List (Bool × Result) :=
  [ (d.phase.notReady, .notReady), (decide (d.phase = .worn), .worn),
    ((d.nsOf ns).isNone, .nsInvalid),
    (decide (d.rightOn p ns ≠ .full), .denied),
    (d.layout.pending, .layoutPending),
    (d.lockedOn ns, .nsLocked),
    ((d.entryOf ns key).isNone, .notFound) ]

/-- The largest LIST maximum count of a port (R19 check 5). -/
def listLimit : Port → Nat
  | .primary => 64
  | .service => 16

/-- The largest READ length of a port (R49 check 5). -/
def readLimit : Port → Nat
  | .primary => 2048
  | .service => 256

/-- FIND, from its take (R19, R20): it is answered from the entry as it stands. -/
def Device.workFind (d : Device) (p : Port) (id : Nat) (ns : Byte) (key : Key) : Device :=
  match firstFailure (d.lookupChecks p ns) with
  | some r => d.complete id r []
  | none =>
    match d.entryOf ns key with
    | none => d.complete id .notFound []
    | some e => d.complete id .ok (findReply e (d.desc e.name.ns).mirrored)

/-- The entries of a namespace at and after a start key, in key order (R11, R21). -/
def Device.walk (d : Device) (n : NsIndex) (start : Key) : List Entry :=
  d.dir.filter fun e => decide (e.name.ns = n) && decide (start.toNat ≤ e.name.key.toNat)

/-- LIST, from its take (R19, R21). -/
def Device.workList (d : Device) (p : Port) (id : Nat) (ns : Byte) (start : Key) (count : Byte) : Device :=
  match firstFailure (d.lookupChecks p ns ++
      [(decide (count.toNat = 0) || decide (listLimit p < count.toNat), .badParameter)]) with
  | some r => d.complete id r []
  | none =>
    match d.nsOf ns with
    | none => d.complete id .nsInvalid []
    | some n =>
      let found := d.walk n start
      d.complete id .ok (listReply (found.take count.toNat) (found.drop count.toNat).head?)

end Sys2Proof.Machine
end

