-- ==== Sys2Proof/Machine/Reading.lean ====
section
/-!
DEFINITION. The reading of records: the snapshot and pins of a READ or CHECK (R51, R52), its page reads with
the mirror fallback (R54 to R58), what it finds (R55), and its end with the damaged set (R53, R59).
-/

namespace Sys2Proof.Machine

/-- A page the request has kept. -/
def pageGot (got : List PageData) (chunk page : Nat) : Option (List Byte) :=
  (got.find? fun g => decide (g.chunk = chunk) && decide (g.page = page)).map (·.data)

/-- The blocks a snapshot names for one chunk, where not MISSING (R52). -/
def Version.blocksAt (v : Version) (i : Nat) : List BlockAddr := (v.chunkAt i).toList.map (·.addr) ++ (v.mirrorAt i).toList

/-- The chunks a READ's range touches, ascending (R54). -/
def ReadWork.chunksTouched (w : ReadWork) : List Nat :=
  let first := w.offset / Config.chunkBytes
  let last := (w.offset + w.length - 1) / Config.chunkBytes
  (List.range (last + 1 - first)).map (first + ·)

/-- The first byte of the range within chunk `i`, and the byte after the last (R54). -/
def ReadWork.span (w : ReadWork) (i : Nat) : Nat × Nat :=
  (max w.offset (Config.chunkBytes * i) - Config.chunkBytes * i,
   min (w.offset + w.length) (Config.chunkBytes * (i + 1)) - Config.chunkBytes * i)

/-- The pages of chunk `i` that hold bytes of the range, ascending (R54). -/
def ReadWork.pagesOf (w : ReadWork) (i : Nat) : List Nat :=
  let s := w.span i
  (List.range ((s.2 - 1) / 256 + 1 - s.1 / 256)).map (1 + s.1 / 256 + ·)

/-- The bytes of the range that lie in chunk `i`, from the pages kept (R54). -/
def ReadWork.bytesOf (w : ReadWork) (i : Nat) : List Byte :=
  let s := w.span i
  sliceBytes ((w.pagesOf i).flatMap fun p => (pageGot w.got i p).getD []) (s.1 - 256 * (s.1 / 256)) (s.2 - s.1)

/-- Whether every page the READ needs of the chunk at work has yielded usable data (R54). -/
def ReadWork.chunkDone (w : ReadWork) : Bool := (w.pagesOf w.chunk).all fun p => (pageGot w.got w.chunk p).isSome

/-- A DATA_LOST puts the chunk of the first lost page into the damaged set, and an end that read every page
takes chunks out of it, if the entry still has the snapshot's generation (R59). -/
def Device.modDamaged (d : Device) (r : RecordName) (generation : Nat) (f : List Nat → List Nat) : Device :=
  d.modEntry r fun e => if e.version.generation = generation then { e with damaged := f e.damaged } else e

/-- A READ goes to a chunk (R54): it queues the page reads of the chunk's PRIMARY block, or loses its first
page without a read when the chunk-list element is MISSING (R57). -/
def Device.readChunk (d : Device) (id : Nat) (w : ReadWork) : Device × ReadWork :=
  match w.version.chunkAt w.chunk with
  | none => (d, { w with lost := some { chunk := w.chunk, page := (w.pagesOf w.chunk).headD 1 } })
  | some ref =>
    let pages := w.pagesOf w.chunk
    (pages.foldl (fun d p => d.queueRead ref.addr p (.readPage id w.chunk p .primary)) d,
     { w with jobs := w.jobs + pages.length })

/-- A READ ends (R53, R58, R59). -/
def Device.endRead (d : Device) (id : Nat) (w : ReadWork) : Device :=
  match w.lost with
  | some l =>
    ((d.modDamaged w.name w.version.generation (insertNat l.chunk)).unpin w.pins).complete id .dataLost
      (leBytes 1 l.chunk ++ leBytes 1 l.page)
  | none =>
    ((d.modDamaged w.name w.version.generation fun s => s.filter fun i => !(w.chunksTouched.contains i)).unpin
      w.pins).complete id .ok (w.chunksTouched.flatMap w.bytesOf)

/-- What a READ does when a page of it has come in (R54, R58): it ends when a page is lost and no job of it is
left, goes to the next chunk when the chunk at work is done, and ends OK after the last. -/
def Device.readOn (d : Device) (id : Nat) (w : ReadWork) : Device :=
  if w.lost.isSome then
    if w.jobs = 0 then d.endRead id w else d.setWork id (.read w)
  else if w.chunkDone then
    if w.chunksTouched.contains (w.chunk + 1) then
      let (d, w) := d.readChunk id { w with chunk := w.chunk + 1 }
      if w.lost.isSome ∧ w.jobs = 0 then d.endRead id w else d.setWork id (.read w)
    else d.endRead id w
  else d.setWork id (.read w)

/-- A READ that passed its checks (R51, R52, R54): its snapshot, its pins, and the page reads of the first chunk its
range touches. -/
def Device.startRead (d : Device) (id : Nat) (e : Entry) (offset length : Nat) : Device :=
  let w : ReadWork :=
    { name := e.name, version := e.version, pins := [], offset := offset, length := length,
      chunk := offset / Config.chunkBytes, got := [], jobs := 0, lost := none }
  let w := { w with pins := w.chunksTouched.flatMap e.version.blocksAt }
  let (d, w) := (d.pin w.pins).readChunk id w
  if w.lost.isSome then d.endRead id w else d.setWork id (.read w)

/-- READ, from its take (R49, R51, R52, R54). -/
def Device.workRead (d : Device) (p : Port) (id : Nat) (ns : Byte) (key : Key) (offset length : BitVec 16) : Device :=
  let e? := d.entryOf ns key
  match firstFailure (d.lookupChecks p ns ++
      [ (decide (length.toNat = 0) || decide (readLimit p < length.toNat), .badParameter),
        (e?.isNone, .notFound),
        (inState e? .reserved, .recordBusy),
        (inState e? .retired || inState e? .purging, .recordRetired),
        (e?.any fun e => decide (e.version.bodyLength < offset.toNat + length.toNat), .badParameter) ]) with
  | some r => d.complete id r []
  | none =>
    match e? with
    | none => d.complete id .notFound []
    | some e => d.startRead id e offset.toNat length.toNat

/-- A page read of a READ has completed (R54, R56 to R58). -/
def Device.readPageDone (d : Device) (id chunk page : Nat) (copy : Copy) (o : ReadOutcome) (data : List Byte) : Device :=
  match d.work? id with
  | some (.read w) =>
    let d := d.reportPage w.name w.version.generation copy o
    let w := { w with jobs := w.jobs - 1 }
    if w.lost.isSome then d.readOn id w
    else
      match o, copy, w.version.mirrorAt chunk with
      | .corrected _, _, _ => d.readOn id { w with got := w.got ++ [{ chunk := chunk, page := page, data := data }] }
      | .uncorrectable, .primary, some m =>
        (d.queueRead m page (.readPage id chunk page .mirror)).setWork id (.read { w with jobs := w.jobs + 1 })
      | .uncorrectable, _, _ => d.readOn id { w with lost := some { chunk := chunk, page := page } }
  | _ => d

/-! ### CHECK -/

/-- The page reads a CHECK makes of one chunk (R55), until one is lost for want of a copy (R57). -/
def Device.checkChunk (id : Nat) (pages : List Nat) (x : Device × CheckWork) (i : Nat) : Device × CheckWork :=
  let (d, w) := x
  if w.lost.isSome then x
  else
    match w.version.chunkAt i with
    | none => (d, { w with lost := some { chunk := i, page := pages.headD 0 } })
    | some ref =>
      (pages.foldl (fun d p => d.queueRead ref.addr p (.checkPage id i p .primary)) d,
       { w with jobs := w.jobs + pages.length })

/-- The body bytes of chunk `i` from the pages a CHECK kept. -/
def CheckWork.chunkBytes (w : CheckWork) (i : Nat) : List Byte :=
  ((List.range 13).flatMap fun p => (pageGot w.got i (p + 1)).getD []).take (chunkLengthOf w.version.bodyLength i)

/-- The body CRC-32 of what a CHECK read (R55, R129). -/
def CheckWork.bodyCrc (w : CheckWork) : BitVec 32 :=
  crc32 ((List.range w.version.chunks.length).flatMap w.chunkBytes)

/-- Whether the commit record read agrees with the snapshot (R55). -/
def CheckWork.commitRecordOk (w : CheckWork) : Bool :=
  (readCommit ((pageGot w.got 0 15).getD [])).any fun c =>
    decide (c.generation = w.version.generation) && decide (c.count = w.version.chunks.length)
      && decide (c.bodyLength = w.version.bodyLength)

/-- Whether the header of chunk `i` agrees with the snapshot (R55). -/
def CheckWork.headerOk (w : CheckWork) (i : Nat) : Bool :=
  (readHeader (segments ((pageGot w.got i 0).getD []) 1 4)).any fun h =>
    decide (h.name = w.name) && decide (h.generation = w.version.generation)
      && decide (h.count = w.version.chunks.length) && decide (h.bodyLength = w.version.bodyLength)
      && decide (h.chunk = i) && (w.version.chunkAt i).any (fun r => decide (h.copy = r.copy))
      && decide (h.frozen = w.version.frozen) && decide (h.retired = w.version.retired)

/-- Whether the bytes past the body length in page `p` of chunk `i` are all zero (R55). -/
def CheckWork.fillOk (w : CheckWork) (i p : Nat) : Bool :=
  allZero (((pageGot w.got i p).getD []).drop (chunkLengthOf w.version.bodyLength i - 256 * (p - 1)))

/-- The kinds of the failed tests of a CHECK in page order (R55, log 36): COMMIT_RECORD 0, HEADER 1, FILL 2,
BODY_CRC 3. The CRC-32 compared with stands in bytes 12 to 15 of page 15, also when the record there is not valid
(log 47). -/
def CheckWork.failures (w : CheckWork) : List Nat :=
  (if w.commitRecordOk then [] else [0])
    ++ (List.range w.version.chunks.length).flatMap (fun i =>
        (if w.headerOk i then [] else [1])
          ++ (List.range 13).flatMap fun p => if w.fillOk i (p + 1) then [] else [2])
    ++ (if (w.bodyCrc).toNat = fieldAt ((pageGot w.got 0 15).getD []) 12 4 then [] else [3])

/-- A CHECK ends when no job of it is left (R53, R55, R58, R59). -/
def Device.checkOn (d : Device) (id : Nat) (w : CheckWork) : Device :=
  if w.jobs ≠ 0 then d.setWork id (.check w)
  else
    match w.lost with
    | some l =>
      ((d.modDamaged w.name w.version.generation (insertNat l.chunk)).unpin w.pins).complete id .dataLost
        (leBytes 1 l.chunk ++ leBytes 1 l.page ++ leBytes 1 w.pagesRead)
    | none =>
      let d := (d.modDamaged w.name w.version.generation fun _ => []).unpin w.pins
      match w.failures with
      | [] => d.complete id .ok []
      | k :: rest => d.complete id .checkMismatch (leBytes 1 k ++ leBytes 1 (rest.length + 1))

/-- A CHECK that passed its checks (R51, R52, R55): its snapshot, its pins, and its page reads, all handed over in this
step up to the first MISSING element (log 43). -/
def Device.startCheck (d : Device) (id : Nat) (e : Entry) : Device :=
  let w : CheckWork :=
    { name := e.name, version := e.version, pins := e.version.blocks, got := [], pagesRead := 0, jobs := 0,
      lost := none }
  let x := Device.checkChunk id [15] (d.pin w.pins, w) 0
  let (d, w) := (List.range e.version.chunks.length).foldl (Device.checkChunk id (List.range 14)) x
  d.checkOn id w

/-- CHECK, from its take (R50 to R52, R55). -/
def Device.workCheck (d : Device) (p : Port) (id : Nat) (ns : Byte) (key : Key) : Device :=
  let e? := d.entryOf ns key
  match firstFailure
      [ (d.phase.notReady, .notReady),
        ((d.nsOf ns).isNone, .nsInvalid),
        (decide (d.rightOn p ns = .none), .denied),
        (e?.isNone, .notFound),
        (inState e? .reserved, .recordBusy),
        (inState e? .retired || inState e? .purging, .recordRetired) ] with
  | some r => d.complete id r []
  | none =>
    match e? with
    | none => d.complete id .notFound []
    | some e => d.startCheck id e

/-- A page read of a CHECK has completed (R55 to R58). -/
def Device.checkPageDone (d : Device) (id chunk page : Nat) (copy : Copy) (o : ReadOutcome) (data : List Byte) :
    Device :=
  match d.work? id with
  | some (.check w) =>
    let d := d.reportPage w.name w.version.generation copy o
    let w := { w with jobs := w.jobs - 1 }
    if w.lost.isSome then d.checkOn id w
    else
      match o, copy, w.version.mirrorAt chunk with
      | .corrected _, _, _ =>
        d.checkOn id { w with
          got := w.got ++ [{ chunk := chunk, page := page, data := data }], pagesRead := w.pagesRead + 1 }
      | .uncorrectable, .primary, some m =>
        (d.queueRead m page (.checkPage id chunk page .mirror)).setWork id (.check { w with jobs := w.jobs + 1 })
      | .uncorrectable, _, _ => d.checkOn id { w with lost := some { chunk := chunk, page := page } }
  | _ => d

end Sys2Proof.Machine
end

