-- ==== Sys2Proof/Machine/Reloc.lean ====
section
/-!
DEFINITION. Relocations, which mark work and the Maintenance Unit share (R68, R69, R140 to R143): the draw
and the grant, the copying of chunk after chunk, the commit of the new version, and the end without
a commit point. Also the state a mark produces (R66, R72, R73, R89).
-/

namespace Sys2Proof.Machine

/-! ### The relocation in its place -/

/-- A relocation in progress. -/
def Device.reloc? (d : Device) : RelocId → Option Reloc
  | .maint => d.maint.reloc
  | .mark f => (d.work? f).bind Work.reloc?

/-- The device with a relocation in progress replaced. -/
def Device.setReloc (d : Device) (id : RelocId) (r : Reloc) : Device :=
  match id with
  | .maint => { d with maint := { d.maint with reloc := some r } }
  | .mark f =>
    match d.work? f with
    | some (.mark w) => d.setWork f (.mark { w with stage := .relocation r })
    | _ => d

/-- The blocks a relocation needs (R65, R140). -/
def Reloc.needed (r : Reloc) : Nat := r.source.chunks.length * r.copies

/-- Those of them that come from the allowance (R65, R140). -/
def Reloc.fromAllowance (r : Reloc) : Nat := min r.needed Config.allowancePlaces

/-- The place of a copy of a chunk in the grant order (R68, R140). -/
def Reloc.place (r : Reloc) (chunk : Nat) (copy : Copy) : Nat :=
  r.copies * chunk + match copy with | .primary => 0 | .mirror => 1

/-- The owner of a new block (R68, R140). -/
def Reloc.owns (r : Reloc) (chunk : Nat) (copy : Copy) : Owner :=
  { name := r.name, generation := r.newGen, chunk := chunk, copy := copy }

/-- The header of a new block, with the carried-state flags (R69, R141). -/
def Reloc.header (r : Reloc) (copy : Copy) : Header :=
  { name := r.name, chunk := r.chunk, count := r.source.chunks.length, copy := copy, generation := r.newGen,
    bodyLength := r.source.bodyLength, frozen := r.frozen, retired := r.retired }

/-- The run of one copy of the chunk at work. -/
def Reloc.run (r : Reloc) : Copy → Option CopyRun
  | .primary => some r.primary
  | .mirror => r.mirror

/-- The relocation with the run of one copy replaced. -/
def Reloc.setRun (r : Reloc) (copy : Copy) (x : CopyRun) : Reloc :=
  match copy with
  | .primary => { r with primary := x }
  | .mirror => { r with mirror := some x }

/-- Whether every block of a relocation comes from the tail of its free list (R139, R140). -/
def RelocKind.tail : RelocKind → Bool
  | .wear => true
  | .refresh => false
  | .mark _ => false

/-- The excess blocks of a relocation of an entry, beyond the 16 places of the allowance (R65, R140). -/
def excessOf (e : Entry) (copies : Nat) : Nat := e.version.chunks.length * copies - Config.allowancePlaces

/-- A relocation of an entry as it begins (R65, R140): it has secured nothing and reserves its excess. -/
def newReloc (e : Entry) (kind : RelocKind) (copies : Nat) (frozen retired : Bool) : Reloc :=
  { name := e.name, kind := kind, source := e.version, copies := copies, newGen := e.version.generation + 1,
    frozen := frozen, retired := retired, secured := 0, excess := excessOf e copies, stage := .draw, blocks := [],
    chunk := 0, got := [], crc := [], primary := .start, mirror := none, jobs := 0, ending := none }

/-- Whether the excess of a relocation of an entry fits its namespace's quota (R65, R140). -/
def Device.excessFits (d : Device) (e : Entry) : Bool :=
  let x := excessOf e (d.copiesOf e.name.ns)
  decide (x = 0)
    || decide (d.held e.name.ns + d.reservedBlocks e.name.ns + x ≤ (d.desc e.name.ns).quota)

/-- A relocation draws its places of the allowance (R68, R140). -/
def Device.startReloc (d : Device) (id : RelocId) (r : Reloc) : Device :=
  (d.setReloc id r).askDraw (.reloc id) r.fromAllowance

/-! ### The end without a commit point (R69, R143) -/

/-- Whether a grant was asked for by a relocation. -/
def Asker.isReloc (id : RelocId) : Asker → Bool
  | .reloc i _ => decide (i = id)
  | _ => false

/-- Whether a relocation that ended so puts its record on the pass-over list (R143). -/
def RelocEnd.passesOver : RelocEnd → Bool
  | .interrupted => false
  | .worn => false
  | .dataLost _ => true
  | .mediaFailed => true
  | .noSpace => true

/-- The result mark work completes with (R69). The two causes that only the Maintenance Unit has never end
mark work. -/
def RelocEnd.result : RelocEnd → Result
  | .interrupted => .aborted
  | .worn => .worn
  | .dataLost _ => .dataLost
  | .mediaFailed => .mediaFailed
  | .noSpace => .noSpace

/-- A relocation that ends without a commit point finishes (R69, R143): its new blocks become STALE, its
places and reservation are released, a lost chunk joins the damaged set, and the busy field clears. -/
def Device.finishReloc (d : Device) (id : RelocId) (r : Reloc) (cause : RelocEnd) : Device :=
  let d := d.toStale (r.blocks.map (·.addr))
  let d :=
    match cause with
    | .dataLost k => d.modDamaged r.name r.source.generation (insertNat k)
    | _ => d
  let d := d.modEntry r.name fun e => { e with busy := .none }
  match id with
  | .maint =>
    { d with maint := { d.maint with
        reloc := none
        passOver := if cause.passesOver then insertName r.name d.maint.passOver else d.maint.passOver } }
  | .mark f => d.complete f cause.result []

/-- A relocation that is ending finishes when no job of it is queued or in progress (R143, log 15). -/
def Device.relocWait (d : Device) (id : RelocId) (r : Reloc) : Device :=
  match r.ending with
  | some cause => if r.jobs = 0 then d.finishReloc id r cause else d.setReloc id r
  | none => d.setReloc id r

/-- A relocation meets a cause that ends it (R69, R143): it withdraws its draw and its grants. -/
def Device.endReloc (d : Device) (id : RelocId) (r : Reloc) (cause : RelocEnd) : Device :=
  ((d.withdrawDraws (.reloc id)).withdrawGrants (Asker.isReloc id)).relocWait id { r with ending := some cause }

/-! ### Copying (R69, R141, log 14) -/

/-- The pages read of the chunk at work. -/
def Reloc.pages (r : Reloc) : List Nat :=
  (List.range 13).map (· + 1) ++ if r.chunk = 0 then [15] else []

/-- A relocation goes to a chunk: its PRIMARY block is read, or a MISSING one ends the relocation. -/
def Device.relocChunk (d : Device) (id : RelocId) (r : Reloc) : Device :=
  match r.source.chunkAt r.chunk with
  | none => d.endReloc id r (.dataLost r.chunk)
  | some ref =>
    (r.pages.foldl (fun d p => d.queueRead ref.addr p (.relocRead id r.chunk p .primary)) d).setReloc id
      { r with got := [], jobs := r.jobs + r.pages.length, primary := .start,
               mirror := if r.copies = 2 then some .start else none }

/-- The body bytes of the chunk at work, in page order. -/
def Reloc.chunkData (r : Reloc) : List Byte :=
  (List.range 13).flatMap fun p => (pageGot r.got r.chunk (p + 1)).getD []

/-- The repeat grants of a relocation avoid the bank of the block the chunk's other copy has now (R101). -/
def Device.reavoidReloc (d : Device) (id : RelocId) (r : Reloc) : Device :=
  let blockOf (copy : Copy) : Option BlockAddr := (r.run copy).bind (·.block)
  let avoid (copy : Copy) : Avoid :=
    match blockOf (match copy with | .primary => .mirror | .mirror => .primary) with
    | none => .nothing
    | some a => .bank a.bank
  { d with pool := { d.pool with waits := d.pool.waits.map fun g =>
      match g.asker with
      | .reloc i (some copy) =>
        if i = id then { g with requests := g.requests.map fun q => { q with avoid := avoid copy } } else g
      | _ => g } }

/-- One copy of the chunk at work takes its block and queues the header job. -/
def Device.relocCopyInto (id : RelocId) (x : Device × Reloc) (copy : Copy) (a : BlockAddr) : Device × Reloc :=
  match x.2.run copy with
  | none => x
  | some run =>
    (x.1.queueJob a.bank (copyJob a.block (x.2.header copy) x.2.chunkData 0 (.relocProgram id copy)),
     { x.2.setRun copy { run with block := some a, job := some 0 } with jobs := x.2.jobs + 1 })

/-- The body CRC-32 of the old commit record, from page 15 of chunk 0 (R69, R142). A record that is not valid is not
acted on (R130): the value is then a free one (log 40). -/
def Reloc.oldCrc (r : Reloc) (free : BitVec 32) : List Byte :=
  leBytes 4 (match readCommit ((pageGot r.got 0 15).getD []) with | some c => c.crc | none => free).toNat

/-- Every page of the chunk at work has come in: the new blocks of the chunk are programmed. The body CRC-32
of the old commit record is kept from page 15 (R69, R142). -/
def Device.relocPrograms (d : Device) (id : RelocId) (r : Reloc) (free : BitVec 32) : Device :=
  let r := if r.chunk = 0 then { r with crc := r.oldCrc free } else r
  let into (x : Device × Reloc) (copy : Copy) : Device × Reloc :=
    match r.blocks[r.place r.chunk copy]? with
    | none => x
    | some n => Device.relocCopyInto id x copy n.addr
  let x := into (d, r) .primary
  let x := if r.copies = 2 then into x .mirror else x
  x.1.setReloc id x.2

/-- A page read of a relocation has completed (R69, R141). `free` stands for a body CRC-32 that no valid record gives.
-/
def Device.relocReadDone (d : Device) (id : RelocId) (chunk page : Nat) (copy : Copy) (o : ReadOutcome)
    (data : List Byte) (free : BitVec 32) : Device :=
  match d.reloc? id with
  | none => d
  | some r =>
    let d := d.reportPage r.name r.source.generation copy o
    let r := { r with jobs := r.jobs - 1 }
    if r.ending.isSome then d.relocWait id r
    else
      match o, copy, r.source.mirrorAt chunk with
      | .corrected _, _, _ =>
        let r := { r with got := r.got ++ [{ chunk := chunk, page := page, data := data }] }
        if r.pages.all fun p => (pageGot r.got r.chunk p).isSome then d.relocPrograms id r free else d.setReloc id r
      | .uncorrectable, .primary, some m =>
        (d.queueRead m page (.relocRead id chunk page .mirror)).setReloc id { r with jobs := r.jobs + 1 }
      | .uncorrectable, _, _ => d.endReloc id r (.dataLost chunk)

/-- The commit record of a relocation (R69, R142). -/
def Reloc.commitRecord (r : Reloc) : List Byte :=
  Machine.commitRecord r.newGen r.source.chunks.length r.source.bodyLength r.crc

/-- Every copy of the chunk at work is programmed: the next chunk, or the commit record (R69, R142). -/
def Device.relocChunkDone (d : Device) (id : RelocId) (r : Reloc) : Device :=
  if r.chunk + 1 < r.source.chunks.length then d.relocChunk id { r with chunk := r.chunk + 1 }
  else
    match r.blocks[0]? with
    | none => d.setReloc id r
    | some n =>
      (d.queueCommitRecord n.addr r.commitRecord (.relocCommit id)).setReloc id
        { r with stage := .commitQueued, jobs := r.jobs + 1 }

/-- A program into a new block completed OK. -/
def Device.relocJobOk (d : Device) (id : RelocId) (r : Reloc) (copy : Copy) (x : CopyRun) : Device :=
  match x.block, x.job with
  | some a, some k =>
    if k < 13 then
      (d.queueJob a.bank (copyJob a.block (r.header copy) r.chunkData (k + 1) (.relocProgram id copy))).setReloc id
        { r.setRun copy { x with job := some (k + 1) } with jobs := r.jobs + 1 }
    else
      let r := r.setRun copy { x with job := none, done := true }
      if r.primary.done && r.mirror.all (·.done) then d.relocChunkDone id r else d.setReloc id r
  | _, _ => d.setReloc id r

/-- A program into a new block completed FAIL (R69, R141). The block has been made BAD. The first time, its
copy is programmed again into one new block, drawn as the failed one was (R108). -/
def Device.relocJobFailed (d : Device) (id : RelocId) (r : Reloc) (copy : Copy) (x : CopyRun) : Device :=
  if x.attempt = 1 then
    let flagged := (r.blocks[r.place r.chunk copy]?).any (·.flagged)
    let r := r.setRun copy { attempt := 2, block := none, job := none, done := false }
    let r := if flagged then { r with secured := r.secured + 1 } else { r with excess := r.excess + 1 }
    ((d.setReloc id r).askGrant (.reloc id (some copy))
      [{ owner := r.owns r.chunk copy, allowance := flagged, tail := r.kind.tail, avoid := .nothing }]).reavoidReloc id r
  else d.endReloc id r .mediaFailed

/-- A program into a new block has completed (R69, R141). -/
def Device.relocProgramDone (d : Device) (b : Bank) (j : Job) (id : RelocId) (copy : Copy) (o : OkFail) : Device :=
  match d.reloc? id with
  | none => d
  | some r =>
    let d := match o with | .ok => d | .fail => d.programFailed b j
    let r := { r with jobs := r.jobs - 1 }
    if r.ending.isSome then d.relocWait id r
    else
      match r.run copy, o with
      | none, _ => d.setReloc id r
      | some x, .ok => d.relocJobOk id r copy x
      | some x, .fail => d.relocJobFailed id r copy x

/-! ### Draws and grants -/

/-- The block requests of a relocation's grant (R68, R140). -/
def Reloc.requests (r : Reloc) : List BlockRequest :=
  (List.range r.needed).map fun i =>
    let mirror := decide (r.copies = 2) && decide (i % 2 = 1)
    { owner := r.owns (i / r.copies) (if mirror then .mirror else .primary), allowance := decide (i < r.fromAllowance),
      tail := r.kind.tail, avoid := if mirror then .previous else .nothing }

/-- The draw of a relocation is granted (R68, R140): all its blocks are asked for in one grant. -/
def Device.relocDrawn (d : Device) (id : RelocId) : Device :=
  match d.reloc? id with
  | none => d
  | some r =>
    (d.setReloc id { r with secured := r.fromAllowance, stage := .grant }).askGrant (.reloc id none) r.requests

/-- A grant of a relocation is made (R68, R69, R140, R141). -/
def Device.relocGranted (d : Device) (id : RelocId) (again : Option Copy) (as : List BlockAddr) : Device :=
  match d.reloc? id, again, as with
  | some r, none, as =>
    let blocks := (List.range as.length).zip as |>.map fun x =>
      ({ addr := x.2, flagged := decide (x.1 < r.fromAllowance) } : NewBlock)
    d.relocChunk id { r with blocks := blocks, secured := 0, excess := 0, stage := .copying, chunk := 0 }
  | some r, some copy, a :: _ =>
    let i := r.place r.chunk copy
    let flagged := (r.blocks[i]?).any (·.flagged)
    let r := { r with blocks := r.blocks.set i { addr := a, flagged := flagged } }
    let r := if flagged then { r with secured := r.secured - 1 } else { r with excess := r.excess - 1 }
    let x := Device.relocCopyInto id (d, r) copy a
    (x.1.setReloc id x.2).reavoidReloc id x.2
  | _, _, _ => d

/-- The place that a repeat attempt's copy was to take is released when its block is refused (R108). -/
def Reloc.releasePlace (r : Reloc) (again : Option Copy) : Reloc :=
  match again with
  | none => r
  | some copy => if (r.blocks[r.place r.chunk copy]?).any (·.flagged) then { r with secured := r.secured - 1 } else r

/-- A grant of a relocation is refused (R68, R69, R140, R141). -/
def Device.relocRefused (d : Device) (id : RelocId) (again : Option Copy) : Device :=
  match d.reloc? id with
  | none => d
  | some r => d.endReloc id (r.releasePlace again) .noSpace

/-! ### The commit point (R69, R142) -/

/-- The version a relocation commits. -/
def Reloc.version (r : Reloc) : Version :=
  let blockAt (copy : Copy) (k : Nat) : Option BlockAddr := (r.blocks[r.place k copy]?).map (·.addr)
  { generation := r.newGen, bodyLength := r.source.bodyLength, frozen := r.frozen, retired := r.retired,
    chunks := (List.range r.source.chunks.length).map fun k =>
      (blockAt .primary k).map fun a => { addr := a, copy := .primary },
    mirrors := if r.copies = 2 then (List.range r.source.chunks.length).map (blockAt .mirror) else [] }

/-- The state and hold a mark produces (R66): RETIRE makes the entry RETIRED with hold NONE and the next
retire order (R72, R74), RESTORE makes it LIVE without one (R73), and FREEZE makes its hold FROZEN
(R89). -/
def Device.markEffect (d : Device) (kind : MarkKind) (r : RecordName) : Device :=
  match kind with
  | .freeze => d.modEntry r fun e => { e with state := .live, hold := .frozen }
  | .retire =>
    { d.modEntry r (fun e => { e with state := .retired, hold := .none, retireOrder := some d.retireCounter }) with
      retireCounter := d.retireCounter + 1 }
  | .restore => d.modEntry r fun e => { e with state := .live, retireOrder := none }
  | .purge => d

/-- What the commit point of a relocation does beside the new version: a mark relocation takes the state the
mark produces (R8, R69) and is counted (R142). -/
def Device.relocEffect (d : Device) (r : Reloc) : Device :=
  match r.kind with
  | .mark kind =>
    let d := d.markEffect kind r.name
    { d with maint := { d.maint with markMoves := countUp d.maint.markMoves } }
  | .refresh => d
  | .wear => d

/-- A relocation that committed is over: the busy field clears, and mark work completes OK (R69) or the run
counts the relocation (R142). -/
def Device.relocDone (d : Device) (id : RelocId) (r : Reloc) : Device :=
  let d := d.modEntry r.name fun e => { e with busy := .none }
  match id with
  | .mark f => d.complete f .ok (((d.entry? r.name).map markReply).getD [])
  | .maint =>
    { d with maint := { d.maint with
        reloc := none
        relocated := countUp d.maint.relocated
        refreshed := if r.kind = .refresh then countUp d.maint.refreshed else d.maint.refreshed
        wearMoves := if r.kind = .wear then countUp d.maint.wearMoves else d.maint.wearMoves } }

/-- The commit-record program into the new PRIMARY chunk 0 has completed (R69, R142). -/
def Device.relocCommitDone (d : Device) (b : Bank) (j : Job) (id : RelocId) (o : OkFail) : Device :=
  match d.reloc? id with
  | none => d
  | some r =>
    let r := { r with jobs := r.jobs - 1 }
    match o with
    | .fail => (d.programFailed b j).endReloc id r .mediaFailed
    | .ok =>
      let d := (d.takeVersion r.name r.version).relocEffect r
      match r.copies, r.version.mirrorAt 0 with
      | 2, some m =>
        (d.queueCommitRecord m r.commitRecord (.relocMirrorCommit id)).setReloc id
          { r with stage := .mirrorCommit, jobs := r.jobs + 1 }
      | _, _ => d.relocDone id r

/-- The commit-record program into the new MIRROR chunk 0 has completed (R38, R69, R142). -/
def Device.relocMirrorCommitDone (d : Device) (b : Bank) (j : Job) (id : RelocId) (o : OkFail) : Device :=
  match d.reloc? id with
  | none => d
  | some r =>
    match o with
    | .ok => d.relocDone id r
    | .fail => ((d.programFailed b j).loseMirrorZero r.name).relocDone id r

end Sys2Proof.Machine
end

