-- ==== Sys2Proof/Machine/Marks.lean ====
section
/-!
DEFINITION. Mark work (R65 to R67) and the requests that make it: RETIRE, RESTORE (R71 to R73) and FREEZE
(R88, R89).
-/

namespace Sys2Proof.Machine

/-- The two checks mark work makes of an entry whose marks used is 3 (R65). -/
def Device.relocationChecks (d : Device) (e : Entry) : List (Bool × Result) :=
  [ (decide (e.version.generation = Config.maxGeneration), .generationLimit), (!d.excessFits e, .quotaExceeded) ]

/-- The carried-state flags a mark relocation writes (R69): FROZEN and RETIRED. -/
def MarkKind.flags : MarkKind → Bool × Bool
  | .freeze => (true, false)
  | .retire => (false, true)
  | .restore => (false, false)
  | .purge => (false, false)

/-- Mark work turns to a relocation (R65, R68). -/
def Device.startMarkReloc (d : Device) (id : Nat) (kind : MarkKind) (e : Entry) : Device :=
  let r := newReloc e (.mark kind) (d.copiesOf e.name.ns) kind.flags.1 kind.flags.2
  (d.setWork id (.mark { kind := kind, name := e.name, stage := .relocation r })).startReloc (.mark id) r

/-- Mark work begins (R65, R66): it programs the next slot of the PRIMARY chunk 0, or relocates. -/
def Device.beginMark (d : Device) (id : Nat) (kind : MarkKind) (e : Entry) : Device :=
  if 3 ≤ e.marks then
    match firstFailure (d.relocationChecks e) with
    | some r => d.complete id r []
    | none => (d.modEntry e.name fun x => { x with busy := .mark }).startMarkReloc id kind e
  else
    let d := (d.modEntry e.name fun x => { x with busy := .mark }).setWork id
      (.mark { kind := kind, name := e.name, stage := .slot (e.marks + 1) .primary })
    match e.version.chunkAt 0 with
    | none => d
    | some ref => d.queueMark ref.addr kind (e.marks + 1) e.version.generation (.mark id)

/-- Mark work is done (R65, R66): the busy field clears and the request completes OK. -/
def Device.markDone (d : Device) (id : Nat) (r : RecordName) : Device :=
  let d := d.modEntry r fun e => { e with busy := .none }
  d.complete id .ok (((d.entry? r).map markReply).getD [])

/-- The mark point (R66): marks used rises to the slot and the entry takes the state the mark produces. -/
def Device.markPoint (d : Device) (kind : MarkKind) (slot : Nat) (r : RecordName) : Device :=
  (d.modEntry r fun e => { e with marks := slot }).markEffect kind r

/-- A mark program into the PRIMARY chunk 0 has completed (R66, R67). -/
def Device.markProgramDone (d : Device) (b : Bank) (j : Job) (id : Nat) (o : OkFail) : Device :=
  match d.work? id with
  | some (.mark { kind := kind, name := r, stage := .slot k _ }) =>
    match o with
    | .ok =>
      let d := d.markPoint kind k r
      match (d.entry? r).bind fun e => (e.version.mirrorAt 0).map fun m => (m, e.version.generation) with
      | some (m, generation) =>
        (d.setWork id (.mark { kind := kind, name := r, stage := .slot k .mirror })).queueMark m kind k generation
          (.mirrorMark id)
      | none => d.markDone id r
    | .fail =>
      let d := ((d.programFailed b j).modEntry r fun e => { e with marks := 3 }).joinRefresh r
      match d.entry? r with
      | none => d
      | some e =>
        match firstFailure (d.relocationChecks e) with
        | some result => (d.modEntry r fun e => { e with busy := .none }).complete id result []
        | none => d.startMarkReloc id kind e
  | _ => d

/-- A mark program into the MIRROR chunk 0 has completed (R66). -/
def Device.mirrorMarkDone (d : Device) (b : Bank) (j : Job) (id : Nat) (o : OkFail) : Device :=
  match d.work? id with
  | some (.mark { kind := _, name := r, stage := .slot _ _ }) =>
    match o with
    | .ok => d.markDone id r
    | .fail => ((d.programFailed b j).loseMirrorZero r).markDone id r
  | _ => d

/-- RETIRE, from its take (R71). -/
def Device.workRetire (d : Device) (p : Port) (id : Nat) (ns : Byte) (key : Key) : Device :=
  let e? := d.entryOf ns key
  match firstFailure (d.markRequestChecks p ns key ++
      [ (isBusy e?, .recordBusy), (inState e? .retired, .recordRetired), (isFrozen e?, .holdFrozen),
        (heldByOther e? p, .holdConflict) ]) with
  | some r => d.complete id r []
  | none =>
    match e? with
    | none => d.complete id .notFound []
    | some e => d.beginMark id .retire e

/-- RESTORE, from its take (R73). A LIVE entry is answered OK with nothing programmed. -/
def Device.workRestore (d : Device) (p : Port) (id : Nat) (ns : Byte) (key : Key) : Device :=
  let e? := d.entryOf ns key
  match firstFailure (d.markRequestChecks p ns key ++ [(isBusy e?, .recordBusy)]) with
  | some r => d.complete id r []
  | none =>
    match e? with
    | none => d.complete id .notFound []
    | some e => if e.state = .live then d.complete id .ok (restoreLiveReply e) else d.beginMark id .restore e

end Sys2Proof.Machine
end

