-- ==== Sys2Proof/Machine/Protection.lean ====
section
/-!
DEFINITION. Holds, freezes and startup locks: HOLD, RELEASE (R85, R86), FREEZE (R88), LOCK NAMESPACE (R91),
and the holds a port reset releases (R94).
-/

namespace Sys2Proof.Machine

/-- Checks 1 to 3 of R85 and R91. -/
def Device.claimChecks (d : Device) (p : Port) (ns : Byte) : List (Bool × Result) :=
  [ (d.phase.notReady, .notReady), ((d.nsOf ns).isNone, .nsInvalid), (decide (d.rightOn p ns ≠ .full), .denied) ]

/-- HOLD, from its take (R85). -/
def Device.workHold (d : Device) (p : Port) (id : Nat) (ns : Byte) (key : Key) : Device :=
  let e? := d.entryOf ns key
  match firstFailure (d.claimChecks p ns ++
      [ (e?.isNone, .notFound), (inState e? .reserved, .recordBusy),
        (inState e? .retired || inState e? .purging, .recordRetired), (isFrozen e?, .holdFrozen),
        (heldByOther e? p, .holdConflict) ]) with
  | some r => d.complete id r []
  | none =>
    match e? with
    | none => d.complete id .notFound []
    | some e => (d.modEntry e.name fun x => { x with hold := .held p }).complete id .ok (holdReply (.held p))

/-- RELEASE, from its take (R86). -/
def Device.workRelease (d : Device) (p : Port) (id : Nat) (ns : Byte) (key : Key) : Device :=
  let e? := d.entryOf ns key
  match firstFailure (d.claimChecks p ns ++
      [(e?.isNone, .notFound), (isFrozen e?, .holdFrozen), (heldByOther e? p, .holdConflict)]) with
  | some r => d.complete id r []
  | none =>
    match e? with
    | none => d.complete id .notFound []
    | some e => (d.modEntry e.name fun x => { x with hold := .none }).complete id .ok (holdReply .none)

/-- FREEZE, from its take (R88). A FROZEN record is answered OK with nothing programmed. -/
def Device.workFreeze (d : Device) (p : Port) (id : Nat) (ns : Byte) (key : Key) : Device :=
  let e? := d.entryOf ns key
  match firstFailure (d.markRequestChecks p ns key ++
      [(isBusy e?, .recordBusy), (inState e? .retired, .recordRetired)]) with
  | some r => d.complete id r []
  | none =>
    match e? with
    | none => d.complete id .notFound []
    | some e =>
      if e.hold = .frozen then d.complete id .ok (markReply e)
      else if e.hold = .held p.other then d.complete id .holdConflict []
      else d.beginMark id .freeze e

/-- LOCK NAMESPACE, from its take (R91). -/
def Device.workLock (d : Device) (p : Port) (id : Nat) (ns : Byte) : Device :=
  match firstFailure (d.claimChecks p ns) with
  | some r => d.complete id r []
  | none =>
    match d.nsOf ns with
    | none => d.complete id .nsInvalid []
    | some n => { d with locks := d.locks.set n true }.complete id .ok (leBytes 1 (flagCode d.locks[n]))

/-- A port reset releases every HELD hold of its port (R94). -/
def Device.releaseHolds (d : Device) (p : Port) : Device :=
  { d with dir := d.dir.map fun e => if e.hold = .held p then { e with hold := .none } else e }

end Sys2Proof.Machine
end

