-- ==== Sys2Proof/Machine/Update.lean ====
section
/-!
DEFINITION. Update contexts (R23 to R48): opening one, delivering its chunks, committing and abandoning
it, what its waiting grants and draws bring, and what its program jobs bring.
-/

namespace Sys2Proof.Machine

/-! ### Handles (R24, R25) -/

/-- The slots in ascending order. -/
def allSlots : List SlotIndex := [0, 1, 2, 3, 4, 5, 6, 7]

/-- The slot a handle names, when that slot is not FREE and has the handle's sequence (R25 check 2). A slot
number above 7 names no slot (log 38). -/
def Device.slotOf (d : Device) (handle : BitVec 16) : Option SlotIndex :=
  allSlots.find? fun i => decide (d.handle i = handle) && (d.ctx? i).isSome

/-- The checks of R25. -/
def Device.handleChecks (d : Device) (p : Port) (handle : BitVec 16) : List (Bool × Result) :=
  [ (d.phase.notReady, .notReady), ((d.slotOf handle).isNone, .handleStale),
    ((d.slotOf handle).any fun i => (d.ctx? i).any fun c => decide (c.owner ≠ p), .denied) ]

/-- A request that passed R25 names the context (R43): its requests in flight rise and its timer stops. -/
def Device.enterContext (d : Device) (i : SlotIndex) : Device :=
  match d.ctx? i with
  | none => d
  | some c => d.setCtx i { c with requests := c.requests + 1, timer := none }

/-- A request naming a context completes (R43). -/
def Device.completeNaming (d : Device) (i : SlotIndex) (id : Nat) (r : Result) (reply : List Byte) : Device :=
  (d.leaveContext i).complete id r reply

/-- A change of the chunk record of chunk `k` (R23). -/
def Ctx.modChunk (c : Ctx) (k : Nat) (f : ChunkRecord → ChunkRecord) : Ctx := { c with chunks := c.chunks.modify k f }

/-- The chunk record of chunk `k`. -/
def Ctx.chunkAt (c : Ctx) (k : Nat) : ChunkRecord := (c.chunks[k]?).getD { primary := none, mirror := none, crc := 0 }

/-- The block of one copy. -/
def ChunkRecord.block (r : ChunkRecord) : Copy → Option BlockAddr
  | .primary => r.primary
  | .mirror => r.mirror

/-- The chunk record with the block of one copy set. -/
def ChunkRecord.setBlock (r : ChunkRecord) (copy : Copy) (a : Option BlockAddr) : ChunkRecord :=
  match copy with
  | .primary => { r with primary := a }
  | .mirror => { r with mirror := a }

/-- The other copy of a chunk. -/
def Copy.other : Copy → Copy
  | .primary => .mirror
  | .mirror => .primary

/-! ### Opening (R26 to R29) -/

/-- The lowest-numbered FREE slot (R24). -/
def Device.firstFree (d : Device) : Option SlotIndex := allSlots.find? fun i => (d.ctx? i).isNone

/-- Whether a mode code is CREATE, REPLACE or EITHER (R181). -/
def modeOk (m : Byte) : Bool := decide (1 ≤ m.toNat ∧ m.toNat ≤ 3)

/-- Check 7 of OPEN UPDATE (R27). -/
def Device.modeChecks (d : Device) (p : Port) (n : NsIndex) (e? : Option Entry) (mode : Byte) : List (Bool × Result) :=
  match e? with
  | none =>
    [ (decide (mode = 2), .notFound), (decide (Config.maxEntries ≤ d.dir.length), .directoryFull),
      (decide ((d.desc n).recordLimit ≤ d.recordCount n), .nsLimit) ]
  | some e =>
    [ (decide (mode = 1), .exists), (inState e? .reserved || isBusy e?, .recordBusy),
      (inState e? .retired || inState e? .purging, .recordRetired), (isFrozen e?, .holdFrozen),
      (heldByOther e? p, .holdConflict), (decide (e.version.generation = Config.maxGeneration), .generationLimit) ]

/-- Every check of OPEN UPDATE but the namespace parameter's own (R26 to R28), for a namespace that passed
check 2. -/
def Device.openChecks (d : Device) (p : Port) (ns : Byte) (key : Key) (length : BitVec 16) (mode : Byte) :
    List (Bool × Result) :=
  [ (d.phase.notReady, .notReady), (decide (d.phase = .worn), .worn), ((d.nsOf ns).isNone, .nsInvalid),
    (decide (d.rightOn p ns ≠ .full), .denied), (d.layout.pending, .layoutPending), (d.lockedOn ns, .nsLocked),
    (decide (length.toNat = 0) || decide (Config.maxBody < length.toNat) || !modeOk mode, .badParameter) ]
  ++ match d.nsOf ns with
    | none => []
    | some n =>
      d.modeChecks p n (d.entry? { ns := n, key := key }) mode
      ++ [ (d.firstFree.isNone, .noContext),
           (decide ((d.desc n).quota < d.held n + d.reservedBlocks n + chunkCountOf length.toNat * d.copiesOf n),
            .quotaExceeded) ]

/-- The context an OPEN UPDATE opens (R29). -/
def Device.newContext (d : Device) (p : Port) (r : RecordName) (length : Nat) (e? : Option Entry) : Ctx :=
  { owner := p, name := r, state := .open, mode := if e?.isSome then .replace else .create, bodyLength := length,
    chunkCount := chunkCountOf length, copies := d.copiesOf r.ns,
    newGen := match e? with | none => 1 | some e => e.version.generation + 1,
    baseGen := e?.map (·.version.generation), present := [], inFlight := [],
    chunks := List.replicate (chunkCountOf length) { primary := none, mirror := none, crc := 0 },
    reserved := chunkCountOf length * d.copiesOf r.ns, requests := 0, timer := d.timerStart, attempt := 0,
    copying := none }

/-- The entry a create inserts (R12). -/
def reservedEntry (r : RecordName) (handle : BitVec 16) : Entry :=
  { name := r, state := .reserved, version := .absent, hold := .none, marks := 0, busy := .update handle, damaged := [],
    retireOrder := none }

/-- An OPEN UPDATE that passed every check opens its context in a slot (R29). -/
def Device.openContext (d : Device) (p : Port) (i : SlotIndex) (r : RecordName) (length : Nat) : Device :=
  let e? := d.entry? r
  let h := d.handle i
  let d1 := d.setCtx i (d.newContext p r length e?)
  match e? with
  | none => d1.insertRecord (reservedEntry r h)
  | some _ => d1.modEntry r fun e => { e with busy := .update h }

/-- OPEN UPDATE, from its take (R26 to R29). -/
def Device.workOpen (d : Device) (p : Port) (id : Nat) (ns : Byte) (key : Key) (length : BitVec 16) (mode : Byte) :
    Device :=
  match firstFailure (d.openChecks p ns key length mode) with
  | some r => d.complete id r []
  | none =>
    match d.nsOf ns, d.firstFree with
    | some n, some i =>
      let r : RecordName := { ns := n, key := key }
      let c := d.newContext p r length.toNat (d.entry? r)
      (d.openContext p i r length.toNat).complete id .ok (openReply (d.handle i) c)
    | _, _ => d.complete id .noContext []

/-! ### Putting a chunk (R30 to R35) -/

/-- The run of one copy of a put. -/
def PutWork.run (w : PutWork) : Copy → Option CopyRun
  | .primary => some w.primary
  | .mirror => w.mirror

/-- The put with the run of one copy replaced. -/
def PutWork.setRun (w : PutWork) (copy : Copy) (r : CopyRun) : PutWork :=
  match copy with
  | .primary => { w with primary := r }
  | .mirror => { w with mirror := some r }

/-- Whether a put has a job queued or in progress. -/
def PutWork.hasJob (w : PutWork) : Bool := w.primary.job.isSome || w.mirror.any (·.job.isSome)

/-- Whether every copy of a put is programmed (R35). -/
def PutWork.allDone (w : PutWork) : Bool := w.primary.done && w.mirror.all (·.done)

/-- The block header of a copy of a chunk of a context (R32). -/
def Ctx.header (c : Ctx) (k : Nat) (copy : Copy) : Header :=
  { name := c.name, chunk := k, count := c.chunkCount, copy := copy, generation := c.newGen, bodyLength := c.bodyLength,
    frozen := false, retired := false }

/-- The owner of a block of a context (R31). -/
def Ctx.owns (c : Ctx) (k : Nat) (copy : Copy) : Owner :=
  { name := c.name, generation := c.newGen, chunk := k, copy := copy }

/-- Whether a grant was asked for by a put. -/
def Asker.isPut (id : Nat) : Asker → Bool
  | .put f _ => decide (f = id)
  | _ => false

/-- The bank of a block, as one to avoid (R101). -/
def avoidBank : Option BlockAddr → Avoid
  | none => .nothing
  | some a => .bank a.bank

/-- The repeat grants of a put avoid the bank of the block the chunk's other copy has now (R34, log 11). -/
def Device.reavoidPut (d : Device) (id : Nat) (r : ChunkRecord) : Device :=
  { d with pool := { d.pool with waits := d.pool.waits.map fun g =>
      match g.asker with
      | .put f (some copy) =>
        if f = id then { g with requests := g.requests.map fun q => { q with avoid := avoidBank (r.block copy.other) } }
        else g
      | _ => g } }

/-- The checks of PUT CHUNK after those of R25 (R30). -/
def Device.putChecks (d : Device) (c : Ctx) (index : Byte) (data : List Byte) : List (Bool × Result) :=
  [ (decide (d.phase = .worn), .worn), (decide (c.state ≠ .open), .recordBusy), (d.locks[c.name.ns], .nsLocked),
    (decide (c.chunkCount ≤ index.toNat), .badParameter),
    (decide (data.length ≠ chunkLengthOf c.bodyLength index.toNat), .chunkLength),
    (c.present.contains index.toNat || c.inFlight.contains index.toNat, .chunkPresent) ]

/-- The block requests of a put's first grant (R31). -/
def Ctx.putRequests (c : Ctx) (k : Nat) : List BlockRequest :=
  [{ owner := c.owns k .primary, allowance := false, tail := false, avoid := .nothing }]
    ++ if c.copies = 2 then [{ owner := c.owns k .mirror, allowance := false, tail := false, avoid := .previous }] else []

/-- A put that passed its checks begins (R30, R31). -/
def Device.beginPut (d : Device) (i : SlotIndex) (c : Ctx) (id : Nat) (k : Nat) (data : List Byte) : Device :=
  let c := { c.modChunk k fun r => { r with crc := crc32 data } with inFlight := insertNat k c.inFlight }
  let w : PutWork :=
    { slot := i, chunk := k, data := data, primary := .start, mirror := if c.copies = 2 then some .start else none,
      ending := none }
  ((d.setCtx i c).setWork id (.put w)).askGrant (.put id none) (c.putRequests k)

/-- PUT CHUNK, from its take (R25, R30, R31). -/
def Device.workPut (d : Device) (p : Port) (id : Nat) (handle : BitVec 16) (index : Byte) (data : List Byte) : Device :=
  match firstFailure (d.handleChecks p handle) with
  | some r => d.complete id r []
  | none =>
    match d.slotOf handle with
    | none => d.complete id .handleStale []
    | some i =>
      let d := d.enterContext i
      match d.ctx? i with
      | none => d.complete id .handleStale []
      | some c =>
        match firstFailure (d.putChecks c index data) with
        | some r => d.completeNaming i id r []
        | none => d.beginPut i c id index.toNat data

/-- One copy of a put takes a granted block and queues the header job (R31, R32): the context records the
block, and one reserved block turns into a held one (R33). -/
def Device.placeCopy (d : Device) (id : Nat) (w : PutWork) (copy : Copy) (a : BlockAddr) : Device × PutWork :=
  match d.ctx? w.slot, w.run copy with
  | some c, some r =>
    let c' := { c.modChunk w.chunk fun x => x.setBlock copy (some a) with reserved := c.reserved - 1 }
    (((d.setCtx w.slot c').reavoidPut id (c'.chunkAt w.chunk)).queueJob a.bank
        (copyJob a.block (c.header w.chunk copy) w.data 0 (.put id copy)),
     w.setRun copy { r with block := some a, job := some 0 })
  | _, _ => (d, w)

/-- A grant of a put is made (R31, R34). -/
def Device.putGranted (d : Device) (id : Nat) (again : Option Copy) (as : List BlockAddr) : Device :=
  match d.work? id with
  | some (.put w) =>
    let place (x : Device × PutWork) (copy : Copy) (a : Option BlockAddr) :=
      match a with
      | none => x
      | some a => x.1.placeCopy id x.2 copy a
    let (d, w) :=
      match again with
      | some copy => place (d, w) copy as.head?
      | none => place (place (d, w) .primary as.head?) .mirror as.tail.head?
    d.setWork id (.put w)
  | _ => d

/-! ### Ending a put and abandoning a context (R34, R41, R42) -/

/-- The blocks a context records, in every copy. -/
def Ctx.blocks (c : Ctx) : List BlockAddr := c.chunks.flatMap fun r => r.primary.toList ++ r.mirror.toList

/-- The identifiers of the puts in flight of a context. -/
def Device.putsOf (d : Device) (i : SlotIndex) : List Nat :=
  d.flights.filterMap fun f =>
    match f.work with
    | .put w => if w.slot = i then some f.id else none
    | _ => none

/-- An abandonment finishes (R41) when no put of the context is left. -/
def Device.tryFinishAbandon (d : Device) (i : SlotIndex) : Device :=
  match d.ctx? i with
  | none => d
  | some c =>
    if c.state = .abandoning ∧ d.putsOf i = [] then
      let d := d.toStale c.blocks
      let d :=
        match c.mode with
        | .create => d.removeRecord c.name
        | .replace => d.modEntry c.name fun e => { e with busy := .none }
      (d.flightsWith (.abandon i)).foldl (fun d id => d.complete id .ok []) (d.freeSlot i)
    else d

/-- A put that has failed or is cut short ends when no job of it is queued or in progress (R34, R42, log 11).
In an OPEN context its blocks become STALE and their positions count in the reservation again (R33). -/
def Device.putEnd (d : Device) (id : Nat) (w : PutWork) : Device :=
  match w.ending with
  | none => d.setWork id (.put w)
  | some r =>
    if w.hasJob then d.setWork id (.put w)
    else
      let d := d.withdrawGrants (Asker.isPut id)
      match d.ctx? w.slot with
      | none => d.complete id r []
      | some c =>
        let c := { c with inFlight := c.inFlight.filter fun k => decide (k ≠ w.chunk) }
        if c.state = .open then
          let x := c.chunkAt w.chunk
          let going := (x.primary.toList ++ x.mirror.toList).filter fun a => decide (d.blockState a = some .allocated)
          let c := { c.modChunk w.chunk fun x => { x with primary := none, mirror := none } with
            reserved := c.reserved + going.length }
          ((d.toStale going).setCtx w.slot c).completeNaming w.slot id r []
        else ((d.setCtx w.slot c).completeNaming w.slot id r []).tryFinishAbandon w.slot

/-- A put of a context that is being abandoned queues no further job and stops waiting (R42). -/
def Device.cutPut (d : Device) (id : Nat) : Device :=
  match d.work? id with
  | some (.put w) => (d.withdrawGrants (Asker.isPut id)).putEnd id { w with ending := some .aborted }
  | _ => d

/-- A context is abandoned (R41): it is ABANDONING from this step, its puts are cut short, and with none left the
abandonment finishes at once. Puts that complete ABORTED in this step do so in the order they were taken (log 42). -/
def Device.beginAbandon (d : Device) (i : SlotIndex) : Device :=
  match d.ctx? i with
  | none => d
  | some c =>
    let d := d.setCtx i { c with state := .abandoning, timer := none, copying := none }
    ((d.putsOf i).foldl Device.cutPut d).tryFinishAbandon i

/-- A grant of a put is refused (R31, R34): it ends NO_SPACE. -/
def Device.putRefused (d : Device) (id : Nat) : Device :=
  match d.work? id with
  | some (.put w) => d.putEnd id { w with ending := some .noSpace }
  | _ => d

/-- Every copy of a put is programmed: the chunk becomes present (R35). -/
def Device.putPresent (d : Device) (id : Nat) (w : PutWork) : Device :=
  match d.ctx? w.slot with
  | none => d.complete id .ok (leBytes 1 w.chunk)
  | some c =>
    (d.setCtx w.slot { c with
      inFlight := c.inFlight.filter fun k => decide (k ≠ w.chunk), present := insertNat w.chunk c.present }).completeNaming
        w.slot id .ok (leBytes 1 w.chunk)

/-- A program job of a put completed OK (R32, R35). -/
def Device.putJobOk (d : Device) (id : Nat) (w : PutWork) (copy : Copy) (r : CopyRun) : Device :=
  if w.ending.isSome then d.putEnd id (w.setRun copy { r with job := none })
  else
    match d.ctx? w.slot, r.block, r.job with
    | some c, some a, some k =>
      if k < 13 then
        (d.queueJob a.bank (copyJob a.block (c.header w.chunk copy) w.data (k + 1) (.put id copy))).setWork id
          (.put (w.setRun copy { r with job := some (k + 1) }))
      else
        let w := w.setRun copy { r with job := none, done := true }
        if w.allDone then d.putPresent id w else d.setWork id (.put w)
    | _, _, _ => d

/-- A put's block has gone BAD (R33, R34): the context no longer records it, and while the context is OPEN its
position counts in the reservation again. -/
def Device.putBlockLost (d : Device) (id : Nat) (w : PutWork) (copy : Copy) : Device :=
  match d.ctx? w.slot with
  | none => d
  | some c =>
    let c := { c.modChunk w.chunk fun x => x.setBlock copy none with
      reserved := if c.state = .open then c.reserved + 1 else c.reserved }
    (d.setCtx w.slot c).reavoidPut id (c.chunkAt w.chunk)

/-- A program job of a put completed FAIL (R34). The block has been made BAD. -/
def Device.putJobFailed (d : Device) (id : Nat) (w : PutWork) (copy : Copy) (r : CopyRun) : Device :=
  let d := d.putBlockLost id w copy
  if w.ending.isSome then d.putEnd id (w.setRun copy { r with block := none, job := none })
  else if r.attempt = 1 then
    match d.ctx? w.slot with
    | none => d
    | some c =>
      (d.setWork id (.put (w.setRun copy { attempt := 2, block := none, job := none, done := false }))).askGrant
        (.put id (some copy))
        [{ owner := c.owns w.chunk copy, allowance := false, tail := false,
           avoid := if c.copies = 2 then avoidBank ((c.chunkAt w.chunk).block copy.other) else .nothing }]
  else d.putEnd id { w.setRun copy { r with block := none, job := none } with ending := some .mediaFailed }

/-- A header or page program of a put has completed (R32, R34, R35). -/
def Device.putProgramDone (d : Device) (b : Bank) (j : Job) (id : Nat) (copy : Copy) (o : OkFail) : Device :=
  match d.work? id with
  | some (.put w) =>
    match w.run copy with
    | none => d
    | some r =>
      match o with
      | .ok => d.putJobOk id w copy r
      | .fail => (d.programFailed b j).putJobFailed id w copy r
  | _ => d

/-! ### Committing (R36 to R40) -/

/-- The checks of COMMIT after those of R25 (R36). -/
def Device.commitChecks (d : Device) (c : Ctx) : List (Bool × Result) :=
  [ (decide (d.phase = .worn), .worn), (decide (c.state ≠ .open), .recordBusy), (d.locks[c.name.ns], .nsLocked),
    (!((List.range c.chunkCount).all fun k => c.present.contains k) || !c.inFlight.isEmpty, .incomplete) ]

/-- The body CRC-32 of a context from its chunk CRC-32 values (R36). -/
def Ctx.bodyCrc (c : Ctx) : BitVec 32 :=
  (List.range c.chunkCount).foldl (fun crc k => crc32Join crc (c.chunkAt k).crc (chunkLengthOf c.bodyLength k)) 0

/-- The commit record of a context (R36). -/
def Ctx.commitRecord (c : Ctx) : List Byte :=
  Machine.commitRecord c.newGen c.chunkCount c.bodyLength (leBytes 4 c.bodyCrc.toNat)

/-- The version a context commits (R37). -/
def Ctx.version (c : Ctx) : Version :=
  { generation := c.newGen, bodyLength := c.bodyLength, frozen := false, retired := false,
    chunks := c.chunks.map fun r => r.primary.map fun a => { addr := a, copy := .primary },
    mirrors := if c.copies = 2 then c.chunks.map (·.mirror) else [] }

/-- A COMMIT that passed its checks (R36). -/
def Device.beginCommit (d : Device) (i : SlotIndex) (c : Ctx) (id : Nat) : Device :=
  let d := (d.setCtx i { c with state := .committing, reserved := 0, attempt := 1 }).setWork id (.commit i)
  match (c.chunkAt 0).primary with
  | none => d
  | some a => d.queueCommitRecord a c.commitRecord (.commitRecord i)

/-- COMMIT, from its take (R25, R36). -/
def Device.workCommit (d : Device) (p : Port) (id : Nat) (handle : BitVec 16) : Device :=
  match firstFailure (d.handleChecks p handle) with
  | some r => d.complete id r []
  | none =>
    match d.slotOf handle with
    | none => d.complete id .handleStale []
    | some i =>
      let d := d.enterContext i
      match d.ctx? i with
      | none => d.complete id .handleStale []
      | some c =>
        match firstFailure (d.commitChecks c) with
        | some r => d.completeNaming i id r []
        | none => d.beginCommit i c id

/-- ABANDON, from its take (R25, R42). -/
def Device.workAbandon (d : Device) (p : Port) (id : Nat) (handle : BitVec 16) : Device :=
  match firstFailure (d.handleChecks p handle) with
  | some r => d.complete id r []
  | none =>
    match d.slotOf handle with
    | none => d.complete id .handleStale []
    | some i =>
      let d := d.enterContext i
      match d.ctx? i with
      | none => d.complete id .handleStale []
      | some c =>
        if c.state ≠ .open then d.completeNaming i id .recordBusy []
        else (d.setWork id (.abandon i)).beginAbandon i

/-- The idle timer of a context runs out (R44). -/
def Device.timerExpired (d : Device) (i : SlotIndex) : Device :=
  match d.ctx? i with
  | none => d
  | some c =>
    if c.state = .open ∧ c.timer.isSome then
      (d.beginAbandon i).post c.owner { Notices.empty with updateExpired := true }
    else d

/-- A commit ends (R37, R38): the context is freed, the busy field cleared, and COMMIT completes OK. -/
def Device.commitDone (d : Device) (i : SlotIndex) (c : Ctx) : Device :=
  let d := (d.freeSlot i).modEntry c.name fun e => { e with busy := .none }
  (d.flightsWith (.commit i)).foldl (fun d id => d.complete id .ok (leBytes 4 c.newGen)) d

/-- The commit point of a context's version (R37). -/
def Device.commitPoint (d : Device) (i : SlotIndex) : Device :=
  match d.ctx? i with
  | none => d
  | some c =>
    let d := (d.setCtx i { c with copying := none }).takeVersion c.name c.version
    match c.copies, (c.chunkAt 0).mirror with
    | 2, some m => d.queueCommitRecord m c.commitRecord (.mirrorCommitRecord i)
    | _, _ => d.commitDone i c

/-- A COMMIT fails (R40): it completes COMMIT_FAILED and its context is abandoned. -/
def Device.commitFailed (d : Device) (i : SlotIndex) : Device :=
  let d := (d.flightsWith (.commit i)).foldl (fun d id => d.completeNaming i id .commitFailed []) d
  d.beginAbandon i

/-- The PRIMARY commit-record program of attempt 1 has completed (R37, R39). -/
def Device.commitRecordDone (d : Device) (b : Bank) (j : Job) (i : SlotIndex) (o : OkFail) : Device :=
  match o with
  | .ok => d.commitPoint i
  | .fail =>
    let d := d.programFailed b j
    match d.ctx? i with
    | none => d
    | some c =>
      (d.setCtx i { c.modChunk 0 fun x => { x with primary := none } with
        attempt := 2, copying := some { failed := { bank := b, block := j.block }, page := 0, secured := 0 } }).askDraw
          (.commit i) 1

/-- The MIRROR commit-record program has completed (R37, R38). -/
def Device.mirrorCommitRecordDone (d : Device) (b : Bank) (j : Job) (i : SlotIndex) (o : OkFail) : Device :=
  match d.ctx? i with
  | none => d
  | some c =>
    match o with
    | .ok => d.commitDone i c
    | .fail => ((d.programFailed b j).loseMirrorZero c.name).commitDone i c

/-- The draw of commit attempt 2 is granted (R39): the block is asked for. -/
def Device.commitDrawn (d : Device) (i : SlotIndex) : Device :=
  match d.ctx? i with
  | none => d
  | some c =>
    (d.setCtx i { c with copying := c.copying.map fun x => { x with secured := 1 } }).askGrant (.commit i)
      [{ owner := c.owns 0 .primary, allowance := true, tail := false, avoid := avoidBank (c.chunkAt 0).mirror }]

/-- The block of commit attempt 2 is granted (R39): page 0 of the failed block is read. -/
def Device.commitGranted (d : Device) (i : SlotIndex) (as : List BlockAddr) : Device :=
  match d.ctx? i, as with
  | some c, a :: _ =>
    match c.copying with
    | none => d
    | some x =>
      (d.setCtx i { c.modChunk 0 fun r => { r with primary := some a } with
        copying := some { x with page := 0, secured := 0 } }).queueRead x.failed 0 (.commitCopyRead i .primary)
  | _, _ => d

/-- The block of commit attempt 2 is refused (log 12): the COMMIT fails. -/
def Device.commitRefused (d : Device) (i : SlotIndex) : Device := d.commitFailed i

/-- A page read of commit attempt 2 has completed (R39, R40, log 13). -/
def Device.commitCopyReadDone (d : Device) (i : SlotIndex) (copy : Copy) (o : ReadOutcome) (data : List Byte) : Device :=
  match d.ctx? i with
  | none => d
  | some c =>
    match c.copying, (c.chunkAt 0).primary with
    | some x, some a =>
      match o, copy, (c.chunkAt 0).mirror with
      | .corrected _, _, _ =>
        d.queueJob a.bank
          (if x.page = 0 then segmentJob a.block 0 1 (headerRecord (c.header 0 .primary)) (.commitCopyProgram i)
           else pageJob a.block x.page data (.commitCopyProgram i))
      | .uncorrectable, .primary, some m => d.queueRead m x.page (.commitCopyRead i .mirror)
      | .uncorrectable, _, _ => d.commitFailed i
    | _, _ => d

/-- A program into the block of commit attempt 2 has completed (R39, R40). After page 13 comes the commit
record, whose completion OK is the commit point. -/
def Device.commitCopyProgramDone (d : Device) (b : Bank) (j : Job) (i : SlotIndex) (o : OkFail) : Device :=
  match o with
  | .fail => (d.programFailed b j).commitFailed i
  | .ok =>
    if j.target.1 = 15 then d.commitPoint i
    else
      match d.ctx? i with
      | none => d
      | some c =>
        match c.copying, (c.chunkAt 0).primary with
        | some x, some a =>
          if x.page < 13 then
            (d.setCtx i { c with copying := some { x with page := x.page + 1 } }).queueRead x.failed (x.page + 1)
              (.commitCopyRead i .primary)
          else d.queueCommitRecord a c.commitRecord (.commitCopyProgram i)
        | _, _ => d

end Sys2Proof.Machine
end

