-- ==== Sys2Proof/Machine/PurgeWork.lean ====
section
/-!
DEFINITION. Purge (R74 to R80, R162): which records one PURGE takes, the PURGE mark, the erase set and its
order, the verify and the overwrite, and the removal of the entry. Also the completions of erases and
wear stamps, which R106 handles unless the block belongs to a purge.
-/

namespace Sys2Proof.Machine

/-! ### The erase set (R77) -/

/-- Inserts a RETIRED entry by retire order (R74). -/
def insertRetired (e : Entry) : List Entry → List Entry
  | [] => [e]
  | x :: rest =>
    if (e.retireOrder.getD 0).toNat ≤ (x.retireOrder.getD 0).toNat then e :: x :: rest else x :: insertRetired e rest

/-- The retire list (R74): the RETIRED entries, oldest first. -/
def Device.retireList (d : Device) : List Entry :=
  (d.dir.filter fun e => decide (e.state = .retired)).foldr insertRetired []

/-- Whether a PURGE of a port includes a RETIRED entry (R75). -/
def Device.purgeIncludes (d : Device) (p : Port) (e : Entry) : Bool :=
  decide ((d.desc e.name.ns).right p = .full) && !d.locks[e.name.ns] && decide (e.busy = .none)

/-- The place of a block in the order of R77: the version's PRIMARY chunk 0 block is last and its MIRROR chunk 0 block
second to last. The version names them in its chunk lists: a remnant of its generation, and a chunk 0 block whose
element is MISSING, stand in ascending order like any other (log 17). -/
def Entry.rankOf (e : Entry) (a : BlockAddr) : MemberRank :=
  if (e.version.chunkAt 0).map (·.addr) = some a then .primaryZero
  else if e.version.mirrorAt 0 = some a then .mirrorZero
  else .ordinary

/-- Whether a block of a purged key is taken into the erase set by its state (R77). -/
def BlockState.purged : BlockState → Bool
  | .allocated => true
  | .stale => true
  | .erasing => true
  | .bad => true
  | .descriptor => false
  | .free => false

/-- The erase set of a record (R77), in ascending (bank, block) order. -/
def Device.eraseSet (d : Device) (e : Entry) : List PurgeMember :=
  d.pool.table.filterMap fun l =>
    match l.entry.owner with
    | none => none
    | some o =>
      if o.name = e.name ∧ l.entry.state.purged then
        some { addr := l.addr, rank := e.rankOf l.addr, step := .waiting }
      else none

/-- The purge with its erase set replaced. -/
def PurgeWork.withSet (w : PurgeWork) (set : List PurgeMember) : PurgeWork := { w with step := .erase set }

/-- The member of the purge's erase set for a block, with the purge and the whole set. -/
def Device.member? (d : Device) (a : BlockAddr) : Option (PurgeWork × List PurgeMember × PurgeMember) :=
  match d.purge with
  | none => none
  | some w =>
    match w.step with
    | .mark _ => none
    | .erase set => (set.find? fun m => decide (m.addr = a)).map fun m => (w, set, m)

/-- The set with the step of one block changed. -/
def stepMember (set : List PurgeMember) (a : BlockAddr) (s : MemberStep) : List PurgeMember :=
  set.map fun m => if m.addr = a then { m with step := s } else m

/-- The set without one block, which has been verified or overwritten, or has gone BAD. -/
def dropMember (set : List PurgeMember) (a : BlockAddr) : List PurgeMember := set.filter fun m => decide (m.addr ≠ a)

/-- Whether the purge has a job of its own in hand for a block. -/
def MemberStep.inHand : MemberStep → Bool
  | .erasing => true
  | .verifying _ => true
  | .overwriting _ => true
  | .waiting => false
  | .toVerify _ => false
  | .toOverwrite => false

/-- Whether the order of R77 has reached a block: the MIRROR chunk 0 block waits for every ordinary one (log 17), and
the PRIMARY chunk 0 block for every other. -/
def rankReached (set : List PurgeMember) : MemberRank → Bool
  | .ordinary => true
  | .mirrorZero => set.all fun m => decide (m.rank ≠ .ordinary)
  | .primaryZero => set.all fun m => decide (m.rank = .primaryZero)

/-- Whether the purge can go on with a block now (R77): one already taken goes on; one not yet taken is passed
over while it is pinned, whatever its state (R62), and while it is ERASING under scrub. -/
def Device.memberReady (d : Device) (set : List PurgeMember) (m : PurgeMember) : Bool :=
  match m.step with
  | .waiting =>
    rankReached set m.rank && decide (d.pinsOf m.addr = 0)
      && (decide (d.blockState m.addr = some .allocated) || decide (d.blockState m.addr = some .stale)
          || decide (d.blockState m.addr = some .bad))
  | .toVerify _ => true
  | .toOverwrite => true
  | _ => false

/-- The block the purge takes next in a bank that is free of its jobs (R77). A block whose scrub erase or wear stamp was
handed to the purge, so that its verify or overwrite is next, goes before the next waiting block of the order, wherever
it stands in it: the rule does not say which of the two is first, and this is the model's choice (log 53). -/
def Device.nextMember (d : Device) (set : List PurgeMember) (b : Bank) : Option PurgeMember :=
  if (set.any fun m => decide (m.addr.bank = b) && m.step.inHand) then none
  else
    let here := set.filter fun m => decide (m.addr.bank = b)
    (here.find? fun m => decide (m.step ≠ .waiting) && d.memberReady set m).orElse fun _ =>
      here.find? (d.memberReady set)

/-- A page of a zero overwrite is queued (R78, R125). -/
def Device.queueOverwrite (d : Device) (a : BlockAddr) (page : Nat) : Device :=
  d.queueJob a.bank (pageJob a.block page (fill 256 0) .purgeOverwrite)

/-- The purge takes a block, or goes on with it (R77, R78). -/
def Device.workMember (d : Device) (w : PurgeWork) (set : List PurgeMember) (m : PurgeMember) : Device :=
  let stepTo (d : Device) (s : MemberStep) : Device := { d with purge := some (w.withSet (stepMember set m.addr s)) }
  match m.step with
  | .toVerify first =>
    (stepTo d (.verifying first)).queueJob m.addr.bank
      { block := m.addr.block, op := .eraseVerify first, cls := .erase, by_ := .purgeVerify }
  | .waiting =>
    if d.blockState m.addr = some .bad then (stepTo d (.overwriting 0)).queueOverwrite m.addr 0
    else
      let d := { d with pool := { d.pool with scrub := d.pool.scrub.filter fun x => decide (x ≠ m.addr) } }
      let d := d.modBlock m.addr fun e =>
        { e with state := .erasing, erase := some { eraser := .purge, stamp := false } }
      (stepTo d .erasing).queueJob m.addr.bank
        { block := m.addr.block, op := .blockErase, cls := .erase, by_ := .purgeErase }
  | _ => (stepTo d (.overwriting 0)).queueOverwrite m.addr 0

/-! ### Working a record -/

/-- The erase step begins (R77). -/
def Device.beginErase (d : Device) (w : PurgeWork) : Device :=
  match d.entry? w.current with
  | none => { d with purge := some (w.withSet []) }
  | some e => { d with purge := some (w.withSet (d.eraseSet e)) }

/-- The PURGE mark of the MIRROR chunk 0, when there is one to take it; otherwise the erase step (R76). -/
def Device.purgeMirrorMark (d : Device) (w : PurgeWork) : Device :=
  match (d.entry? w.current).bind fun e => (e.version.mirrorAt 0).map fun m => (e, m) with
  | none => d.beginErase w
  | some (e, m) =>
    if d.blockState m = some .bad then d.beginErase w
    else
      { d with purge := some { w with step := .mark .mirror } }.queueMark m .purge 4 e.version.generation .purgeMark

/-- The purge of one record begins (R76). A resumed purge begins with the erase step (R162). -/
def Device.beginPurgeRecord (d : Device) (w : PurgeWork) : Device :=
  match w.flight with
  | none => d.beginErase w
  | some _ =>
    match (d.entry? w.current).bind fun e => (e.version.chunkAt 0).map fun r => (e, r.addr) with
    | none => d.purgeMirrorMark w
    | some (e, a) =>
      if d.blockState a = some .bad then d.purgeMirrorMark w
      else
        { d with purge := some { w with step := .mark .primary } }.queueMark a .purge 4 e.version.generation .purgeMark

/-- A line whose block names a record as its owner loses its owner. -/
def BlockLine.disown (r : RecordName) (l : BlockLine) : BlockLine :=
  if (l.entry.owner.any fun o => decide (o.name = r)) then { l with entry := { l.entry with owner := none } } else l

/-- The purge of a record finishes (R79): no block keeps the key as its owner (log 16), the entry is removed,
and the purge goes on to the next record or completes. -/
def Device.finishPurgeRecord (d : Device) (w : PurgeWork) : Device :=
  let d := { d with pool := { d.pool with table := d.pool.table.map (BlockLine.disown w.current) } }
  let d := d.removeRecord w.current
  let purged := w.purged + 1
  match w.rest, w.flight with
  | next :: rest, _ => d.beginPurgeRecord { w with current := next, rest := rest, purged := purged }
  | [], some id =>
    { d with purge := none }.complete id .ok (leBytes 2 purged ++ leBytes 2 w.overwritten ++ leBytes 2 w.skipped)
  | [], none => { d with purge := none }

/-- What the purge does next (R77, R79), if anything can be done now: it finishes the record whose set is
empty, or takes a block in the lowest bank that can go on. -/
def Device.purgeStep (d : Device) : Option Device :=
  match d.purge with
  | none => none
  | some w =>
    match w.step with
    | .mark _ => none
    | .erase [] => some (d.finishPurgeRecord w)
    | .erase (m :: rest) =>
      (([0, 1, 2, 3] : List Bank).findSome? (d.nextMember (m :: rest))).map (d.workMember w (m :: rest))

/-- A PURGE that includes at least one record (R75, R76): every included entry becomes PURGING, and the purge begins
with the oldest. -/
def Device.startPurge (d : Device) (id : Nat) (first : RecordName) (rest : List RecordName) (skipped : Nat) : Device :=
  let d := (first :: rest).foldl (fun d r =>
    d.modEntry r fun e => { e with state := .purging, busy := .purge, retireOrder := none }) d
  (d.setWork id .purge).beginPurgeRecord
    { flight := some id, current := first, step := .mark .primary, rest := rest, purged := 0, overwritten := 0,
      skipped := skipped }

/-- PURGE, from its take (R75). -/
def Device.workPurge (d : Device) (p : Port) (id : Nat) : Device :=
  match firstFailure
      [ (d.phase.notReady, .notReady), (decide (d.phase = .worn), .worn), (d.layout.pending, .layoutPending),
        (d.purge.isSome, .purgeBusy) ] with
  | some r => d.complete id r []
  | none =>
    let included := (d.retireList.filter (d.purgeIncludes p)).map (·.name)
    let skipped := (d.retireList.filter fun e => !d.purgeIncludes p e).length
    match included with
    | [] => d.complete id .nothingToPurge (leBytes 2 skipped)
    | first :: rest => d.startPurge id first rest skipped

/-! ### Completions -/

/-- A PURGE mark program has completed (R76). -/
def Device.purgeMarkDone (d : Device) (b : Bank) (j : Job) (o : OkFail) : Device :=
  match d.purge with
  | none => d
  | some w =>
    match w.step, o with
    | .mark .primary, .ok => (d.modEntry w.current fun e => { e with marks := 4 }).purgeMirrorMark w
    | .mark .primary, .fail => (d.programFailed b j).purgeMirrorMark w
    | .mark .mirror, .ok => d.beginErase w
    | .mark .mirror, .fail => ((d.programFailed b j).loseMirrorZero w.current).beginErase w
    | .erase _, _ => d

/-- A block of the erase set takes a step. -/
def Device.memberTo (d : Device) (a : BlockAddr) (s : MemberStep) : Device :=
  match d.member? a with
  | none => d
  | some (w, set, _) => { d with purge := some (w.withSet (stepMember set a s)) }

/-- A block leaves the erase set. -/
def Device.memberGone (d : Device) (a : BlockAddr) : Device :=
  match d.member? a with
  | none => d
  | some (w, set, _) => { d with purge := some (w.withSet (dropMember set a)) }

/-- The erase of a block of the erase set has completed, whoever queued it (R77, R78, R124). -/
def Device.purgeErased (d : Device) (a : BlockAddr) (o : OkFail) : Device :=
  (d.modBlock a fun e => { e with erase := some { eraser := .purge, stamp := false } }).memberTo a
    (match o with | .ok => .toVerify 0 | .fail => .toOverwrite)

/-- A BLOCK ERASE that a purge queued has completed (R78). -/
def Device.purgeEraseDone (d : Device) (b : Bank) (j : Job) (o : OkFail) : Device :=
  d.purgeErased { bank := b, block := j.block } o

/-- An ERASE VERIFY of a purge has completed (R77, R78). `clean` says that it found every bit at one. -/
def Device.purgeVerifyDone (d : Device) (b : Bank) (j : Job) (clean : Bool) : Device :=
  let a : BlockAddr := { bank := b, block := j.block }
  if clean then
    if j.target.1 = 0 then (d.eraseCounted a).memberGone a else (d.blockFreed a).memberGone a
  else d.memberTo a .toOverwrite

/-- A page of a zero overwrite has completed, with either outcome (R78, R125). After page 15 the block is BAD
without an owner and leaves the set. -/
def Device.purgeOverwriteDone (d : Device) (b : Bank) (j : Job) : Device :=
  let a : BlockAddr := { bank := b, block := j.block }
  let page := j.target.1
  if page < 15 then (d.memberTo a (.overwriting (page + 1))).queueOverwrite a (page + 1)
  else
    let d := ((d.makeBad a .erase 0 0).modBlock a fun e => { e with owner := none }).memberGone a
    { d with purge := d.purge.map fun w => { w with overwritten := w.overwritten + 1 } }

/-- A BLOCK ERASE of a scrub-queue block has completed (R106), unless a purge has the block (R77). -/
def Device.scrubEraseDone (d : Device) (b : Bank) (j : Job) (o : OkFail) : Device :=
  let a : BlockAddr := { bank := b, block := j.block }
  if (d.member? a).isSome then d.purgeErased a o
  else
    match o with
    | .ok => d.eraseCounted a
    | .fail => d.makeBad a .erase 0 0

/-- A wear stamp program has completed (R106), or is handed to the purge that has the block (R77). -/
def Device.wearStampDone (d : Device) (b : Bank) (j : Job) (o : OkFail) : Device :=
  let a : BlockAddr := { bank := b, block := j.block }
  match o with
  | .fail => (d.programFailed b j).memberGone a
  | .ok =>
    if (d.member? a).isSome then
      (d.modBlock a fun e => { e with erase := some { eraser := .purge, stamp := false } }).memberTo a (.toVerify 1)
    else d.blockFreed a

end Sys2Proof.Machine
end

