-- ==== Sys2Proof/Machine/Maintenance.lean ====
section
/-!
DEFINITION. The Maintenance Unit (R131 to R148): the work it can begin, its runs and their decision points,
the choice of records, interruption, and the entry into WORN.
-/

namespace Sys2Proof.Machine

/-- The four banks in ascending order. -/
def allBanks : List Bank := [0, 1, 2, 3]

/-- Whether an erase that the run queued is queued or in progress, up to the end R106 gives it (R136). -/
def Device.ownErases (d : Device) : Bool :=
  d.pool.table.any fun l =>
    decide (l.entry.state = .erasing) && l.entry.erase.any fun w => decide (w.eraser = .run)

/-- The scrub block of the lowest bank that can take a scrub erase (R133, first case; R137). -/
def Device.scrubOffer (d : Device) : Option BlockAddr :=
  allBanks.findSome? fun b => if d.scrubBusy b then none else d.nextScrub b

/-- Whether the current part of a running run is SCRUB (R136). -/
def Device.inScrubPart (d : Device) : Bool := d.ownErases || d.scrubOffer.isSome

/-- Whether an entry is eligible for a maintenance relocation (R138). -/
def Device.eligible (d : Device) (e : Entry) : Bool :=
  decide (e.state = .live) && decide (e.busy = .none) && decide (e.version.generation < Config.maxGeneration)
    && !(d.maint.passOver.contains e.name)

/-- The eligible records of the refresh set (R133, R138), in ascending order. -/
def Device.refreshable (d : Device) : List RecordName := d.pool.refresh.filter fun r => (d.entry? r).any d.eligible

/-- The next record the REFRESH part tries (R138). -/
def Device.nextRefresh (d : Device) : Option RecordName :=
  d.refreshable.find? fun r => !(d.maint.visited.contains r)

/-- The record a block is a candidate for (R139): ALLOCATED, its flag clear, in the committed version of an
eligible record. -/
def Device.wearOwner (d : Device) (l : BlockLine) : Option RecordName :=
  if l.entry.state = .allocated ∧ l.entry.flag = false then
    match l.entry.owner with
    | none => none
    | some o =>
      if (d.entry? o.name).any fun e => d.eligible e && e.version.blocks.contains l.addr then some o.name else none
  else none

/-- The wear-levelling candidate (R139): the record of the block of lowest erase count, ties to the lower bank
and then the lower block. -/
def Device.wearCandidate (d : Device) : Option RecordName :=
  match d.pool.table.filter fun l => (d.wearOwner l).isSome with
  | [] => none
  | l :: rest => d.wearOwner (rest.foldl (fun best x => if x.entry.count < best.entry.count then x else best) l)

/-- The record of the wear-levelling move the unit could begin now, outside WORN (R133, third case). -/
def Device.wearOffer (d : Device) : Option RecordName :=
  if d.phase ≠ .worn ∧ d.moveDue then d.wearCandidate else none

/-- Whether the unit has work it can begin now (R133). -/
def Device.canBegin (d : Device) : Bool :=
  d.scrubOffer.isSome || (decide (d.phase ≠ .worn) && !d.refreshable.isEmpty) || d.wearOffer.isSome

/-- A run starts (R131, R134, R135, R138, R146). -/
def Device.startRun (d : Device) (o : RunOrigin) : Device :=
  { d with maint := { d.maint with
      run := .running, origin := o, erased := 0, relocated := 0, wornSeen := decide (d.phase = .worn), visited := [],
      wearMoved := false
      passOver := match o with | .maintain _ => [] | .auto => d.maint.passOver | .level => d.maint.passOver } }

/-- The end reason of a run (R135): 0 INTERRUPTED, 1 WORN, 2 DONE. -/
def Maint.reason (m : Maint) : Nat := if m.run ≠ .running then 0 else if m.wornSeen then 1 else 2

/-- A run ends (R135, R136, R144): the run state is IDLE, and a run of origin MAINTAIN completes its request. -/
def Device.endRun (d : Device) : Device :=
  let reply := leBytes 4 d.maint.erased ++ leBytes 4 d.maint.relocated ++ leBytes 1 d.maint.reason
  let ids := match d.maint.origin with
    | .maintain _ => d.flightsWith .maintain
    | .auto => []
    | .level => []
  ids.foldl (fun d id => d.complete id .ok reply) { d with maint := { d.maint with run := .idle } }

/-- A maintenance relocation begins, unless the quota test fails, which puts the record on the pass-over list
(R140). -/
def Device.beginMaintReloc (d : Device) (e : Entry) (kind : RelocKind) : Device :=
  if d.excessFits e then
    (d.modEntry e.name fun x => { x with busy := .relocation }).startReloc .maint
      (newReloc e kind (d.copiesOf e.name.ns) (decide (e.hold = .frozen)) false)
  else { d with maint := { d.maint with passOver := insertName e.name d.maint.passOver } }

/-- The REFRESH part tries a record (R138, R140). -/
def Device.tryRefresh (d : Device) (r : RecordName) : Device :=
  let d := { d with maint := { d.maint with visited := insertName r d.maint.visited } }
  match d.entry? r with
  | none => d
  | some e => d.beginMaintReloc e .refresh

/-- The WEAR part makes its move (R139, R140, log 30): wear move made is set when the relocation begins. -/
def Device.tryWear (d : Device) (r : RecordName) : Device :=
  match d.entry? r with
  | none => d
  | some e =>
    let d := d.beginMaintReloc e .wear
    { d with maint := { d.maint with wearMoved := d.maint.wearMoved || d.maint.reloc.isSome } }

/-- Whether the AUTO condition holds (R134). -/
def Device.autoDue (d : Device) : Bool :=
  decide (d.settings.mode = .auto) && d.primary.requests.isEmpty && d.service.requests.isEmpty && d.flights.isEmpty
    && decide (1 ≤ d.pool.level.val) && d.canBegin

/-- Whether the LEVEL condition holds (R134). -/
def Device.levelDue (d : Device) : Bool := decide (d.pool.level = 3) && d.scrubOffer.isSome

/-- What a run in RUNNING does next (R136), if anything. -/
def Device.runningStep (d : Device) : Option Device :=
  match d.scrubOffer with
  | some a => some (d.beginScrubErase a .run)
  | none =>
    if d.ownErases || d.maint.reloc.isSome then none
    else if d.maint.origin = .level ∨ d.phase = .worn then some d.endRun
    else
      match d.nextRefresh with
      | some r => some (d.tryRefresh r)
      | none =>
        match if d.maint.wearMoved then none else d.wearOffer with
        | some r => some (d.tryWear r)
        | none => some d.endRun

/-- What a run in FOREGROUND does next (R145), if anything. It ends once its own erases and a relocation it has kept
are over (log 48). -/
def Device.foregroundStep (d : Device) : Option Device :=
  if d.pool.level ≠ 3 then some { d with maint := { d.maint with run := .stopping } }
  else
    match d.scrubOffer with
    | some a => some (d.beginScrubErase a .run)
    | none => if d.ownErases || d.maint.reloc.isSome then none else some d.endRun

/-- What the Maintenance Unit does next (R134, R136, R144, R145), if anything. It works only in phases READY
and WORN (R131). -/
def Device.maintStep (d : Device) : Option Device :=
  if d.phase = .ready ∨ d.phase = .worn then
    match d.maint.run with
    | .idle => if d.autoDue then some (d.startRun .auto) else if d.levelDue then some (d.startRun .level) else none
    | .running => d.runningStep
    | .foreground => d.foregroundStep
    | .stopping => if d.ownErases || d.maint.reloc.isSome then none else some d.endRun
  else none

/-- The relocation of the run is abandoned, unless its commit record has been queued or it is ending already
(R143, R144, R146). -/
def Device.abandonMaintReloc (d : Device) (cause : RelocEnd) : Device :=
  match d.maint.reloc with
  | none => d
  | some r =>
    if r.ending.isSome ∨ r.stage = .commitQueued ∨ r.stage = .mirrorCommit then d else d.endReloc .maint r cause

/-- The taking of a request interrupts the run in progress (R144, R145). A run that goes on in FOREGROUND keeps its
relocation (log 48). -/
def Device.interruptRun (d : Device) : Device :=
  if d.maint.run = .running then
    if d.pool.level = 3 ∧ d.inScrubPart then { d with maint := { d.maint with run := .foreground } }
    else ({ d with maint := { d.maint with run := .stopping } }).abandonMaintReloc .interrupted
  else d

/-- The device enters WORN (R112, R146). -/
def Device.enterWorn (d : Device) : Device :=
  let d := ({ d with
    pool := { d.pool with worn := true }
    phase := if d.phase = .ready then .worn else d.phase
    maint := { d.maint with wornSeen := d.maint.wornSeen || decide (d.maint.run ≠ .idle) } } : Device).postBoth
      { Notices.empty with wornEntered := true }
  d.abandonMaintReloc .worn

/-- MAINTAIN, from its take (R135). -/
def Device.workMaintain (d : Device) (p : Port) (id : Nat) : Device :=
  match firstFailure [(d.phase.notReady, .notReady), (decide (d.maint.run ≠ .idle), .maintBusy)] with
  | some r => d.complete id r []
  | none => (d.setWork id .maintain).startRun (.maintain p)

end Sys2Proof.Machine
end

