-- ==== Sys2Proof/Machine/Startup.lean ====
section
/-!
DEFINITION. The Start-up Scanner (R152 to R161): its reads in each stage, the classification of the general
blocks, the resolution of versions, the rebuilt entries, and the hand-over of the table.
-/

namespace Sys2Proof.Machine

/-! ### The scanner's lists (R152) -/

/-- Reads of the given pages of a block. -/
def pageTasks (block : BlockNo) (pages : List Nat) : List ScanTask := pages.map fun p => .page block p

/-- Page 0 reads of blocks `lo` to `hi - 1` of a bank. -/
def blockTasks (lo hi : Nat) : List ScanTask :=
  (List.range (hi - lo)).map fun i => .page (Fin.ofNat 512 (lo + i)) 0

/-- Replaces the list of a bank. -/
def Scan.setTodo (s : Scan) (b : Bank) (ts : List ScanTask) : Scan := { s with todo := s.todo.set b ts }

/-- The job a task of the scanner is. -/
def ScanTask.job : ScanTask → Job
  | .page block p => readJob block p .scanRead
  | .verify block first => { block := block, op := .eraseVerify first, cls := .read, by_ := .scanVerify }

/-- The scanner hands the next job of a bank over when it has none of its own there (R152). -/
def Device.scanPumpBank (d : Device) (b : Bank) : Device :=
  if d.scan.out[b] then d
  else
    match d.scan.todo[b] with
    | [] => d
    | t :: rest =>
      { d with scan := { d.scan.setTodo b rest with out := d.scan.out.set b true } }.queueJob b t.job

/-- The scanner hands over what it can, banks in ascending order. -/
def Device.scanPump (d : Device) : Device := allBanks.foldl Device.scanPumpBank d

/-! ### Descriptor reads (R152, R153) -/

/-- The lists of the descriptor stage: layout pages in banks 0 and 1, then the grown-bad lists of all banks. -/
def descriptorTodo : Vector (List ScanTask) 4 :=
  let gb := pageTasks 0 [1, 2, 3, 4]
  let both := pageTasks 0 [5, 6, 7, 8, 9, 10, 11, 12, 13, 14, 15] ++ gb
  #v[both, both, gb, gb]

/-- The identity page of a bank has been read (R152). With no usable one in any bank the phase is HALTED. -/
def Device.identityRead (d : Device) (b : Bank) (o : ReadOutcome) (data : List Byte) : Device :=
  match (match o with | .corrected _ => readIdentity data | .uncorrectable => none) with
  | some i => { d with identity := i, scan := { d.scan with stage := .descriptors, todo := descriptorTodo } }
  | none =>
    if b = 3 then { d with phase := .halted, scan := { d.scan with stage := .finished } }
    else { d with scan := { d.scan.setTodo (b + 1) (pageTasks 0 [0]) with stage := .identity (b + 1) } }

/-- A layout page has been read (R152). -/
def Device.layoutRead (d : Device) (b : Bank) (page : Nat) (o : ReadOutcome) (data : List Byte) : Device :=
  let programmed := match o with | .corrected _ => !allOnes data | .uncorrectable => true
  let valid := match o with | .corrected _ => readLayout page data | .uncorrectable => none
  { d with scan := { d.scan with
      topPage := if programmed then max d.scan.topPage page else d.scan.topPage
      layouts := d.scan.layouts ++ valid.toList.map fun l => { version := page - 4, bank := b, layout := l } } }

/-- The layout selected (R152): that of the highest version, the bank 0 copy of equals; `none` is the default. -/
def selectLayout (ls : List FoundLayout) : Option FoundLayout :=
  ls.foldl (fun best l =>
    match best with
    | none => some l
    | some x => if x.version < l.version ∨ (x.version = l.version ∧ l.bank.val < x.bank.val) then some l else best) none

/-- Whether a bank's layout pages have all come in: at most its four grown-bad pages are left. -/
def Scan.layoutsIn (s : Scan) (b : Bank) : Bool := decide (s.todo[b].length + (if s.out[b] then 1 else 0) ≤ 4)

/-- The Layout Store takes the selected layout when the last layout page has been read (R152, R164, log 26). -/
def Device.layoutSelected (d : Device) : Device :=
  if d.layout.active.isNone ∧ d.scan.stage = .descriptors ∧ d.scan.layoutsIn 0 ∧ d.scan.layoutsIn 1 then
    let found := selectLayout d.scan.layouts
    let l := (found.map (·.layout)).getD .default
    { d with layout :=
        { active := some l, version := (found.map (·.version)).getD 0, staged := l, pending := false,
          nextPage := d.scan.topPage + 1 } }
  else d

/-- The 16 slots of a page of a grown-bad list. -/
def grownBadPage (b : Bank) (data : List Byte) : List (Option GrownBad) :=
  ((List.range 16).map (segment data)).filterMap fun s => if allOnes s then none else some (readGrownBad b s)

/-- A page of a grown-bad list has been read (R153): its used slots are counted, and each valid entry names a
BAD block. -/
def Device.grownBadRead (d : Device) (b : Bank) (o : ReadOutcome) (data : List Byte) : Device :=
  let slots := match o with | .corrected _ => grownBadPage b data | .uncorrectable => List.replicate 16 none
  let entries := slots.filterMap id
  let d := { d with
    pool := { d.pool with slots := d.pool.slots.set b (d.pool.slots[b] + slots.length) }
    scan := { d.scan with grownBad := d.scan.grownBad ++ entries } }
  entries.foldl (fun d g => d.setBlock g.addr (.plain .bad 0)) d

/-! ### The general blocks (R154, R155) -/

/-- The owner a header names (R97). -/
def Header.owner (h : Header) : Owner := { name := h.name, generation := h.generation, chunk := h.chunk, copy := h.copy }

/-- A block of a given state whose count comes from its wear stamp, or is to be estimated (R155). -/
def scannedBlock (s : BlockState) (stamp : Option Nat) (average : Nat) (o : Option Owner) : BlockEntry :=
  { BlockEntry.plain s (stamp.getD average) with estimated := stamp.isNone, owner := o }

/-- The average of the erase counts of a bank's valid wear stamps, rounded down, or 0 (R155). -/
def Scan.average (s : Scan) (b : Bank) : Nat := s.stampSum[b] / s.stampCount[b]

/-- Whether a grown-bad entry of cause PROGRAM sets aside the record that begins at a page and segment of a
block (R156). -/
def setAside (gb : List GrownBad) (a : BlockAddr) (page seg : Nat) : Bool :=
  gb.any fun g => decide (g.addr = a) && decide (g.cause = .program) && decide (g.page = page) && decide (g.segment = seg)

/-- Inserts a found block in ascending (bank, block) order. -/
def insertFound (f : FoundBlock) : List FoundBlock → List FoundBlock
  | [] => [f]
  | x :: rest => if f.addr.num < x.addr.num then f :: x :: rest else x :: insertFound f rest

/-- The scanner's list with a block of a valid header added (R156). -/
def Device.addFound (d : Device) (f : FoundBlock) : Device :=
  { d with scan := { d.scan with found := insertFound f d.scan.found } }

/-- A block with a valid header (R154, R160): a member of a version; but a block outside the early range that
names the early namespace is STALE with its owner, and its chunk 0 pages are read all the same (R156, R161). R154 gives
a member of a version no state before it is resolved: until then it stands in no line of the Block State Table, and
HEALTH counts it in no figure (R168). This is the model's choice (log 54). -/
def Device.memberFound (d : Device) (f : FoundBlock) : Device :=
  (if some f.header.name.ns = d.earlyNs ∧ inEarlyRange f.addr = false then
    d.setBlock f.addr (scannedBlock .stale f.stamp 0 (some f.header.owner))
  else d).addFound f

/-- A valid wear stamp counts for its bank's average (R155, log 26). -/
def Device.countStamp (d : Device) (b : Bank) (stamp : Option Nat) : Device :=
  match stamp with
  | none => d
  | some n =>
    { d with scan := { d.scan with
        stampSum := d.scan.stampSum.set b (d.scan.stampSum[b] + n)
        stampCount := d.scan.stampCount.set b (d.scan.stampCount[b] + 1) } }

/-- A block awaits its erase verify (R155). R154 gives it FREE or STALE by that verify and no state before it: until it
completes the block stands in no line of the Block State Table, and HEALTH counts it in no figure (R168). This is the
model's choice (log 58). -/
def Device.awaitVerify (d : Device) (a : BlockAddr) (first : Nat) (stamp : Option Nat) : Device :=
  { d with scan := { d.scan with verifies := d.scan.verifies ++ [{ addr := a, first := first, stamp := stamp }] } }

/-- A block that a valid grown-bad entry names (R154, R156): BAD, and its header is still read. -/
def Device.classifyBad (d : Device) (a : BlockAddr) (worst : Nat) (data : List Byte) : Device :=
  match if setAside d.scan.grownBad a 0 1 then none else readHeader (segments data 1 4) with
  | none => d
  | some h =>
    (if h.chunk = 0 then d.setBlock a { BlockEntry.plain .bad 0 with owner := some h.owner } else d).addFound
      { addr := a, header := h, bad := true, stamp := readStamp (segment data 0), worst := worst, page14 := .unread,
        page15 := .unread }

/-- A block that no grown-bad entry names, from its page 0 (R154). Patterns that no row of the table names are
STALE with owner UNKNOWN (log 25). -/
def Device.classifyGood (d : Device) (a : BlockAddr) (worst : Nat) (data : List Byte) : Device :=
  if allZero (segment data 15) then d.setBlock a { BlockEntry.plain .bad 0 with factory := true }
  else
    let stamp := readStamp (segment data 0)
    let d := d.countStamp a.bank stamp
    match readHeader (segments data 1 4) with
    | some h =>
      d.memberFound { addr := a, header := h, bad := false, stamp := stamp, worst := worst, page14 := .unread,
                      page15 := .unread }
    | none =>
      if allOnes (segments data 1 15) then
        if stamp.isSome then d.awaitVerify a 1 stamp
        else if allOnes (segment data 0) then d.awaitVerify a 0 none
        else d.setBlock a (scannedBlock .stale none 0 none)
      else d.setBlock a (scannedBlock .stale stamp 0 none)

/-- Page 0 of a general block has been read (R154). -/
def Device.classify (d : Device) (a : BlockAddr) (o : ReadOutcome) (data : List Byte) : Device :=
  let named := d.scan.grownBad.any fun g => decide (g.addr = a)
  match o with
  | .uncorrectable => if named then d else d.setBlock a (.plain .bad 0)
  | .corrected n => if named then d.classifyBad a n.val data else d.classifyGood a n.val data

/-- Page 14 or 15 of a chunk 0 block has been read (R156, R158). -/
def Device.foundPage (d : Device) (a : BlockAddr) (page : Nat) (o : ReadOutcome) (data : List Byte) : Device :=
  let got := match o with | .corrected _ => PageFound.data data | .uncorrectable => .unreadable
  let worst := match o with | .corrected n => n.val | .uncorrectable => 0
  { d with scan := { d.scan with found := d.scan.found.map fun f =>
      if f.addr = a then
        { f with
          worst := max f.worst worst
          page14 := if page = 14 then got else f.page14
          page15 := if page = 15 then got else f.page15 }
      else f } }

/-- A body page has been read for a duplicate (R157). -/
def Device.bodyRead (d : Device) (a : BlockAddr) (page : Nat) (o : ReadOutcome) (data : List Byte) : Device :=
  { d with scan := { d.scan with bodies := d.scan.bodies ++
      [{ addr := a, page := page, data := match o with | .corrected _ => some data | .uncorrectable => none }] } }

/-- An erase verify of the scanner has completed (R155). -/
def Device.verifyRead (d : Device) (a : BlockAddr) (clean : Bool) : Device :=
  match d.scan.verifies.find? fun v => decide (v.addr = a) with
  | none => d
  | some v =>
    { d with scan := { d.scan with verifies := d.scan.verifies.filter fun v => decide (v.addr ≠ a) } }.setBlock a
      (scannedBlock (if clean then .free else .stale) v.stamp 0 none)

/-! ### Resolving versions (R156, R157) -/

/-- The commit record a chunk 0 block holds for its version (R156). -/
def FoundBlock.commit? (gb : List GrownBad) (f : FoundBlock) : Option CommitRecord :=
  if f.header.chunk ≠ 0 ∨ setAside gb f.addr 15 0 then none
  else
    match f.page15 with
    | .data bytes =>
      (readCommit bytes).bind fun c =>
        if c.generation = f.header.generation ∧ c.count = f.header.count ∧ c.bodyLength = f.header.bodyLength then some c
        else none
    | _ => none

/-- The commit record of the winner among the blocks of one key (R156, R158): that of the highest committed
generation, a PRIMARY's before a MIRROR's (log 37). Of two PRIMARY blocks, or two MIRROR blocks, whose valid records of
one generation differ, the one with the lower (bank, block) gives the record: the spec speaks of one commit record, and
this is the model's choice (log 52). -/
def winnerOf (gb : List GrownBad) (fs : List FoundBlock) : Option CommitRecord :=
  let inOrder := fs.filter (fun f => decide (f.header.copy = .primary))
    ++ fs.filter (fun f => decide (f.header.copy = .mirror))
  (inOrder.filterMap (FoundBlock.commit? gb)).foldl (fun best c =>
    match best with
    | none => some c
    | some x => if x.generation < c.generation then some c else best) none

/-- The candidates of one copy of one chunk of a committed generation (R156). -/
def candidatesOf (gb : List GrownBad) (fs : List FoundBlock) (c : CommitRecord) (copy : Copy) (i : Nat) :
    List FoundBlock :=
  let all := fs.filter fun f =>
    decide (f.header.generation = c.generation) && decide (f.header.chunk = i) && decide (f.header.copy = copy)
      && decide (f.header.count = c.count) && decide (f.header.bodyLength = c.bodyLength)
      && (decide (i ≠ 0) || (f.commit? gb).isSome)
  let good := all.filter fun f => !f.bad
  if good.isEmpty then all else good

/-- The candidates of every chunk of one copy, in chunk order. -/
def copyCandidates (gb : List GrownBad) (fs : List FoundBlock) (c : CommitRecord) (copy : Copy) : List (List FoundBlock) :=
  (List.range c.count).map (candidatesOf gb fs c copy)

/-- Whether a copy has a duplicate (R157). -/
def hasDuplicate (cs : List (List FoundBlock)) : Bool := cs.any fun l => decide (2 ≤ l.length)

/-- The CRC-32 of the body bytes of a candidate of chunk `k`, unless a page of it read UNCORRECTABLE (R157). -/
def chunkCrc (bodies : List BodyPage) (a : BlockAddr) (length k : Nat) : Option (BitVec 32) :=
  let pages := (List.range 13).map fun p =>
    (bodies.find? fun x => decide (x.addr = a) && decide (x.page = p + 1)).bind (·.data)
  if pages.all Option.isSome then some (crc32 ((pages.flatMap fun x => x.getD []).take (chunkLengthOf length k)))
  else none

/-- The first combination of candidates whose combined body CRC-32 is the commit record's (R157). -/
def matchingCombination (crcOf : BlockAddr → Nat → Option (BitVec 32)) (c : CommitRecord) :
    List (List FoundBlock) → Nat → BitVec 32 → Option (List FoundBlock)
  | [], _, crc => if crc = c.crc then some [] else none
  | cs :: rest, k, crc =>
    cs.findSome? fun f =>
      match crcOf f.addr k with
      | none => none
      | some x =>
        (matchingCombination crcOf c rest (k + 1) (crc32Join crc x (chunkLengthOf c.bodyLength k))).map (f :: ·)

/-- The block chosen for each chunk of a copy, and whether a duplicate was resolved without a match (R157,
log 34). -/
def chooseCopy (bodies : List BodyPage) (c : CommitRecord) (cs : List (List FoundBlock)) :
    List (Option FoundBlock) × Bool :=
  if hasDuplicate cs then
    match if cs.all (fun l => !l.isEmpty) then
        matchingCombination (fun a k => chunkCrc bodies a c.bodyLength k) c cs 0 0 else none with
    | some fs => (fs.map some, false)
    | none => (cs.map List.head?, true)
  else (cs.map List.head?, false)

/-! ### Rebuilt entries (R158, R159) -/

/-- The valid mark in a slot of a mark page (R159). -/
def validMark (gb : List GrownBad) (a : BlockAddr) (page : List Byte) (generation k : Nat) : Option Mark :=
  (readMark page k).filter fun m =>
    decide (m.generation = generation) && !setAside gb a 14 (4 * (k - 1))

/-- The mark page of a rebuilt record (R159): that of chunk-list element 0, or of the MIRROR chunk 0 when the PRIMARY's
reads UNCORRECTABLE; that MIRROR block is the candidate of the copy, which holds the commit record (log 51). -/
def markPage (zero : FoundBlock) (mirror : Option FoundBlock) : Option (BlockAddr × List Byte) :=
  match zero.page14, mirror with
  | .data bytes, _ => some (zero.addr, bytes)
  | _, some m => match m.page14 with | .data bytes => some (m.addr, bytes) | _ => none
  | _, none => none

/-- The valid marks of slots 1 to 3, in slot order. -/
def stateMarks (gb : List GrownBad) (page : Option (BlockAddr × List Byte)) (generation : Nat) : List Mark :=
  match page with
  | none => []
  | some (a, bytes) => [1, 2, 3].filterMap (validMark gb a bytes generation)

/-- Whether a mark slot counts as used (R156, R159): it is programmed, or a grown-bad entry sets it aside. -/
def slotUsed (gb : List GrownBad) (a : BlockAddr) (page : List Byte) (k : Nat) : Bool :=
  !allOnes (markSlot page k) || setAside gb a 14 (4 * (k - 1))

/-- The number of the highest slot among 1 to 3 that counts as used (R159); 3 when no mark page is readable. -/
def slotsProgrammed (gb : List GrownBad) : Option (BlockAddr × List Byte) → Nat
  | none => 3
  | some (a, bytes) =>
    if slotUsed gb a bytes 3 then 3 else if slotUsed gb a bytes 2 then 2 else if slotUsed gb a bytes 1 then 1 else 0

/-- The state, hold and marks used of a rebuilt entry (R159). Marks used is 3 when the first block is BAD, in whichever
copy (log 51). -/
def rebuiltState (gb : List GrownBad) (zero : FoundBlock) (page : Option (BlockAddr × List Byte)) (generation : Nat) :
    RecordState × Hold × Nat :=
  let marks := if zero.bad then 3 else slotsProgrammed gb page
  let purge := page.any fun x => (validMark gb x.1 x.2 generation 4).isSome
  let valid := stateMarks gb page generation
  let retired : Bool := match valid.getLast? with
    | some m => decide (m.kind = MarkKind.retire)
    | none => zero.header.retired
  if purge then (.purging, .none, 4)
  else if retired then (.retired, .none, marks)
  else (.live, if valid.any (fun m => decide (m.kind = MarkKind.freeze)) || zero.header.frozen then .frozen else .none, marks)

/-- The element of the chunk list for chunk `i` (R158). -/
def chunkElement (p m : Option FoundBlock) : Option ChunkRef :=
  match p, m with
  | some f, _ => some { addr := f.addr, copy := .primary }
  | none, some f => some { addr := f.addr, copy := .mirror }
  | none, none => none

/-- The element of the mirror list for chunk `i` (R158). -/
def mirrorElement (p m : Option FoundBlock) : Option BlockAddr :=
  match p, m with
  | some _, some f => if f.bad then none else some f.addr
  | _, _ => none

/-- Whether a rebuilt record joins the refresh set (R158, R159). Any MIRROR chunk 0 of the key and generation without a
commit record counts (log 50). -/
def rebuiltRefresh (gb : List GrownBad) (fs : List FoundBlock) (c : CommitRecord) (v : Version)
    (unmatched unreadable : Bool) : Bool :=
  let named := fs.filter fun f => v.blocks.contains f.addr
  v.mirrors.any Option.isNone
    || v.chunks.any (fun x => x.any fun r => decide (r.copy = .mirror))
    || named.any (fun f => f.bad)
    || fs.any (fun f => decide (f.header.generation = c.generation) && decide (f.header.chunk = 0)
        && decide (f.header.copy = .mirror) && (f.commit? gb).isNone)
    || !(fs.any fun f => decide (f.header.generation = c.generation) && decide (f.header.copy = .primary)
        && (f.commit? gb).isSome)
    || unmatched || unreadable
    || named.any fun f => decide (6 ≤ f.worst)

/-- The entry of a key rebuilt from its blocks, and whether it joins the refresh set (R158, R159). A key with no
committed generation gets none. -/
def rebuiltEntry (gb : List GrownBad) (bodies : List BodyPage) (mirrored : Bool) (r : RecordName)
    (fs : List FoundBlock) : Option (Entry × Bool) :=
  match winnerOf gb fs with
  | none => none
  | some c =>
    let p := chooseCopy bodies c (copyCandidates gb fs c .primary)
    let m := chooseCopy bodies c (copyCandidates gb fs c .mirror)
    let pairs := p.1.zip m.1
    match (p.1.head?.join).orElse fun _ => m.1.head?.join with
    | none => none
    | some zero =>
      let v : Version :=
        { generation := c.generation, bodyLength := c.bodyLength, frozen := zero.header.frozen,
          retired := zero.header.retired, chunks := pairs.map fun x => chunkElement x.1 x.2,
          mirrors := if mirrored then pairs.map fun x => mirrorElement x.1 x.2 else [] }
      let page := markPage zero (m.1.head?.join)
      let s := rebuiltState gb zero page c.generation
      some
        ({ name := r, state := s.1, version := v, hold := s.2.1, marks := s.2.2,
           busy := if s.1 = .purging then .purge else .none,
           damaged := (List.range c.count).filter fun i => (v.chunkAt i).isNone, retireOrder := none },
         rebuiltRefresh gb fs c v (p.2 || m.2) page.isNone)

/-- The names of the records among found blocks, ascending, each once. -/
def foundNames (fs : List FoundBlock) : List RecordName := fs.foldl (fun ns f => insertName f.header.name ns) []

/-- The blocks among the found ones that name a record. -/
def foundOf (fs : List FoundBlock) (r : RecordName) : List FoundBlock := fs.filter fun f => decide (f.header.name = r)

/-- Whether an entry may be inserted at a rebuild (R14). -/
def Device.fitsBounds (d : Device) (r : RecordName) : Bool :=
  (d.desc r.ns).enabled && decide (d.recordCount r.ns < (d.desc r.ns).recordLimit)
    && decide (d.dir.length < Config.maxEntries)

/-- The blocks of a key take their states (R158): those the entry names are ALLOCATED, every other one is STALE, each
with its owner, and a BAD one stays BAD. An estimated block carries the average of its bank's stamps so far until the
scan of its bank has ended (log 49). -/
def Device.placeFound (d : Device) (named : List BlockAddr) (f : FoundBlock) : Device :=
  if f.bad then d
  else
    d.setBlock f.addr (scannedBlock (if named.contains f.addr then .allocated else .stale) f.stamp
      (d.scan.average f.addr.bank) (some f.header.owner))

/-- One key is resolved (R158, R161). -/
def Device.resolveKey (d : Device) (fs : List FoundBlock) (r : RecordName) : Device :=
  let mine := foundOf fs r
  match if d.fitsBounds r then rebuiltEntry d.scan.grownBad d.scan.bodies (d.desc r.ns).mirrored r mine else none with
  | none => mine.foldl (fun d f => d.placeFound [] f) d
  | some (e, refresh) =>
    let d := (mine.foldl (fun d f => d.placeFound e.version.blocks f) d).insertRecord e
    if refresh then d.joinRefresh r else d

/-- Every key of the given blocks is resolved, in ascending (namespace, key) order. -/
def Device.resolveAll (d : Device) (fs : List FoundBlock) : Device :=
  (foundNames fs).foldl (fun d r => d.resolveKey fs r) d

/-! ### The stages (R160, R161) -/

/-- The found blocks that the early stage resolves. -/
def Device.earlyFound (d : Device) : List FoundBlock :=
  d.scan.found.filter fun f => decide (some f.header.name.ns = d.earlyNs)

/-- The found blocks that the full scan resolves (R160, R161): those of every namespace but the early one. -/
def Device.fullFound (d : Device) : List FoundBlock :=
  d.scan.found.filter fun f => decide (some f.header.name.ns ≠ d.earlyNs)

/-- The blocks whose bodies are read for duplicates (R157): PRIMARY copies of a key before its MIRROR copies. -/
def bodyBlocks (gb : List GrownBad) (fs : List FoundBlock) : List BlockAddr :=
  (foundNames fs).flatMap fun r =>
    let mine := foundOf fs r
    match winnerOf gb mine with
    | none => []
    | some c =>
      ([.primary, .mirror] : List Copy).flatMap fun copy =>
        let cs := copyCandidates gb mine c copy
        if hasDuplicate cs then cs.flatten.map (·.addr) else []

/-- The body reads of a bank. -/
def bodyTasks (as : List BlockAddr) (b : Bank) : List ScanTask :=
  (as.filter fun a => decide (a.bank = b)).flatMap fun a => pageTasks a.block ((List.range 13).map (· + 1))

/-- Reads of pages 14 and 15 of the chunk 0 blocks of a bank that have not been read (R156, R160). -/
def markTasks (fs : List FoundBlock) (b : Bank) : List ScanTask :=
  (fs.filter fun f => decide (f.addr.bank = b) && decide (f.header.chunk = 0) && decide (f.page14 = .unread)).flatMap
    fun f => pageTasks f.addr.block [14, 15]

/-- The erase verifies of a bank (R155). -/
def verifyTasks (vs : List PendingVerify) (b : Bank) : List ScanTask :=
  (vs.filter fun v => decide (v.addr.bank = b)).map fun v => .verify v.addr.block v.first

/-- The scan of a bank has ended: the estimated counts of its blocks are set (R155). -/
def Device.setEstimates (d : Device) (b : Bank) : Device :=
  { d with pool := { d.pool with table := d.pool.table.map fun l =>
      if l.addr.bank = b ∧ l.entry.estimated then { l with entry := { l.entry with count := d.scan.average b } } else l } }

/-- A bank whose page 0 reads are done goes on to its chunk 0 reads and verifies, and a bank whose list is done
sets its estimates. -/
def Device.scanBank (d : Device) (b : Bank) : Device :=
  if d.scan.out[b] ∨ d.scan.todo[b] ≠ [] then d
  else
    match d.scan.stage with
    | .early =>
      if d.scan.detail[b] then d
      else { d with scan := { d.scan.setTodo b (markTasks d.earlyFound b) with detail := d.scan.detail.set b true } }
    | .full =>
      let d :=
        if d.scan.detail[b] then d
        else
          { d with scan := { d.scan.setTodo b (markTasks d.scan.found b ++ verifyTasks d.scan.verifies b) with
              detail := d.scan.detail.set b true } }
      if d.scan.todo[b] = [] then d.setEstimates b else d
    | _ => d

/-- Whether every bank's list is done. -/
def Scan.allDone (s : Scan) : Bool := s.out.toList.all (!·) && s.todo.toList.all (·.isEmpty)

/-- The lists of the early stage (R160). -/
def earlyTodo : Vector (List ScanTask) 4 := #v[blockTasks 1 64, blockTasks 1 64, [], []]

/-- The lists of the full scan (R161): page 0 of every general block not yet read. -/
def Device.fullTodo (d : Device) : Vector (List ScanTask) 4 :=
  let low := if d.earlyNs.isSome then 64 else 1
  #v[blockTasks low 512, blockTasks low 512, blockTasks 1 512, blockTasks 1 512]

/-- The lists of body reads. -/
def bodyTodo (as : List BlockAddr) : Vector (List ScanTask) 4 :=
  #v[bodyTasks as 0, bodyTasks as 1, bodyTasks as 2, bodyTasks as 3]

/-- The scanner begins the full scan. The phase is EARLY from this step on (R160). -/
def Device.beginFull (d : Device) : Device :=
  { d with
    phase := .early
    scan := { d.scan with stage := .full, todo := d.fullTodo, detail := Vector.replicate 4 false, bodies := [] } }

/-- The early namespace is resolved and its entries inserted (R160). -/
def Device.finishEarly (d : Device) : Device :=
  let d := d.resolveAll d.earlyFound
  { d with scan := { d.scan with found := d.fullFound } }.beginFull

/-- The RETIRED entries take retire orders 1, 2, 3 and on in ascending (namespace, key) order (R74). -/
def numberRetired : List Entry → Nat → List Entry
  | [], _ => []
  | e :: rest, n =>
    if e.state = .retired then { e with retireOrder := some (BitVec.ofNat 64 n) } :: numberRetired rest (n + 1)
    else e :: numberRetired rest n

/-- The full scan hands the table over (R161, R99): the scrub queue, the retire orders, the urgency level without
a notice, the WORN test, and phase RESUMING. -/
def Device.handOver (d : Device) : Device :=
  let d := d.resolveAll d.fullFound
  let d : Device := { d with
    dir := numberRetired d.dir 1
    retireCounter := BitVec.ofNat 64 ((d.dir.countP fun e => decide (e.state = .retired)) + 1)
    pool := { d.pool with
      scrub := (d.pool.table.filter fun l => decide (l.entry.state = .stale)).map (·.addr) }
    scan := { Scan.cleared with stage := .finished }
    phase := .resuming }
  let d := { d with pool := { d.pool with level := d.urgency } }
  if d.wornCondition then d.enterWorn else d

/-- The scan goes to its next stage when every bank's list is done (R160, R161). -/
def Device.scanStage (d : Device) : Device :=
  if d.scan.allDone then
    match d.scan.stage with
    | .identity _ => d
    | .descriptors =>
      if d.earlyNs.isSome then
        { d with scan := { d.scan with stage := .early, todo := earlyTodo, detail := #v[false, false, true, true] } }
      else d.beginFull
    | .early =>
      match bodyBlocks d.scan.grownBad d.earlyFound with
      | [] => d.finishEarly
      | a :: as => { d with scan := { d.scan with stage := .earlyBodies, todo := bodyTodo (a :: as) } }
    | .earlyBodies => d.finishEarly
    | .full =>
      match bodyBlocks d.scan.grownBad d.fullFound with
      | [] => d.handOver
      | a :: as => { d with scan := { d.scan with stage := .fullBodies, todo := bodyTodo (a :: as) } }
    | .fullBodies => d.handOver
    | .finished => d
  else d

/-- What follows each read or verify of the scanner: the layout may be selected, the bank or the scan goes on,
and the next jobs are handed over. -/
def Device.scanOn (d : Device) (b : Bank) : Device := ((d.layoutSelected.scanBank b).scanStage).scanPump

/-- The scanner's job in a bank is over. -/
def Device.scanJobOver (d : Device) (b : Bank) : Device :=
  { d with scan := { d.scan with out := d.scan.out.set b false } }

/-- A page read of the scanner has completed (R152 to R161). -/
def Device.scanReadDone (d : Device) (b : Bank) (j : Job) (o : ReadOutcome) (data : List Byte) : Device :=
  let d := d.scanJobOver b
  let a : BlockAddr := { bank := b, block := j.block }
  let page := j.target.1
  let d :=
    if j.block = 0 then
      if page = 0 then d.identityRead b o data
      else if page ≤ 4 then d.grownBadRead b o data
      else d.layoutRead b page o data
    else if page = 0 then d.classify a o data
    else if 14 ≤ page then d.foundPage a page o data
    else d.bodyRead a page o data
  d.scanOn b

/-- An erase verify of the scanner has completed (R155). -/
def Device.scanVerifyDone (d : Device) (b : Bank) (j : Job) (clean : Bool) : Device :=
  ((d.scanJobOver b).verifyRead { bank := b, block := j.block } clean).scanOn b

/-! ### Resumed purges and the end of start-up (R162, R163) -/

/-- RESUMING is over (R163): the phase is WORN when the WORN flag is set and READY otherwise, and REBUILD_DONE is
posted to both ports. -/
def Device.endResuming (d : Device) : Device :=
  ({ d with phase := if d.pool.worn then .worn else .ready } : Device).postBoth
    { Notices.empty with rebuildDone := true }

end Sys2Proof.Machine
end

