-- ==== Sys2Proof/Machine/Settle.lean ====
section
/-!
DEFINITION. What comes about inside a step after its own effect (95, "What each step holds"): draws and grants
that can now be made, the purge's next jobs, the urgency level, demand erases, the end of RESUMING, and
the decision points of maintenance runs.
-/

namespace Sys2Proof.Machine

/-- A draw is granted to its drawer (R107). -/
def Device.drawGranted (d : Device) : Drawer → Device
  | .commit i => d.commitDrawn i
  | .reloc id => d.relocDrawn id

/-- The oldest draw is granted when it fits (R107). -/
def Device.drawStep (d : Device) : Option Device :=
  match d.pool.draws with
  | [] => none
  | x :: rest =>
    if d.placesInUse + x.places ≤ Config.allowancePlaces then
      some (({ d with pool := { d.pool with draws := rest } } : Device).drawGranted x.drawer)
    else none

/-- A grant that has been made goes to its asker (R101). -/
def Device.grantMade (d : Device) (g : Grant) (as : List BlockAddr) : Device :=
  match g.asker with
  | .put id again => d.putGranted id again as
  | .commit i => d.commitGranted i as
  | .reloc id again => d.relocGranted id again as

/-- A grant is refused (R103). -/
def Device.grantRefused (d : Device) (g : Grant) : Device :=
  match g.asker with
  | .put id _ => d.putRefused id
  | .commit i => d.commitRefused i
  | .reloc id again => d.relocRefused id again

/-- The wait list is examined when a block has become FREE or BAD, a waiting grant has been withdrawn, or a grant has
found it empty (R103, log 59). The head is made if it can be made now and refused if it can no longer be met, and the
next grant is examined in its place; otherwise the head keeps waiting, and the examination is over. -/
def Device.waitStep (d : Device) : Option Device :=
  if d.pool.recheck then
    match d.pool.waits with
    | [] => none
    | g :: rest =>
      let d' : Device := { d with pool := { d.pool with waits := rest } }
      match d.grantNow g with
      | some as => some ((d'.allocate g.requests as).grantMade g as)
      | none =>
        some (if d.grantMayWait g then { d with pool := { d.pool with recheck := false } } else d'.grantRefused g)
  else none

/-- Whether the Block Pool Manager has its table (R99, R161). -/
def Phase.poolActive : Phase → Bool
  | .resuming => true
  | .ready => true
  | .worn => true
  | .starting => false
  | .early => false
  | .halted => false

/-- The urgency level has risen to 3 (R145): a run in RUNNING that is not in its SCRUB part is interrupted, as R144
states for that case. -/
def Device.levelReached (d : Device) : Device :=
  if d.pool.level = 3 ∧ d.maint.run = .running ∧ d.inScrubPart = false then d.interruptRun else d

/-- The urgency level follows its inputs, and a rise posts URGENCY_RAISED to both ports (R114, log 20) and may interrupt
the run in progress (R145). -/
def Device.urgencyStep (d : Device) : Option Device :=
  if d.phase.poolActive ∧ d.pool.level ≠ d.urgency then
    let d' : Device := { d with pool := { d.pool with level := d.urgency } }
    some (if d.pool.level < d.urgency then (d'.postBoth { Notices.empty with urgencyRaised := true }).levelReached else d')
  else none

/-- The next demand erase of an examination (R104). -/
def Device.demandStep (d : Device) : Option Device :=
  if d.pool.examines then d.nextDemand.map fun a => d.beginScrubErase a .demand else none

/-- In RESUMING, with no purge in progress, the scanner resumes the purges of the PURGING entries in ascending
order (R162), and with none left RESUMING ends (R163). -/
def Device.resumeStep (d : Device) : Option Device :=
  if d.phase = .resuming ∧ d.purge = none then
    match (d.dir.filter fun e => decide (e.state = .purging)).map (·.name) with
    | [] => some d.endResuming
    | r :: rest =>
      some (d.beginPurgeRecord
        { flight := none, current := r, step := .erase [], rest := rest, purged := 0, overwritten := 0, skipped := 0 })
  else none

/-- The next thing that comes about within the step, if anything does (log 19). -/
def Device.standing (d : Device) : Option Device :=
  d.drawStep <|> d.waitStep <|> d.purgeStep <|> d.urgencyStep <|> d.demandStep <|> d.resumeStep <|> d.maintStep

/-- Everything that comes about within the step, one thing after another, up to a number of them. -/
def Device.settle : Nat → Device → Device
  | 0, d => d
  | n + 1, d =>
    match d.standing with
    | none => d
    | some d' => Device.settle n d'

/-- More than the number of things that can come about within one step (log 32). -/
def settleFuel : Nat := 65536

/-- The device enters WORN when the condition holds for the first time (R112). -/
def Device.wornTest (d : Device) : Device :=
  if d.phase.poolActive && !d.pool.worn && d.wornCondition then d.enterWorn else d

/-- The step is over: the blocks that joined the scrub queue in it have their places (R105, log 39), and the next
examination for demand erases, and of the wait list, awaits its cause (R103, R104, logs 56, 59). -/
def Device.stepOver (d : Device) : Device :=
  { d with pool := { d.pool with joined := [], head := d.pool.waits.head?, examine := false, recheck := false } }

/-- The end of a step: the WORN test (R112), then what comes about within the step. -/
def Device.finishStep (d : Device) : Device := (d.wornTest.settle settleFuel).stepOver

end Sys2Proof.Machine
end

