-- ==== Sys2Proof/Machine/Frames.lean ====
section
/-!
DEFINITION. The four frames (R172, R176, R177, R179, R180): SUBMIT, COLLECT, STATUS and PORT RESET.
-/

namespace Sys2Proof.Machine

/-! ### The frame codes (R180, section 11.7) -/

/-- The first byte of a COLLECT frame (section 11.7). -/
def collectCode : Byte := 0xA2
/-- The first byte of a STATUS frame (section 11.7). -/
def statusCode : Byte := 0xA3

/-- The four frames. -/
inductive FrameKind
  | submit
  | collect
  | status
  | portReset
  deriving DecidableEq, Repr

/-- The frame that a first byte begins, when it is a frame code (R180). -/
def FrameKind.ofByte (b : Byte) : Option FrameKind :=
  if b = submitCode then some .submit
  else if b = collectCode then some .collect
  else if b = statusCode then some .status
  else if b = portResetCode then some .portReset
  else none

/-- The frame that the bytes sent to a port begin (R180). -/
def frameKind (frame : List Byte) : Option FrameKind := frame.head?.bind FrameKind.ofByte

/-- The row of the table that the bytes sent to a port bring about when the frame ends, or when its response begins
(R172, R176, R177, R179). A first byte that is no frame code brings about none (R180). R180 knows a COLLECT or STATUS of
the Service Port as a write of the frame code alone; bytes that such a write sends after the code are ignored, as the
Primary Port ignores MOSI there, and it stays the COLLECT or STATUS. This is the model's choice (log 55). -/
def frameRow (p : Port) (frame : List Byte) : Option Instr :=
  (frameKind frame).map fun k =>
    match k with
    | .submit => .submit p frame
    | .collect => .collect p .begins
    | .status => .status p .begins
    | .portReset => .portReset p frame

/-- What a port sends its partner in a frame (R180): 0xFF throughout, or the response after the frame code; on the
Service Port nothing but the acknowledges of a write, or not even that of its address. -/
inductive LineOut
  | ones
  | response (bytes : List Byte)
  | acknowledged
  | notAcknowledged
  deriving DecidableEq, Repr

/-- What a port sends in a frame (R180), a view of the state before it (log 33). For a first byte that is no frame code
the rule names nothing. -/
def Device.lineOut (d : Device) (p : Port) (frame : List Byte) : Option LineOut :=
  if d.linkUp then
    (frameKind frame).map fun k =>
      match k, p with
      | .submit, .primary => .ones
      | .portReset, .primary => .ones
      | .submit, .service => .acknowledged
      | .portReset, .service => .acknowledged
      | .collect, _ => .response (collectResponse (d.port p).completions.head?)
      | .status, _ => .response (d.statusResponse p)
  else some (match p with | .primary => .ones | .service => .notAcknowledged)

/-! ### SUBMIT (R172) -/

/-- What a SUBMIT frame sets the last-submit result to (R172). -/
def Device.submitResult (d : Device) (p : Port) (frame : List Byte) : SubmitResult :=
  match parseSubmit frame with
  | none => .frameError
  | some r =>
    if (d.port p).tags.contains r.tag then .tagInUse
    else if p.depth ≤ (d.port p).requests.length then .queueFull
    else .accepted

/-- The port after a SUBMIT frame has ended (R172): an accepted request joins the request queue and its tag the
tag set. -/
def Device.submitted (d : Device) (p : Port) (frame : List Byte) : Device :=
  let s := { d.port p with lastSubmit := d.submitResult p frame }
  match d.submitResult p frame, parseSubmit frame with
  | .accepted, some r => d.setPort p { s with requests := s.requests ++ [r], tags := r.tag :: s.tags }
  | _, _ => d.setPort p s

/-- SUBMIT (R172, R180). A frame with another first byte, and any frame while the link is down, changes
nothing. -/
def execSubmit (p : Port) (frame : List Byte) (s : State) : Host.Outcome State Fault Refusal :=
  .next (if s.linkUp ∧ frameKind frame = some .submit then { s with toDevice := s.toDevice.submitted p frame } else s)

/-! ### COLLECT (R176) and STATUS (R177) -/

/-- A COLLECT response begins: its entry is chosen (R176). -/
def Device.collectBegins (d : Device) (p : Port) : Device :=
  let s := d.port p
  d.setPort p { s with transfer := .collect s.completions.head?, response := collectResponse s.completions.head? }

/-- The whole of a COLLECT response has been transferred (R173, R176): its entry leaves the queue and its tag the
tag set. -/
def Device.collectCompletes (d : Device) (p : Port) : Device :=
  let s := d.port p
  match s.transfer with
  | .collect (some c) =>
    d.setPort p { s with
      completions := s.completions.tail, tags := s.tags.filter fun t => decide (t ≠ c.tag), transfer := .none }
  | .collect none => d.setPort p { s with transfer := .none }
  | .status _ => d
  | .none => d

/-- A STATUS response begins: the notices are captured (R177). -/
def Device.statusBegins (d : Device) (p : Port) : Device :=
  let s := d.port p
  d.setPort p { s with transfer := .status s.notices, response := d.statusResponse p, since := .empty }

/-- The whole of a STATUS response has been transferred (R177): the captured notices are removed, and those posted
during the transfer stay. -/
def Device.statusCompletes (d : Device) (p : Port) : Device :=
  let s := d.port p
  match s.transfer with
  | .status captured =>
    d.setPort p { s with notices := s.notices.minus (captured.minus s.since), transfer := .none }
  | .collect _ => d
  | .none => d

/-- A response is cut short (R176, R177): nothing is removed. -/
def Device.transferCut (d : Device) (p : Port) : Device := d.setPort p { d.port p with transfer := .none }

/-- COLLECT (R176, log 23). -/
def execCollect (p : Port) (t : Transfer) (s : State) : Host.Outcome State Fault Refusal :=
  .next
    (if s.linkUp then
      match t with
      | .begins => { s with toDevice := s.toDevice.collectBegins p }
      | .completes => { s with toDevice := s.toDevice.collectCompletes p }
      | .cut => { s with toDevice := s.toDevice.transferCut p }
    else s)

/-- STATUS (R177, log 23). -/
def execStatus (p : Port) (t : Transfer) (s : State) : Host.Outcome State Fault Refusal :=
  .next
    (if s.linkUp then
      match t with
      | .begins => { s with toDevice := s.toDevice.statusBegins p }
      | .completes => { s with toDevice := s.toDevice.statusCompletes p }
      | .cut => { s with toDevice := s.toDevice.transferCut p }
    else s)

/-! ### PORT RESET (R179) -/

/-- Whether a frame is a PORT RESET with a valid CRC-16 (R179, section 11.7). One that runs past its CRC-16 is none
(log 41). -/
def portResetOk (frame : List Byte) : Bool :=
  decide (frameKind frame = some .portReset) && decide (frame.length = 3) && crc16Valid frame 3

/-- The contexts a port owns that are OPEN are abandoned (R46). -/
def Device.abandonOwned (d : Device) (p : Port) : Device :=
  allSlots.foldl (fun d i =>
    match d.ctx? i with
    | none => d
    | some c => if c.owner = p ∧ c.state = .open then d.beginAbandon i else d) d

/-- A port is reset (R179): its queues, tags, notices and last-submit result are cleared, its requests in flight
are marked for discard, its OPEN contexts are abandoned and its HELD holds released. -/
def Device.portCleared (d : Device) (p : Port) : Device :=
  let d := d.setPort p { PortState.cleared with alertEnable := (d.port p).alertEnable }
  let d : Device := { d with flights := d.flights.map fun f => if f.port = p then { f with discard := true } else f }
  (d.abandonOwned p).releaseHolds p

/-- PORT_RESET (R179). A frame with a bad CRC-16, or cut short, changes nothing. -/
def execPortReset (p : Port) (frame : List Byte) (s : State) : Host.Outcome State Fault Refusal :=
  .next (if s.linkUp ∧ portResetOk frame then { s with toDevice := (s.toDevice.portCleared p).finishStep } else s)

end Sys2Proof.Machine
end

