-- ==== Sys2Proof/Machine/DeviceRequests.lean ====
section
/-!
DEFINITION. The requests that act on the device as a whole: DEFINE NAMESPACE and COMMIT LAYOUT (R165 to
R167), HEALTH (R168), IDENTIFY (R169) and CONFIGURE (R170).
-/

namespace Sys2Proof.Machine

/-- The first two checks of the requests that only the Primary Port may make (R83, R151). -/
def Device.primaryChecks (d : Device) (p : Port) : List (Bool × Result) :=
  [(decide (p = .service), .denied), (d.phase.notReady, .notReady)]

/-! ### CONFIGURE (R170, R181) -/

/-- A field of CONFIGURE (R181): all ones leaves the setting unchanged, and any other value must be in range. -/
def fieldOk (allOnes lo hi v : Nat) : Bool := decide (v = allOnes) || decide (lo ≤ v ∧ v ≤ hi)

/-- The new value of a setting (R170, R181). -/
def fieldNew (allOnes v old : Nat) : Nat := if v = allOnes then old else v

/-- Whether a field of CONFIGURE that switches something on or off leaves it on (R181). -/
def flagNew (v : Byte) (old : Bool) : Bool := if v = 0xFF then old else decide (v = 1)

/-- Whether every new value of a CONFIGURE lies in its range (R170 check 3). -/
def configureOk (timeout : BitVec 16) (threshold mode : Byte) (spread : BitVec 16) (pa sa : Byte) : Bool :=
  fieldOk 0xFFFF 0 255 timeout.toNat && fieldOk 0xFF 4 8 threshold.toNat && fieldOk 0xFF 0 1 mode.toNat
    && fieldOk 0xFFFF 64 1024 spread.toNat && fieldOk 0xFF 0 1 pa.toNat && fieldOk 0xFF 0 1 sa.toNat

/-- The six settings as CONFIGURE leaves them (R170). -/
def Device.configured (d : Device) (timeout : BitVec 16) (threshold mode : Byte) (spread : BitVec 16) (pa sa : Byte) :
    Device :=
  { d with
    settings :=
      { timeout := fieldNew 0xFFFF timeout.toNat d.settings.timeout
        threshold := fieldNew 0xFF threshold.toNat d.settings.threshold
        mode := if mode = 0xFF then d.settings.mode else if mode = 0 then .auto else .manual
        wearSpread := fieldNew 0xFFFF spread.toNat d.settings.wearSpread }
    primary := { d.primary with alertEnable := flagNew pa d.primary.alertEnable }
    service := { d.service with alertEnable := flagNew sa d.service.alertEnable } }

/-- The reply of CONFIGURE (R170): all six settings. -/
def Device.settingsReply (d : Device) : List Byte :=
  leBytes 1 d.settings.timeout ++ leBytes 1 d.settings.threshold ++ leBytes 1 d.settings.mode.code
    ++ leBytes 2 d.settings.wearSpread ++ leBytes 1 (flagCode d.primary.alertEnable)
    ++ leBytes 1 (flagCode d.service.alertEnable)

/-- CONFIGURE, from its take (R170). -/
def Device.workConfigure (d : Device) (p : Port) (id : Nat) (timeout : BitVec 16) (threshold mode : Byte)
    (spread : BitVec 16) (pa sa : Byte) : Device :=
  match firstFailure (d.primaryChecks p ++ [(!configureOk timeout threshold mode spread pa sa, .badParameter)]) with
  | some r => d.complete id r []
  | none =>
    let d := d.configured timeout threshold mode spread pa sa
    d.complete id .ok d.settingsReply

/-! ### HEALTH (R168) and IDENTIFY (R169) -/

/-- The BAD blocks of a bank that were classified by their factory marker at the last start (R168). -/
def Device.factoryBad (d : Device) (b : Bank) : Nat :=
  d.pool.table.countP fun l => decide (l.addr.bank = b) && decide (l.entry.state = .bad) && l.entry.factory

/-- The figures of HEALTH for a bank (R168). -/
def Device.bankHealth (d : Device) (b : Bank) : List Byte :=
  leBytes 2 (d.countStateIn b .free + d.countStateIn b .allocated + d.countStateIn b .stale + d.countStateIn b .erasing)
    ++ leBytes 2 (d.factoryBad b) ++ leBytes 2 (d.countStateIn b .bad - d.factoryBad b)
    ++ leBytes 2 (d.countStateIn b .free) ++ leBytes 2 (d.countStateIn b .allocated)
    ++ leBytes 2 (d.countStateIn b .stale) ++ leBytes 2 (d.countStateIn b .erasing)
    ++ leBytes 1 d.engines[b].queue.length

/-- The average erase count over the good general blocks, rounded down (R168). -/
def Device.averageCount (d : Device) : Nat := d.goodCounts.sum / d.goodCounts.length

/-- The good general blocks whose erase count is estimated (R168). -/
def Device.estimatedCount (d : Device) : Nat :=
  d.pool.table.countP fun l => decide (l.entry.state ≠ .bad) && l.entry.estimated

/-- The reply of HEALTH (R168, log 9): the figures of banks 0 to 3, then those of the device. -/
def Device.healthReply (d : Device) : List Byte :=
  d.bankHealth 0 ++ d.bankHealth 1 ++ d.bankHealth 2 ++ d.bankHealth 3
    ++ leBytes 2 d.goodTotal ++ leSigned16 d.margin
    ++ leBytes 4 d.highestCount ++ leBytes 4 d.lowestCount ++ leBytes 4 d.averageCount
    ++ leBytes 2 d.estimatedCount ++ leBytes 1 d.pool.level.val ++ leBytes 1 (flagCode d.pool.worn)
    ++ leBytes 4 d.maint.refreshed ++ leBytes 4 d.maint.wearMoves ++ leBytes 4 d.maint.markMoves
    ++ leBytes 1 (Config.layoutPagesEnd - d.layout.nextPage) ++ leBytes 1 d.phase.code

/-- HEALTH, from its take (R168). -/
def Device.workHealth (d : Device) (id : Nat) : Device := d.complete id .ok d.healthReply

/-- The reply of IDENTIFY (R169). -/
def Device.identifyReply (d : Device) : List Byte :=
  leBytes 2 d.identity.vendor ++ leBytes 2 d.identity.part ++ leBytes 1 d.identity.revision
    ++ leBytes 8 d.identity.unique ++ leBytes 1 d.layout.version ++ leBytes 1 (flagCode d.layout.pending)

/-- IDENTIFY, from its take (R169). -/
def Device.workIdentify (d : Device) (id : Nat) : Device := d.complete id .ok d.identifyReply

/-! ### DEFINE NAMESPACE (R165) -/

/-- The descriptor the fields of a DEFINE NAMESPACE describe, when every field is in range (R165 check 4). When
the enabled field is clear, every other field is stored as zero. -/
def descOf (enabled : Byte) (limit quota : BitVec 16) (mirrored early pr sr : Byte) : Option NsDesc := do
  let enabled ← flagOf enabled.toNat
  let mirrored ← flagOf mirrored.toNat
  let early ← flagOf early.toNat
  let primary ← Right.ofCode pr.toNat
  let service ← Right.ofCode sr.toNat
  if limit.toNat ≤ 1024 ∧ quota.toNat ≤ 1792 then
    some (if enabled then
      { enabled := true, mirrored := mirrored, early := early, primaryRight := primary, serviceRight := service,
        recordLimit := limit.toNat, quota := quota.toNat }
      else NsDesc.disabled)
  else none

/-- DEFINE NAMESPACE, from its take (R165). -/
def Device.workDefine (d : Device) (p : Port) (id : Nat) (ns enabled : Byte) (limit quota : BitVec 16)
    (mirrored early pr sr : Byte) : Device :=
  match firstFailure (d.primaryChecks p ++ [(d.layout.pending, .layoutPending)]) with
  | some r => d.complete id r []
  | none =>
    match if h : ns.toNat < 8 then (descOf enabled limit quota mirrored early pr sr).map fun x => (Fin.mk ns.toNat h, x)
        else none with
    | none => d.complete id .badParameter []
    | some (n, x) =>
      { d with layout := { d.layout with staged := d.layout.staged.set n x } }.complete id .ok (descReply x)

/-! ### COMMIT LAYOUT (R166, R167) -/

/-- The sum of a figure over the enabled namespaces of a layout (R166). -/
def Layout.total (l : Layout) (f : NsDesc → Nat) : Nat := (l.toList.map fun x => if x.enabled then f x else 0).sum

/-- The early rules of a layout (R166 check 5): no enabled namespace but 0 is early, and an early namespace 0 has
a quota of at most 63 blocks per copy. -/
def Layout.earlyOk (l : Layout) : Bool :=
  (l.toList.drop 1).all (fun x => !(x.enabled && x.early))
    && (!(l[0].enabled && l[0].early) || decide (l[0].quota ≤ if l[0].mirrored then 126 else 63))

/-- Whether a staged layout passes check 5 of R166. -/
def Device.layoutFits (d : Device) (l : Layout) : Bool :=
  decide (l.total (·.recordLimit) ≤ 1024) && decide (l.total (·.quota) ≤ 1792)
    && decide (l.total (·.quota) + Config.reserveBlocks ≤ d.goodTotal) && l.earlyOk

/-- The checks of COMMIT LAYOUT (R166). -/
def Device.layoutChecks (d : Device) (p : Port) : List (Bool × Result) :=
  d.primaryChecks p ++
    [ (decide (d.phase = .worn), .worn), (d.layout.pending, .layoutPending),
      (!d.dir.isEmpty || d.slots.toList.any (·.ctx.isSome), .layoutNotEmpty),
      (!d.layoutFits d.layout.staged, .layoutInvalid),
      (decide (Config.layoutPagesEnd ≤ d.layout.nextPage), .layoutExhausted) ]

/-- The layout page program of a version into a bank's descriptor block (R167). -/
def Device.queueLayoutPage (d : Device) (b : Bank) (id v : Nat) : Device :=
  d.queueJob b (pageJob 0 (4 + v) (layoutPage v d.layout.staged) (.layoutPage id))

/-- A COMMIT LAYOUT that passed its checks (R167): the next layout page is used, a layout is pending, and the page is
programmed in bank 0 first. -/
def Device.startLayout (d : Device) (id : Nat) : Device :=
  let v := d.layout.nextPage - 4
  (({ d with layout := { d.layout with pending := true, nextPage := d.layout.nextPage + 1 } } : Device).setWork id
    (.layout v none)).queueLayoutPage 0 id v

/-- COMMIT LAYOUT, from its take (R166, R167). -/
def Device.workCommitLayout (d : Device) (p : Port) (id : Nat) : Device :=
  match firstFailure (d.layoutChecks p) with
  | some r => d.complete id r []
  | none => d.startLayout id

/-- A layout page program has completed (R167): bank 1 follows bank 0, and the request completes after it. -/
def Device.layoutPageDone (d : Device) (id : Nat) (o : OkFail) : Device :=
  match d.work? id with
  | some (.layout v none) => (d.setWork id (.layout v (some o))).queueLayoutPage 1 id v
  | some (.layout v (some first)) =>
    if first = .ok ∨ o = .ok then
      d.complete id .ok (leBytes 1 v ++ leBytes 1 (Config.layoutPagesEnd - d.layout.nextPage))
    else d.complete id .mediaFailed []
  | _ => d

end Sys2Proof.Machine
end

