-- ==== Sys2Proof/Machine/Jobs.lean ====
section
/-!
DEFINITION. The completions of array jobs and the idle timer: one row for each. A completion acts when the job
in progress of its bank is one of the row's own; otherwise nothing changes (log 1).
-/

namespace Sys2Proof.Machine

/-- The job in progress of a bank, while the part runs. -/
def State.jobIn (s : State) (b : Bank) : Option Job := if s.power = .running then s.engines[b].current else none

/-- The device at the end of a step in which a bank's job has completed: the end of the step, and then the engine
takes its next job (R123). -/
def Device.jobOver (d : Device) (b : Bank) : Device := d.finishStep.advance b

/-- A step in which a program or erase completes: what it leaves in the array (R121), then what its queuer does. An
erase calls for an examination for demand erases (R104). -/
def State.programDone (s : State) (b : Bank) (o : OkFail) (work : Device → Job → Option Device) : State :=
  match s.jobIn b with
  | none => s
  | some j =>
    match work s.toDevice j with
    | none => s
    | some d => { s.jobWorked b j o with toDevice := (d.eraseOver j).jobOver b }

/-- The block a job of a bank targets. -/
def Job.addr (j : Job) (b : Bank) : BlockAddr := { bank := b, block := j.block }

/-- A step in which a page read completes: its queuer gets the page's bytes (R116), and the free values move on
(log 6). -/
def State.readDone (s : State) (b : Bank) (work : Device → Job → List Byte → Option Device) : State :=
  match s.jobIn b with
  | none => s
  | some j =>
    match work s.toDevice j (pageBytes s (j.addr b) j.target.1) with
    | none => s
    | some d => { s with fresh := s.fresh + 1, toDevice := d.jobOver b }

/-- A step in which an erase verify completes: its queuer learns whether every bit was one (R121), and pages of which
every bit was one are erased. -/
def State.verifyDone (s : State) (b : Bank) (o : OkFail) (work : Device → Job → Bool → Option Device) : State :=
  match s.jobIn b with
  | none => s
  | some j =>
    match work s.toDevice j (s.verifyPasses (j.addr b) j.target.1 o) with
    | none => s
    | some d => { s.jobWorked b j o with toDevice := (d.eraseOver j).jobOver b }

/-! ### Puts and commits -/

/-- What a put does with its job's completion. -/
def Device.onPut (d : Device) (b : Bank) (o : OkFail) (j : Job) : Option Device :=
  match j.by_ with
  | .put id copy => some (d.putProgramDone b j id copy o)
  | _ => none

/-- What a commit does with its commit record's completion. -/
def Device.onCommitRecord (d : Device) (b : Bank) (o : OkFail) (j : Job) : Option Device :=
  match j.by_ with
  | .commitRecord i => some (d.commitRecordDone b j i o)
  | _ => none

/-- What a commit does with its MIRROR commit record's completion. -/
def Device.onMirrorCommitRecord (d : Device) (b : Bank) (o : OkFail) (j : Job) : Option Device :=
  match j.by_ with
  | .mirrorCommitRecord i => some (d.mirrorCommitRecordDone b j i o)
  | _ => none

/-- What commit attempt 2 does with a page read. -/
def Device.onCommitCopyRead (d : Device) (o : ReadOutcome) (j : Job) (data : List Byte) : Option Device :=
  match j.by_ with
  | .commitCopyRead i copy => some (d.commitCopyReadDone i copy o data)
  | _ => none

/-- What commit attempt 2 does with a program. -/
def Device.onCommitCopyProgram (d : Device) (b : Bank) (o : OkFail) (j : Job) : Option Device :=
  match j.by_ with
  | .commitCopyProgram i => some (d.commitCopyProgramDone b j i o)
  | _ => none

/-- PUT_PROGRAM_DONE (R32, R34, R35, R42). -/
def execPutProgramDone (b : Bank) (o : OkFail) (s : State) : Host.Outcome State Fault Refusal :=
  .next (s.programDone b o fun d j => d.onPut b o j)

/-- COMMIT_RECORD_DONE (R37, R39). -/
def execCommitRecordDone (b : Bank) (o : OkFail) (s : State) : Host.Outcome State Fault Refusal :=
  .next (s.programDone b o fun d j => d.onCommitRecord b o j)

/-- MIRROR_COMMIT_RECORD_DONE (R37, R38). -/
def execMirrorCommitRecordDone (b : Bank) (o : OkFail) (s : State) : Host.Outcome State Fault Refusal :=
  .next (s.programDone b o fun d j => d.onMirrorCommitRecord b o j)

/-- COMMIT_COPY_READ_DONE (R39, R40). -/
def execCommitCopyReadDone (b : Bank) (o : ReadOutcome) (s : State) : Host.Outcome State Fault Refusal :=
  .next (s.readDone b fun d j data => d.onCommitCopyRead o j data)

/-- COMMIT_COPY_PROGRAM_DONE (R39, R40). -/
def execCommitCopyProgramDone (b : Bank) (o : OkFail) (s : State) : Host.Outcome State Fault Refusal :=
  .next (s.programDone b o fun d j => d.onCommitCopyProgram b o j)

/-! ### Marks -/

/-- What mark work does with its PRIMARY mark's completion. -/
def Device.onMark (d : Device) (b : Bank) (o : OkFail) (j : Job) : Option Device :=
  match j.by_ with
  | .mark id => some (d.markProgramDone b j id o)
  | _ => none

/-- What mark work does with its MIRROR mark's completion. -/
def Device.onMirrorMark (d : Device) (b : Bank) (o : OkFail) (j : Job) : Option Device :=
  match j.by_ with
  | .mirrorMark id => some (d.mirrorMarkDone b j id o)
  | _ => none

/-- MARK_PROGRAM_DONE (R66, R67). -/
def execMarkProgramDone (b : Bank) (o : OkFail) (s : State) : Host.Outcome State Fault Refusal :=
  .next (s.programDone b o fun d j => d.onMark b o j)

/-- MIRROR_MARK_PROGRAM_DONE (R66). -/
def execMirrorMarkProgramDone (b : Bank) (o : OkFail) (s : State) : Host.Outcome State Fault Refusal :=
  .next (s.programDone b o fun d j => d.onMirrorMark b o j)

/-! ### Relocations -/

/-- What a relocation of mark work (`maint` false) or of the Maintenance Unit (`maint` true) does with a page
read. -/
def Device.onRelocRead (d : Device) (maint : Bool) (o : ReadOutcome) (free : BitVec 32) (j : Job) (data : List Byte) :
    Option Device :=
  match j.by_ with
  | .relocRead id chunk page copy =>
    if decide (id = .maint) = maint then some (d.relocReadDone id chunk page copy o data free) else none
  | _ => none

/-- What a relocation does with a program into a new block. -/
def Device.onRelocProgram (d : Device) (maint : Bool) (b : Bank) (o : OkFail) (j : Job) : Option Device :=
  match j.by_ with
  | .relocProgram id copy => if decide (id = .maint) = maint then some (d.relocProgramDone b j id copy o) else none
  | _ => none

/-- What a relocation does with its PRIMARY commit record's completion. -/
def Device.onRelocCommit (d : Device) (maint : Bool) (b : Bank) (o : OkFail) (j : Job) : Option Device :=
  match j.by_ with
  | .relocCommit id => if decide (id = .maint) = maint then some (d.relocCommitDone b j id o) else none
  | _ => none

/-- What a relocation does with its MIRROR commit record's completion. -/
def Device.onRelocMirrorCommit (d : Device) (maint : Bool) (b : Bank) (o : OkFail) (j : Job) : Option Device :=
  match j.by_ with
  | .relocMirrorCommit id => if decide (id = .maint) = maint then some (d.relocMirrorCommitDone b j id o) else none
  | _ => none

/-- MARK_RELOCATION_READ_DONE (R69). -/
def execMarkRelocationReadDone (b : Bank) (o : ReadOutcome) (s : State) : Host.Outcome State Fault Refusal :=
  .next (s.readDone b fun d j data => d.onRelocRead false o (Config.freeCrc s.fresh) j data)

/-- MARK_RELOCATION_PROGRAM_DONE (R69). -/
def execMarkRelocationProgramDone (b : Bank) (o : OkFail) (s : State) : Host.Outcome State Fault Refusal :=
  .next (s.programDone b o fun d j => d.onRelocProgram false b o j)

/-- MARK_RELOCATION_COMMIT_DONE (R69). -/
def execMarkRelocationCommitDone (b : Bank) (o : OkFail) (s : State) : Host.Outcome State Fault Refusal :=
  .next (s.programDone b o fun d j => d.onRelocCommit false b o j)

/-- MARK_RELOCATION_MIRROR_COMMIT_DONE (R38, R69). -/
def execMarkRelocationMirrorCommitDone (b : Bank) (o : OkFail) (s : State) : Host.Outcome State Fault Refusal :=
  .next (s.programDone b o fun d j => d.onRelocMirrorCommit false b o j)

/-- RELOCATION_READ_DONE (R141). -/
def execRelocationReadDone (b : Bank) (o : ReadOutcome) (s : State) : Host.Outcome State Fault Refusal :=
  .next (s.readDone b fun d j data => d.onRelocRead true o (Config.freeCrc s.fresh) j data)

/-- RELOCATION_PROGRAM_DONE (R141). -/
def execRelocationProgramDone (b : Bank) (o : OkFail) (s : State) : Host.Outcome State Fault Refusal :=
  .next (s.programDone b o fun d j => d.onRelocProgram true b o j)

/-- RELOCATION_COMMIT_DONE (R142). -/
def execRelocationCommitDone (b : Bank) (o : OkFail) (s : State) : Host.Outcome State Fault Refusal :=
  .next (s.programDone b o fun d j => d.onRelocCommit true b o j)

/-- RELOCATION_MIRROR_COMMIT_DONE (R142). -/
def execRelocationMirrorCommitDone (b : Bank) (o : OkFail) (s : State) : Host.Outcome State Fault Refusal :=
  .next (s.programDone b o fun d j => d.onRelocMirrorCommit true b o j)

/-! ### Reads -/

/-- What a READ does with a page. -/
def Device.onReadPage (d : Device) (o : ReadOutcome) (j : Job) (data : List Byte) : Option Device :=
  match j.by_ with
  | .readPage id chunk page copy => some (d.readPageDone id chunk page copy o data)
  | _ => none

/-- What a CHECK does with a page. -/
def Device.onCheckPage (d : Device) (o : ReadOutcome) (j : Job) (data : List Byte) : Option Device :=
  match j.by_ with
  | .checkPage id chunk page copy => some (d.checkPageDone id chunk page copy o data)
  | _ => none

/-- READ_PAGE_DONE (R54, R56 to R59). -/
def execReadPageDone (b : Bank) (o : ReadOutcome) (s : State) : Host.Outcome State Fault Refusal :=
  .next (s.readDone b fun d j data => d.onReadPage o j data)

/-- CHECK_PAGE_DONE (R55 to R59). -/
def execCheckPageDone (b : Bank) (o : ReadOutcome) (s : State) : Host.Outcome State Fault Refusal :=
  .next (s.readDone b fun d j data => d.onCheckPage o j data)

/-! ### Erasure -/

/-- What the Block Pool Manager does with the erase of a scrub-queue block. -/
def Device.onScrubErase (d : Device) (b : Bank) (o : OkFail) (j : Job) : Option Device :=
  if j.by_ = .scrubErase then some (d.scrubEraseDone b j o) else none

/-- What the Block Pool Manager does with a wear stamp. -/
def Device.onWearStamp (d : Device) (b : Bank) (o : OkFail) (j : Job) : Option Device :=
  if j.by_ = .wearStamp then some (d.wearStampDone b j o) else none

/-- SCRUB_ERASE_DONE (R106, R77). -/
def execScrubEraseDone (b : Bank) (o : OkFail) (s : State) : Host.Outcome State Fault Refusal :=
  .next (s.programDone b o fun d j => d.onScrubErase b o j)

/-- WEAR_STAMP_DONE (R106, R77). -/
def execWearStampDone (b : Bank) (o : OkFail) (s : State) : Host.Outcome State Fault Refusal :=
  .next (s.programDone b o fun d j => d.onWearStamp b o j)

/-! ### Purge -/

/-- What a purge does with its mark. -/
def Device.onPurgeMark (d : Device) (b : Bank) (o : OkFail) (j : Job) : Option Device :=
  if j.by_ = .purgeMark then some (d.purgeMarkDone b j o) else none

/-- What a purge does with its erase. -/
def Device.onPurgeErase (d : Device) (b : Bank) (o : OkFail) (j : Job) : Option Device :=
  if j.by_ = .purgeErase then some (d.purgeEraseDone b j o) else none

/-- What a purge does with its verify. -/
def Device.onPurgeVerify (d : Device) (b : Bank) (j : Job) (clean : Bool) : Option Device :=
  if j.by_ = .purgeVerify then some (d.purgeVerifyDone b j clean) else none

/-- What a purge does with a page of its overwrite. -/
def Device.onPurgeOverwrite (d : Device) (b : Bank) (j : Job) : Option Device :=
  if j.by_ = .purgeOverwrite then some (d.purgeOverwriteDone b j) else none

/-- PURGE_MARK_DONE (R76). -/
def execPurgeMarkDone (b : Bank) (o : OkFail) (s : State) : Host.Outcome State Fault Refusal :=
  .next (s.programDone b o fun d j => d.onPurgeMark b o j)

/-- PURGE_ERASE_DONE (R78). -/
def execPurgeEraseDone (b : Bank) (o : OkFail) (s : State) : Host.Outcome State Fault Refusal :=
  .next (s.programDone b o fun d j => d.onPurgeErase b o j)

/-- PURGE_VERIFY_DONE (R78). -/
def execPurgeVerifyDone (b : Bank) (o : OkFail) (s : State) : Host.Outcome State Fault Refusal :=
  .next (s.verifyDone b o fun d j clean => d.onPurgeVerify b j clean)

/-- PURGE_OVERWRITE_DONE (R78, R125): the outcome is not tested. -/
def execPurgeOverwriteDone (b : Bank) (o : OkFail) (s : State) : Host.Outcome State Fault Refusal :=
  .next (s.programDone b o fun d j => d.onPurgeOverwrite b j)

/-! ### Descriptor programs -/

/-- The Block Pool Manager does nothing with a grown-bad entry's completion: its slot counts as used either way
(R110). -/
def Device.onGrownBad (d : Device) (j : Job) : Option Device := if j.by_ = .grownBad then some d else none

/-- What a COMMIT LAYOUT does with a layout page's completion. -/
def Device.onLayoutPage (d : Device) (o : OkFail) (j : Job) : Option Device :=
  match j.by_ with
  | .layoutPage id => some (d.layoutPageDone id o)
  | _ => none

/-- GROWN_BAD_ENTRY_DONE (R110). -/
def execGrownBadEntryDone (b : Bank) (o : OkFail) (s : State) : Host.Outcome State Fault Refusal :=
  .next (s.programDone b o fun d j => d.onGrownBad j)

/-- LAYOUT_PAGE_PROGRAM_DONE (R167). -/
def execLayoutPageProgramDone (b : Bank) (o : OkFail) (s : State) : Host.Outcome State Fault Refusal :=
  .next (s.programDone b o fun d j => d.onLayoutPage o j)

/-! ### The scanner -/

/-- What the scanner does with a page. -/
def Device.onScanRead (d : Device) (b : Bank) (o : ReadOutcome) (j : Job) (data : List Byte) : Option Device :=
  if j.by_ = .scanRead then some (d.scanReadDone b j o data) else none

/-- What the scanner does with an erase verify. -/
def Device.onScanVerify (d : Device) (b : Bank) (j : Job) (clean : Bool) : Option Device :=
  if j.by_ = .scanVerify then some (d.scanVerifyDone b j clean) else none

/-- SCAN_READ_DONE (R152 to R161). -/
def execScanReadDone (b : Bank) (o : ReadOutcome) (s : State) : Host.Outcome State Fault Refusal :=
  .next (s.readDone b fun d j data => d.onScanRead b o j data)

/-- SCAN_VERIFY_DONE (R155). -/
def execScanVerifyDone (b : Bank) (o : OkFail) (s : State) : Host.Outcome State Fault Refusal :=
  .next (s.verifyDone b o fun d j clean => d.onScanVerify b j clean)

/-! ### The idle timer -/

/-- Whether the idle timer of a slot runs (R43). -/
def Device.timerRuns (d : Device) (i : SlotIndex) : Bool :=
  (d.ctx? i).any fun c => decide (c.state = .open) && c.timer.isSome

/-- IDLE_TIMER_EXPIRY (R44). -/
def execIdleTimerExpiry (i : SlotIndex) (s : State) : Host.Outcome State Fault Refusal :=
  .next
    (if s.power = .running ∧ s.timerRuns i then { s with toDevice := (s.toDevice.timerExpired i).finishStep } else s)

end Sys2Proof.Machine
end

