-- ==== Sys2Proof/Machine/Power.lean ====
section
/-!
DEFINITION. Power and resets (R127, R128, R150, section 11.9): the RESET_N pin, cold start and power loss, the
draining of the Bank Engines, and the entry into STARTING.
-/

namespace Sys2Proof.Machine

/-- The Service Port address that the strapping pins give (section 11.9): 0x38 + 2 × ADDR1 + ADDR0. -/
def strapAddress (straps : BitVec 2) : BitVec 7 := 0x38 + straps.setWidth 7

/-- The part enters STARTING (R150): everything volatile is at its start value, the address pins are sampled, and
the scanner's first read is handed over (R152). -/
def Device.enterStarting (d : Device) : Device :=
  ({ Device.blank with
      power := .running, resetLow := d.resetLow, straps := d.straps, serviceAddress := strapAddress d.straps
      scan := Scan.cleared.setTodo 0 (pageTasks 0 [0]) } : Device).scanPump

/-- A reset is over when the four engines hold no job and RESET_N is high (R150). -/
def Device.tryStart (d : Device) : Device :=
  if d.power = .draining ∧ d.engines.toList.all (fun e => e.current.isNone) ∧ d.resetLow = false then d.enterStarting
  else d

/-- A warm reset begins (R128, R150): everything but the jobs in progress is discarded. -/
def Device.beginReset (d : Device) : Device :=
  ({ Device.blank with
      power := .draining, resetLow := d.resetLow, straps := d.straps, serviceAddress := d.serviceAddress
      engines := d.engines.map fun e => { Engine.idle with current := e.current } } : Device).tryStart

/-- RESET_N is driven low (R150): it begins a warm reset, or joins one that is draining already. -/
def Device.assertReset (d : Device) : Device :=
  let d : Device := { d with resetLow := true }
  match d.power with
  | .running => d.beginReset
  | .draining => d
  | .off => d

/-- RESET_N is released (R150). -/
def Device.releaseReset (d : Device) : Device := ({ d with resetLow := false } : Device).tryStart

/-- Power reaches the part (R127, R150). With RESET_N low it is held in reset. -/
def Device.coldStart (d : Device) : Device :=
  match d.power with
  | .off => ({ d with power := .draining, engines := Vector.replicate 4 .idle } : Device).tryStart
  | .draining => d
  | .running => d

/-- Power is lost (R127): everything outside the array is gone. The pins are outside. -/
def Device.powerOff (d : Device) : Device :=
  { Device.blank with resetLow := d.resetLow, straps := d.straps, serviceAddress := d.serviceAddress }

/-- What the jobs in progress leave in the array when power is lost (R127). -/
def State.cutJobs (s : State) : State :=
  allBanks.foldl (fun s b => match s.engines[b].current with | none => s | some j => s.jobCut b j) s

/-- RESET_N_ASSERTED (R150). -/
def execResetNAsserted (s : State) : Host.Outcome State Fault Refusal :=
  .next (if s.resetLow then s else { s with toDevice := s.toDevice.assertReset })

/-- RESET_N_RELEASED (R150). -/
def execResetNReleased (s : State) : Host.Outcome State Fault Refusal :=
  .next (if s.resetLow then { s with toDevice := s.toDevice.releaseReset } else s)

/-- COLD_START (R127, R150). -/
def execColdStart (s : State) : Host.Outcome State Fault Refusal :=
  .next { s with toDevice := s.toDevice.coldStart }

/-- POWER_LOSS (R127): each job in progress is cut short. -/
def execPowerLoss (s : State) : Host.Outcome State Fault Refusal :=
  .next (if s.power = .off then s else { s.cutJobs with toDevice := s.toDevice.powerOff })

/-- The job in progress of a bank is over while a warm reset drains (R128): its completion is reported to no
block. -/
def Device.drained (d : Device) (b : Bank) : Device :=
  ({ d with engines := d.engines.set b .idle } : Device).tryStart

/-- DRAIN_JOB_DONE (R128). -/
def execDrainJobDone (b : Bank) (o : OkFail) (s : State) : Host.Outcome State Fault Refusal :=
  .next
    (match s.engines[b].current with
    | none => s
    | some j =>
      if s.power = .draining then
        { s.drainWorked b j o with toDevice := s.toDevice.drained b }
      else s)

end Sys2Proof.Machine
end

