-- ==== Sys2Proof/Machine/Takes.lean ====
section
/-!
DEFINITION. The taking of requests (R174, log 1), and the 22 rows that each take a request of one kind.
-/

namespace Sys2Proof.Machine

/-- Whether the Record Controller can take from a port (R174). -/
def Device.canTake (d : Device) (p : Port) : Bool :=
  !(d.port p).requests.isEmpty && decide (d.flights.length < Config.maxInFlight)
    && decide ((d.port p).completions.length + d.reserved p < p.depth)

/-- The port the next request is taken from (R174). -/
def Device.nextPort (d : Device) : Option Port :=
  match d.canTake .primary, d.canTake .service with
  | true, true => some d.turn
  | true, false => some .primary
  | false, true => some .service
  | false, false => none

/-- The next request to be taken, with its port (R174). Nothing is taken without power or while a warm reset
drains (R150). -/
def Device.nextTake (d : Device) : Option (Port × Request) :=
  if d.power = .running then
    match d.nextPort with
    | none => none
    | some p => (d.port p).requests.head?.map fun r => (p, r)
  else none

/-- A request moves into the in-flight set and reserves a completion slot, and the turn passes (R174). -/
def Device.takeIn (d : Device) (p : Port) (r : Request) : Device :=
  { d.setPort p { d.port p with requests := (d.port p).requests.tail } with
    flights := d.flights ++
      [{ id := d.newFlightId, port := p, tag := r.tag, kind := r.body.kind, discard := false, work := .taken }]
    turn := p.other }

/-- The end of a step that has taken a request: the interruption of a run that was in progress before it (R144,
log 31), and then the end of the step. -/
def Device.takeEnd (d after : Device) : Device :=
  (if d.maint.run = .idle then after else after.interruptRun).finishStep

/-- A step that takes a request of a kind: the take, the request's own work, and the end of the step. With no
request to take, or a next request of another kind, nothing changes (log 1). -/
def Device.takes (d : Device) (k : RequestKind) (work : Device → Port → Nat → Req → Device) : Device :=
  match d.nextTake with
  | none => d
  | some (p, r) =>
    if r.body.kind = k then d.takeEnd (work (d.takeIn p r) p d.newFlightId r.body) else d

/-- FIND (R19, R20). -/
def Device.doFind (d : Device) (p : Port) (id : Nat) : Req → Device
  | .find ns key => d.workFind p id ns key
  | _ => d

/-- LIST (R19, R21). -/
def Device.doList (d : Device) (p : Port) (id : Nat) : Req → Device
  | .list ns start count => d.workList p id ns start count
  | _ => d

/-- READ (R49, R51 to R54). -/
def Device.doRead (d : Device) (p : Port) (id : Nat) : Req → Device
  | .read ns key offset length => d.workRead p id ns key offset length
  | _ => d

/-- CHECK (R50, R55). -/
def Device.doCheck (d : Device) (p : Port) (id : Nat) : Req → Device
  | .check ns key => d.workCheck p id ns key
  | _ => d

/-- OPEN UPDATE (R26 to R29). -/
def Device.doOpen (d : Device) (p : Port) (id : Nat) : Req → Device
  | .openUpdate ns key length mode => d.workOpen p id ns key length mode
  | _ => d

/-- PUT CHUNK (R30, R31). -/
def Device.doPut (d : Device) (p : Port) (id : Nat) : Req → Device
  | .putChunk handle index data => d.workPut p id handle index data
  | _ => d

/-- COMMIT (R36). -/
def Device.doCommit (d : Device) (p : Port) (id : Nat) : Req → Device
  | .commit handle => d.workCommit p id handle
  | _ => d

/-- ABANDON (R42). -/
def Device.doAbandon (d : Device) (p : Port) (id : Nat) : Req → Device
  | .abandon handle => d.workAbandon p id handle
  | _ => d

/-- RETIRE (R71). -/
def Device.doRetire (d : Device) (p : Port) (id : Nat) : Req → Device
  | .retire ns key => d.workRetire p id ns key
  | _ => d

/-- RESTORE (R73). -/
def Device.doRestore (d : Device) (p : Port) (id : Nat) : Req → Device
  | .restore ns key => d.workRestore p id ns key
  | _ => d

/-- PURGE (R75). -/
def Device.doPurge (d : Device) (p : Port) (id : Nat) : Req → Device
  | .purge => d.workPurge p id
  | _ => d

/-- HOLD (R85). -/
def Device.doHold (d : Device) (p : Port) (id : Nat) : Req → Device
  | .hold ns key => d.workHold p id ns key
  | _ => d

/-- RELEASE (R86). -/
def Device.doRelease (d : Device) (p : Port) (id : Nat) : Req → Device
  | .release ns key => d.workRelease p id ns key
  | _ => d

/-- FREEZE (R88). -/
def Device.doFreeze (d : Device) (p : Port) (id : Nat) : Req → Device
  | .freeze ns key => d.workFreeze p id ns key
  | _ => d

/-- LOCK NAMESPACE (R91). -/
def Device.doLock (d : Device) (p : Port) (id : Nat) : Req → Device
  | .lockNamespace ns => d.workLock p id ns
  | _ => d

/-- CONFIGURE (R170). -/
def Device.doConfigure (d : Device) (p : Port) (id : Nat) : Req → Device
  | .configure timeout threshold mode spread pa sa => d.workConfigure p id timeout threshold mode spread pa sa
  | _ => d

/-- MAINTAIN (R135). -/
def Device.doMaintain (d : Device) (p : Port) (id : Nat) : Req → Device
  | .maintain => d.workMaintain p id
  | _ => d

/-- HEALTH (R168). -/
def Device.doHealth (d : Device) (_ : Port) (id : Nat) : Req → Device
  | .health => d.workHealth id
  | _ => d

/-- IDENTIFY (R169). -/
def Device.doIdentify (d : Device) (_ : Port) (id : Nat) : Req → Device
  | .identify => d.workIdentify id
  | _ => d

/-- DEFINE NAMESPACE (R165). -/
def Device.doDefine (d : Device) (p : Port) (id : Nat) : Req → Device
  | .defineNamespace ns enabled limit quota mirrored early pr sr =>
    d.workDefine p id ns enabled limit quota mirrored early pr sr
  | _ => d

/-- COMMIT LAYOUT (R166, R167). -/
def Device.doCommitLayout (d : Device) (p : Port) (id : Nat) : Req → Device
  | .commitLayout => d.workCommitLayout p id
  | _ => d

/-- RESET (R83, R150, R151): DENIED from the Service Port, NOT_READY in HALTED, and otherwise a warm reset. -/
def Device.doReset (d : Device) (p : Port) (id : Nat) : Req → Device
  | .reset =>
    match p with
    | .service => d.complete id .denied []
    | .primary => if d.phase = .halted then d.complete id .notReady [] else d.beginReset
  | _ => d

/-- The row FIND. -/
def execFind (s : State) : Host.Outcome State Fault Refusal :=
  .next { s with toDevice := s.toDevice.takes .find Device.doFind }

/-- The row LIST. -/
def execList (s : State) : Host.Outcome State Fault Refusal :=
  .next { s with toDevice := s.toDevice.takes .list Device.doList }

/-- The row READ. -/
def execRead (s : State) : Host.Outcome State Fault Refusal :=
  .next { s with toDevice := s.toDevice.takes .read Device.doRead }

/-- The row CHECK. -/
def execCheck (s : State) : Host.Outcome State Fault Refusal :=
  .next { s with toDevice := s.toDevice.takes .check Device.doCheck }

/-- The row OPEN_UPDATE. -/
def execOpenUpdate (s : State) : Host.Outcome State Fault Refusal :=
  .next { s with toDevice := s.toDevice.takes .openUpdate Device.doOpen }

/-- The row PUT_CHUNK. -/
def execPutChunk (s : State) : Host.Outcome State Fault Refusal :=
  .next { s with toDevice := s.toDevice.takes .putChunk Device.doPut }

/-- The row COMMIT. -/
def execCommit (s : State) : Host.Outcome State Fault Refusal :=
  .next { s with toDevice := s.toDevice.takes .commit Device.doCommit }

/-- The row ABANDON. -/
def execAbandon (s : State) : Host.Outcome State Fault Refusal :=
  .next { s with toDevice := s.toDevice.takes .abandon Device.doAbandon }

/-- The row RETIRE. -/
def execRetire (s : State) : Host.Outcome State Fault Refusal :=
  .next { s with toDevice := s.toDevice.takes .retire Device.doRetire }

/-- The row RESTORE. -/
def execRestore (s : State) : Host.Outcome State Fault Refusal :=
  .next { s with toDevice := s.toDevice.takes .restore Device.doRestore }

/-- The row PURGE. -/
def execPurge (s : State) : Host.Outcome State Fault Refusal :=
  .next { s with toDevice := s.toDevice.takes .purge Device.doPurge }

/-- The row HOLD. -/
def execHold (s : State) : Host.Outcome State Fault Refusal :=
  .next { s with toDevice := s.toDevice.takes .hold Device.doHold }

/-- The row RELEASE. -/
def execRelease (s : State) : Host.Outcome State Fault Refusal :=
  .next { s with toDevice := s.toDevice.takes .release Device.doRelease }

/-- The row FREEZE. -/
def execFreeze (s : State) : Host.Outcome State Fault Refusal :=
  .next { s with toDevice := s.toDevice.takes .freeze Device.doFreeze }

/-- The row LOCK_NAMESPACE. -/
def execLockNamespace (s : State) : Host.Outcome State Fault Refusal :=
  .next { s with toDevice := s.toDevice.takes .lockNamespace Device.doLock }

/-- The row CONFIGURE. -/
def execConfigure (s : State) : Host.Outcome State Fault Refusal :=
  .next { s with toDevice := s.toDevice.takes .configure Device.doConfigure }

/-- The row MAINTAIN. -/
def execMaintain (s : State) : Host.Outcome State Fault Refusal :=
  .next { s with toDevice := s.toDevice.takes .maintain Device.doMaintain }

/-- The row HEALTH. -/
def execHealth (s : State) : Host.Outcome State Fault Refusal :=
  .next { s with toDevice := s.toDevice.takes .health Device.doHealth }

/-- The row IDENTIFY. -/
def execIdentify (s : State) : Host.Outcome State Fault Refusal :=
  .next { s with toDevice := s.toDevice.takes .identify Device.doIdentify }

/-- The row DEFINE_NAMESPACE. -/
def execDefineNamespace (s : State) : Host.Outcome State Fault Refusal :=
  .next { s with toDevice := s.toDevice.takes .defineNamespace Device.doDefine }

/-- The row COMMIT_LAYOUT. -/
def execCommitLayout (s : State) : Host.Outcome State Fault Refusal :=
  .next { s with toDevice := s.toDevice.takes .commitLayout Device.doCommitLayout }

/-- The row RESET. -/
def execReset (s : State) : Host.Outcome State Fault Refusal :=
  .next { s with toDevice := s.toDevice.takes .reset Device.doReset }

end Sys2Proof.Machine
end

