-- ==== Sys2Proof/Machine/Dispatch.lean ====
section
/-!
DEFINITION. One arm per command, each one call of its meaning.
-/

namespace Sys2Proof.Machine

def exec (i : Instr) (s : State) : Host.Outcome State Fault Refusal :=
  match i with
  -- frames
  | .submit port frame => Sys2Proof.Machine.execSubmit port frame s
  | .collect port transfer => Sys2Proof.Machine.execCollect port transfer s
  | .status port transfer => Sys2Proof.Machine.execStatus port transfer s
  | .portReset port frame => Sys2Proof.Machine.execPortReset port frame s
  -- takes
  | .find => Sys2Proof.Machine.execFind s
  | .list => Sys2Proof.Machine.execList s
  | .read => Sys2Proof.Machine.execRead s
  | .check => Sys2Proof.Machine.execCheck s
  | .openUpdate => Sys2Proof.Machine.execOpenUpdate s
  | .putChunk => Sys2Proof.Machine.execPutChunk s
  | .commit => Sys2Proof.Machine.execCommit s
  | .abandon => Sys2Proof.Machine.execAbandon s
  | .retire => Sys2Proof.Machine.execRetire s
  | .restore => Sys2Proof.Machine.execRestore s
  | .purge => Sys2Proof.Machine.execPurge s
  | .hold => Sys2Proof.Machine.execHold s
  | .release => Sys2Proof.Machine.execRelease s
  | .freeze => Sys2Proof.Machine.execFreeze s
  | .lockNamespace => Sys2Proof.Machine.execLockNamespace s
  | .configure => Sys2Proof.Machine.execConfigure s
  | .maintain => Sys2Proof.Machine.execMaintain s
  | .health => Sys2Proof.Machine.execHealth s
  | .identify => Sys2Proof.Machine.execIdentify s
  | .defineNamespace => Sys2Proof.Machine.execDefineNamespace s
  | .commitLayout => Sys2Proof.Machine.execCommitLayout s
  | .reset => Sys2Proof.Machine.execReset s
  -- power and resets
  | .resetNAsserted => Sys2Proof.Machine.execResetNAsserted s
  | .resetNReleased => Sys2Proof.Machine.execResetNReleased s
  | .coldStart => Sys2Proof.Machine.execColdStart s
  | .powerLoss => Sys2Proof.Machine.execPowerLoss s
  | .drainJobDone bank outcome => Sys2Proof.Machine.execDrainJobDone bank outcome s
  -- the idle timer and the completions of array jobs
  | .idleTimerExpiry slot => Sys2Proof.Machine.execIdleTimerExpiry slot s
  | .putProgramDone bank outcome => Sys2Proof.Machine.execPutProgramDone bank outcome s
  | .commitRecordDone bank outcome => Sys2Proof.Machine.execCommitRecordDone bank outcome s
  | .mirrorCommitRecordDone bank outcome => Sys2Proof.Machine.execMirrorCommitRecordDone bank outcome s
  | .commitCopyReadDone bank outcome => Sys2Proof.Machine.execCommitCopyReadDone bank outcome s
  | .commitCopyProgramDone bank outcome => Sys2Proof.Machine.execCommitCopyProgramDone bank outcome s
  | .markProgramDone bank outcome => Sys2Proof.Machine.execMarkProgramDone bank outcome s
  | .mirrorMarkProgramDone bank outcome => Sys2Proof.Machine.execMirrorMarkProgramDone bank outcome s
  | .markRelocationReadDone bank outcome => Sys2Proof.Machine.execMarkRelocationReadDone bank outcome s
  | .markRelocationProgramDone bank outcome => Sys2Proof.Machine.execMarkRelocationProgramDone bank outcome s
  | .markRelocationCommitDone bank outcome => Sys2Proof.Machine.execMarkRelocationCommitDone bank outcome s
  | .relocationReadDone bank outcome => Sys2Proof.Machine.execRelocationReadDone bank outcome s
  | .relocationProgramDone bank outcome => Sys2Proof.Machine.execRelocationProgramDone bank outcome s
  | .relocationCommitDone bank outcome => Sys2Proof.Machine.execRelocationCommitDone bank outcome s
  | .relocationMirrorCommitDone bank outcome => Sys2Proof.Machine.execRelocationMirrorCommitDone bank outcome s
  | .readPageDone bank outcome => Sys2Proof.Machine.execReadPageDone bank outcome s
  | .checkPageDone bank outcome => Sys2Proof.Machine.execCheckPageDone bank outcome s
  | .scrubEraseDone bank outcome => Sys2Proof.Machine.execScrubEraseDone bank outcome s
  | .wearStampDone bank outcome => Sys2Proof.Machine.execWearStampDone bank outcome s
  | .purgeMarkDone bank outcome => Sys2Proof.Machine.execPurgeMarkDone bank outcome s
  | .purgeEraseDone bank outcome => Sys2Proof.Machine.execPurgeEraseDone bank outcome s
  | .purgeVerifyDone bank outcome => Sys2Proof.Machine.execPurgeVerifyDone bank outcome s
  | .purgeOverwriteDone bank outcome => Sys2Proof.Machine.execPurgeOverwriteDone bank outcome s
  | .grownBadEntryDone bank outcome => Sys2Proof.Machine.execGrownBadEntryDone bank outcome s
  | .layoutPageProgramDone bank outcome => Sys2Proof.Machine.execLayoutPageProgramDone bank outcome s
  | .scanReadDone bank outcome => Sys2Proof.Machine.execScanReadDone bank outcome s
  | .scanVerifyDone bank outcome => Sys2Proof.Machine.execScanVerifyDone bank outcome s
  | .markRelocationMirrorCommitDone bank outcome => Sys2Proof.Machine.execMarkRelocationMirrorCommitDone bank outcome s

end Sys2Proof.Machine
end

