-- ==== Sys2Proof/Safety.lean ====
section
/-!
DEFINITION. What a sound state is: the array in its one canonical form, each port within its depths, the requests in
flight under different names, the directory in its order and within its bounds, and the Block State Table in its order.
`Certificates/Slice0/Obligations.lean` states that State.reset is sound and that every step keeps it.
-/

namespace Sys2Proof.Machine

/-- The completion slots of a port in use: the completions that wait in its queue, and the slots that its taken
requests hold (R171, R174). -/
def Device.load (d : Device) (p : Port) : Nat := (d.port p).completions.length + d.reserved p

/-- A port keeps to its depths (R171): its request queue and its completion slots hold no more than the depth, and no
tag stands twice in its tag set. -/
def Device.PortWithin (d : Device) (p : Port) : Prop :=
  (d.port p).requests.length ≤ p.depth ∧ d.load p ≤ p.depth ∧ (d.port p).tags.Nodup

/-- The directory stands in ascending (namespace, key) order, with one entry for a name (R2, R11). -/
def Device.DirOrdered (d : Device) : Prop := (d.dir.map fun e => e.name.num).Pairwise (· < ·)

/-- The Block State Table stands in ascending (bank, block) order, with one line for a block (R96). -/
def Device.TableOrdered (d : Device) : Prop := (d.pool.table.map fun l => l.addr.num).Pairwise (· < ·)

/-- The directory keeps to its bounds (R11): 1,024 entries in all, and the record limit of each namespace. -/
def Device.DirBounded (d : Device) : Prop :=
  d.dir.length ≤ 1024 ∧ ∀ n : NsIndex, d.recordCount n ≤ (d.desc n).recordLimit

/-- No two requests in flight share the number that names them. -/
def Device.FlightsNamed (d : Device) : Prop := (d.flights.map (·.id)).Nodup

/-- The array is in its canonical form. -/
def State.ArrayCanonical (s : State) : Prop := Memory.wf s.cells = true

/-- A sound state. -/
structure State.Sound (s : State) : Prop where
  array   : s.ArrayCanonical
  primary : s.PortWithin .primary
  service : s.PortWithin .service
  flights : s.FlightsNamed
  dir     : s.DirOrdered
  bounds  : s.DirBounded
  table   : s.TableOrdered

/-- The row that takes a request of a kind. -/
def RequestKind.row : RequestKind → Instr
  | .find => .find
  | .list => .list
  | .read => .read
  | .check => .check
  | .openUpdate => .openUpdate
  | .putChunk => .putChunk
  | .commit => .commit
  | .abandon => .abandon
  | .retire => .retire
  | .restore => .restore
  | .hold => .hold
  | .release => .release
  | .freeze => .freeze
  | .lockNamespace => .lockNamespace
  | .configure => .configure
  | .maintain => .maintain
  | .health => .health
  | .identify => .identify
  | .defineNamespace => .defineNamespace
  | .commitLayout => .commitLayout
  | .reset => .reset
  | .purge => .purge

/-- The device after a request at the head of a port's request queue has been taken and answered at once (R174, R175):
the request has left the queue, its completion stands at the end of the completion queue, and the turn has passed. -/
def Device.answered (d : Device) (p : Port) (r : Request) (result : Result) (reply : List Byte) : Device :=
  { d.setPort p { d.port p with
      requests := (d.port p).requests.tail
      completions := (d.port p).completions ++
        [{ tag := r.tag, kind := r.body.kind, result := result, reply := reply }] } with
    turn := p.other }

/-- A request is taken next, from a port, with a body (R174). -/
def Device.Takes (d : Device) (p : Port) (tag : Byte) (body : Req) : Prop :=
  d.nextTake = some (p, { tag := tag, body := body })

/-- The state at the end of a step that took the request at the head of a port's queue and answered it at once. -/
def State.answers (s : State) (p : Port) (tag : Byte) (body : Req) (result : Result) (reply : List Byte) : State :=
  { s with toDevice := s.takeEnd (s.answered p { tag := tag, body := body } result reply) }

/-- The same where the answer comes with another effect on the device. -/
def State.answersWith (s : State) (p : Port) (tag : Byte) (body : Req) (result : Result) (reply : List Byte)
    (effect : Device → Device) : State :=
  { s with toDevice := s.takeEnd (effect (s.answered p { tag := tag, body := body } result reply)) }

/-- The state at the end of a step that took the request at the head of a port's queue and began its work. The request
is in flight under the lowest number that names none. -/
def State.begins (s : State) (p : Port) (tag : Byte) (body : Req) (work : Device → Nat → Device) : State :=
  { s with toDevice := s.takeEnd (work (s.takeIn p { tag := tag, body := body }) s.newFlightId) }

/-- The state at the end of a step in which a program, an erase or an erase verify of a bank completed: what the job
left in the array, and the device its queuer made of it, at the end of the step. -/
def State.afterWork (s : State) (b : Bank) (j : Job) (o : OkFail) (d : Device) : State :=
  { s.jobWorked b j o with toDevice := (d.eraseOver j).jobOver b }

/-- The same of a page read: the array stays, and the free values move on. -/
def State.afterRead (s : State) (b : Bank) (d : Device) : State :=
  { s with fresh := s.fresh + 1, toDevice := d.jobOver b }

/-- The bytes the page read in progress of a bank returns. -/
def State.readBytes (s : State) (b : Bank) (j : Job) : List Byte := pageBytes s (j.addr b) j.target.1

/-- The row that completes a page read of a relocation. -/
def RelocId.readRow : RelocId → Bank → ReadOutcome → Instr
  | .maint => .relocationReadDone
  | .mark _ => .markRelocationReadDone

/-- The row that completes a program into a new block of a relocation. -/
def RelocId.programRow : RelocId → Bank → OkFail → Instr
  | .maint => .relocationProgramDone
  | .mark _ => .markRelocationProgramDone

/-- The row that completes the PRIMARY commit record of a relocation. -/
def RelocId.commitRow : RelocId → Bank → OkFail → Instr
  | .maint => .relocationCommitDone
  | .mark _ => .markRelocationCommitDone

/-- The row that completes the MIRROR commit record of a relocation. -/
def RelocId.mirrorRow : RelocId → Bank → OkFail → Instr
  | .maint => .relocationMirrorCommitDone
  | .mark _ => .markRelocationMirrorCommitDone

/-- A job in progress in a bank while the part runs. -/
def State.Working (s : State) (b : Bank) (j : Job) : Prop := s.power = .running ∧ s.engines[b].current = some j

/-- What the part holds that nothing which comes about within a step changes: the settings, the locks, the layout, the
identity, the pins, and of each port everything but its completions and notices. -/
structure PortFace where
  requests    : List Request
  tags        : List Byte
  lastSubmit  : SubmitResult
  alertEnable : Bool
  transfer    : LinkTransfer
  response    : List Byte
  deriving DecidableEq, Repr

/-- That part of a port. -/
def PortState.face (p : PortState) : PortFace :=
  { requests := p.requests, tags := p.tags, lastSubmit := p.lastSubmit, alertEnable := p.alertEnable,
    transfer := p.transfer, response := p.response }

/-- That part of the device. -/
structure Face where
  power          : Power
  resetLow       : Bool
  straps         : BitVec 2
  serviceAddress : BitVec 7
  primary        : PortFace
  service        : PortFace
  turn           : Port
  locks          : Vector Bool 8
  settings       : Settings
  layout         : LayoutStore
  identity       : Identity
  scan           : Scan
  deriving DecidableEq, Repr

/-- That part of the device. -/
def Device.face (d : Device) : Face :=
  { power := d.power, resetLow := d.resetLow, straps := d.straps, serviceAddress := d.serviceAddress,
    primary := d.primary.face, service := d.service.face, turn := d.turn, locks := d.locks, settings := d.settings,
    layout := d.layout, identity := d.identity, scan := d.scan }

/-- How a device may come from another within a step: what stands in `face` is unchanged, completions are only added
at the ends of the completion queues, each port keeps to its slots, no request comes in flight, no entry comes into the
directory and those that stay keep their order, and the Block State Table keeps its order. -/
structure Device.Quiet (d d' : Device) : Prop where
  face    : d'.face = d.face
  posted  : ∀ p, (d.port p).completions <+: (d'.port p).completions
  load    : ∀ p, d'.load p ≤ d.load p
  flights : (d'.flights.map (·.id)).Sublist (d.flights.map (·.id))
  entries : (d'.dir.map (·.name)).Sublist (d.dir.map (·.name))
  table   : d.TableOrdered → d'.TableOrdered

end Sys2Proof.Machine
end

