-- ==== Sys2Proof/Certificates/Slice0/Obligations.lean ====
section
/-!
DEFINITION. The statements for the provers. Each says in its docstring which rules it states, and which part of it is
the model's choice.
-/

open Sys2Proof Sys2Proof.Machine

/-! ### Steps and invariants -/

/-- A step of a state with a command at the front of its queue runs that command on the state with the queue's rest. -/
def Obligations.StepRunsTheFrontCommand : Prop :=
  ∀ (c : Instr) (rest : List Instr) (s : State), step (s.withPending (c :: rest)) = exec c (s.withPending rest)

/-- No command faults or is refused, whatever the state, and no command touches the queue; a step of a state with an
empty queue leaves it as it is, which is the model's choice (log 2). -/
def Obligations.EveryStepGoesOn : Prop :=
  (∀ (c : Instr) (s : State), ∃ t, exec c s = .next t ∧ t.pending = s.pending)
  ∧ (∀ s : State, s.pending = [] → step s = .next s)

/-- The state right after reset: phase STARTING with everything volatile at its start value (R150, R164, R170, R171),
the engines idle but for the scanner's first read, page 0 of (0, 0) (R152), and nothing listed in the array. That
State.reset is the state right after a cold start is the model's choice (log 3), and so are the array as the factory
left it (log 4) and the values of the Maintenance Unit that R131 does not give (log 46). -/
def Obligations.ResetIsAColdStart : Prop :=
  State.reset.phase = .starting ∧ State.reset.power = .running ∧ State.reset.resetLow = false
    ∧ State.reset.dir = [] ∧ State.reset.flights = [] ∧ State.reset.contexts = []
    ∧ (∀ i : SlotIndex, State.reset.slots[i] = { seq := 0, ctx := none })
    ∧ (∀ n : NsIndex, State.reset.locks[n] = false)
    ∧ (∀ p : Port, State.reset.port p = .cleared) ∧ State.reset.turn = .primary
    ∧ State.reset.settings = { timeout := 30, threshold := 6, mode := .auto, wearSpread := 256 }
    ∧ State.reset.layout.active = none ∧ State.reset.layout.pending = false
    ∧ State.reset.pool.table = [] ∧ State.reset.pool.scrub = [] ∧ State.reset.pool.refresh = []
    ∧ State.reset.maint = .cleared ∧ State.reset.purge = none
    ∧ State.reset.engines[(0 : Bank)].current = some (readJob 0 0 .scanRead)
    ∧ (∀ b : Bank, State.reset.engines[b].queue = [] ∧ State.reset.engines[b].waiting = [])
    ∧ (∀ b : Bank, b ≠ 0 → State.reset.engines[b].current = none)
    ∧ State.reset.pool.waits = [] ∧ State.reset.pool.head = none ∧ State.reset.pool.examine = false
    ∧ State.reset.pool.recheck = false
    ∧ State.reset.cells = [] ∧ State.reset.weak = [] ∧ State.reset.spoilt = [] ∧ State.reset.torn = []
    ∧ State.reset.cut = [] ∧ State.reset.pending = []
    ∧ State.reset.toDevice = State.reset.toDevice.enterStarting

/-- The state right after reset is sound. -/
def Obligations.ResetIsSound : Prop := State.reset.Sound

/-- Every step keeps the array in its canonical form. -/
def Obligations.EveryStepKeepsTheArrayCanonical : Prop :=
  ∀ s t : State, s.ArrayCanonical → step s = .next t → t.ArrayCanonical

/-- Every step keeps each port within its depths: the request queue and the completion slots in use (posted completions
and reserved slots together) within the port's depth, and no tag twice in the tag set (R171, R173, R174). It also keeps
the model's own names of the requests in flight (log 35) different from each other. -/
def Obligations.EveryStepKeepsThePortsWithinTheirDepths : Prop :=
  (∀ s t : State, s.PortWithin .primary → s.PortWithin .service → step s = .next t →
    t.PortWithin .primary ∧ t.PortWithin .service)
  ∧ ∀ s t : State, s.FlightsNamed → step s = .next t → t.FlightsNamed

/-- Every step keeps the directory in ascending (namespace, key) order with one entry for a name (R2, R11), and the
Block State Table in ascending (bank, block) order with one line for a block (R96). Every step keeps the directory
within its bounds: 1,024 entries in all, and the record limit of each namespace (R11). -/
def Obligations.EveryStepKeepsTheTablesOrdered : Prop :=
  (∀ s t : State, s.DirOrdered → s.TableOrdered → step s = .next t → t.DirOrdered ∧ t.TableOrdered)
  ∧ ∀ s t : State, s.DirBounded → step s = .next t → t.DirBounded

/-- What comes about within a step after its own effect (draws, grants, purge work, the urgency level, demand erases,
resumed purges, maintenance runs), and the interruption of a run, leave the settings, the locks, the layout, the
identity, the pins, the request queues, tag sets, last-submit results and alert enables as they are, only add
completions at the ends of the completion queues, take no more completion slots than before, bring no request in flight
and no entry into the directory, and keep the order of the entries that stay and of the Block State Table. -/
def Obligations.WhatComesAboutWithinAStepIsQuiet : Prop :=
  ∀ (d e : Device) (b : Bank), d.Quiet d.finishStep ∧ d.Quiet (e.takeEnd d) ∧ d.Quiet (d.jobOver b)

/-! ### Frames -/

/-- What a SUBMIT frame does (R172): the last-submit result is the first of FRAME_ERROR, TAG_IN_USE, QUEUE_FULL and
ACCEPTED that applies; only an ACCEPTED frame changes anything else, and its request joins the end of the request queue
and its tag the tag set. Everything else of the state stays, the array included. -/
def Obligations.SubmitSetsTheLastSubmitResult : Prop :=
  ∀ (p : Port) (frame : List Byte) (s : State), s.linkUp = true → frame.head? = some submitCode →
    (parseSubmit frame = none →
      exec (.submit p frame) s
        = .next { s with toDevice := s.setPort p { s.port p with lastSubmit := .frameError } })
    ∧ (∀ r, parseSubmit frame = some r → r.tag ∈ (s.port p).tags →
      exec (.submit p frame) s = .next { s with toDevice := s.setPort p { s.port p with lastSubmit := .tagInUse } })
    ∧ (∀ r, parseSubmit frame = some r → r.tag ∉ (s.port p).tags → p.depth ≤ (s.port p).requests.length →
      exec (.submit p frame) s = .next { s with toDevice := s.setPort p { s.port p with lastSubmit := .queueFull } })
    ∧ (∀ r, parseSubmit frame = some r → r.tag ∉ (s.port p).tags → (s.port p).requests.length < p.depth →
      exec (.submit p frame) s
        = .next { s with toDevice := s.setPort p { s.port p with
            lastSubmit := .accepted, requests := (s.port p).requests ++ [r], tags := r.tag :: (s.port p).tags } })

/-- SUBMIT frames (R172, R181, section 11.7). The frame that carries a request kind with parameters of a length the
kind allows is read back with its tag, its kind and its parameters. It is the frame code, the tag, the kind's code, the
parameter length, the parameters and the CRC-16, and the parameters of each kind stand in the order its rule names
them, each in the width of R181, the least significant byte first. A frame that is read holds its parameter length, a
request kind's code and a matching CRC-16. -/
def Obligations.SubmitFramesAreReadAsTheyAreLaid : Prop :=
  (∀ (tag : Byte) (k : RequestKind) (params : List Byte), k.lengthOk params.length = true →
     parseSubmit (submitFrame tag k params) = some { tag := tag, body := Req.parse k params })
  ∧ (∀ (tag ns : Byte) (key : Key) (x y z : BitVec 16) (p q r t u : Byte) (data : List Byte),
     let two (v : BitVec 16) : List Byte := [v.setWidth 8, (v >>> 8).setWidth 8]
     let name : List Byte :=
       [ns, key.setWidth 8, (key >>> 8).setWidth 8, (key >>> 16).setWidth 8, (key >>> 24).setWidth 8]
     let reads (code : Byte) (params : List Byte) (body : Req) : Prop :=
       let front := [0xA1, tag, code] ++ two (BitVec.ofNat 16 params.length) ++ params
       parseSubmit (front ++ two (crc16 front)) = some { tag := tag, body := body }
     reads 0x01 name (.find ns key) ∧ reads 0x02 (name ++ [p]) (.list ns key p)
     ∧ reads 0x03 (name ++ two x ++ two y) (.read ns key x y) ∧ reads 0x04 name (.check ns key)
     ∧ reads 0x05 (name ++ two x ++ [p]) (.openUpdate ns key x p)
     ∧ (1 ≤ data.length → data.length ≤ 3328 → reads 0x06 (two x ++ [p] ++ data) (.putChunk x p data))
     ∧ reads 0x07 (two x) (.commit x) ∧ reads 0x08 (two x) (.abandon x)
     ∧ reads 0x09 name (.retire ns key) ∧ reads 0x0A name (.restore ns key) ∧ reads 0x0B name (.hold ns key)
     ∧ reads 0x0C name (.release ns key) ∧ reads 0x0D name (.freeze ns key) ∧ reads 0x0E [ns] (.lockNamespace ns)
     ∧ reads 0x0F (two x ++ [p, q] ++ two y ++ [r, t]) (.configure x p q y r t)
     ∧ reads 0x10 [] .maintain ∧ reads 0x11 [] .health ∧ reads 0x12 [] .identify
     ∧ reads 0x13 ([ns, p] ++ two x ++ two z ++ [q, r, t, u]) (.defineNamespace ns p x z q r t u)
     ∧ reads 0x14 [] .commitLayout ∧ reads 0x15 [] .reset ∧ reads 0x16 [] .purge)
  ∧ (∀ (frame : List Byte) (r : Request), parseSubmit frame = some r →
       frame.length = 7 + fieldAt frame 3 2 ∧ crc16Valid frame frame.length = true
         ∧ RequestKind.ofCode (fieldAt frame 2 1) = some r.body.kind ∧ r.body.kind.lengthOk (fieldAt frame 3 2) = true
         ∧ r.tag = param8 frame 1)

/-- Frames by their first byte, and commands that find nothing to act on. The first byte of a frame says which it is,
and bytes that begin with another are none and change nothing (R180); that bytes a Service Port write sends after a
COLLECT or STATUS code are ignored is the model's choice (log 55). While the ports serve no frame (a warm reset
draining, RESET_N low, no power) every frame is ignored: the Primary Port sends 0xFF throughout and the Service Port
does not acknowledge (R180). While they serve, a SUBMIT and a PORT RESET are sent 0xFF or acknowledged, and a COLLECT
and a STATUS are answered with their response; what a port sends is a view of the state (log 33). A row that takes a
request changes nothing when the next request is of another kind or there is none, and a row that completes a job
changes nothing when its bank has no job in progress or the part does not run: those two are the model's choice for
commands that cannot happen (log 1). -/
def Obligations.CommandsOutOfTurnChangeNothing : Prop :=
  (∀ (p : Port) (rest : List Byte),
    frameRow p (0xA1 :: rest) = some (.submit p (0xA1 :: rest)) ∧ frameRow p (0xA2 :: rest) = some (.collect p .begins)
      ∧ frameRow p (0xA3 :: rest) = some (.status p .begins)
      ∧ frameRow p (0xA4 :: rest) = some (.portReset p (0xA4 :: rest)))
  ∧ (∀ (p : Port) (frame : List Byte) (s : State),
    (∀ b ∈ frame.head?, b ≠ 0xA1 ∧ b ≠ 0xA2 ∧ b ≠ 0xA3 ∧ b ≠ 0xA4) →
      frameRow p frame = none ∧ exec (.submit p frame) s = .next s ∧ exec (.portReset p frame) s = .next s)
  ∧ (∀ (d : Device) (frame rest : List Byte),
    (d.linkUp = false →
      d.lineOut .primary frame = some .ones ∧ d.lineOut .service frame = some .notAcknowledged)
    ∧ (d.linkUp = true →
      d.lineOut .primary (0xA1 :: rest) = some .ones ∧ d.lineOut .service (0xA1 :: rest) = some .acknowledged
        ∧ d.lineOut .primary (0xA4 :: rest) = some .ones ∧ d.lineOut .service (0xA4 :: rest) = some .acknowledged
        ∧ ∀ p : Port,
          d.lineOut p (0xA2 :: rest) = some (.response (collectResponse (d.port p).completions.head?))
            ∧ d.lineOut p (0xA3 :: rest) = some (.response (d.statusResponse p))))
  ∧ ∀ s : State,
    (s.linkUp = false → ∀ (p : Port) (frame : List Byte) (x : Transfer),
      exec (.submit p frame) s = .next s ∧ exec (.collect p x) s = .next s ∧ exec (.status p x) s = .next s
        ∧ exec (.portReset p frame) s = .next s)
    ∧ (∀ k : RequestKind, (∀ p r, s.nextTake = some (p, r) → r.body.kind ≠ k) → exec k.row s = .next s)
    ∧ ∀ b : Bank, s.power ≠ .running ∨ s.engines[b].current = none →
      (∀ o : OkFail, ∀ row ∈ ([.putProgramDone, .commitRecordDone, .mirrorCommitRecordDone, .commitCopyProgramDone,
          .markProgramDone, .mirrorMarkProgramDone, .markRelocationProgramDone, .markRelocationCommitDone,
          .markRelocationMirrorCommitDone, .relocationProgramDone, .relocationCommitDone, .relocationMirrorCommitDone,
          .scrubEraseDone, .wearStampDone, .purgeMarkDone, .purgeEraseDone, .purgeVerifyDone, .purgeOverwriteDone,
          .grownBadEntryDone, .layoutPageProgramDone, .scanVerifyDone] : List (Bank → OkFail → Instr)),
        exec (row b o) s = .next s)
      ∧ ∀ o : ReadOutcome, ∀ row ∈ ([.commitCopyReadDone, .markRelocationReadDone, .relocationReadDone, .readPageDone,
          .checkPageDone, .scanReadDone] : List (Bank → ReadOutcome → Instr)), exec (row b o) s = .next s

/-- COLLECT (R176): the response that begins carries the oldest completion, or EMPTY, and removes nothing; once the
whole of it has been transferred, that completion leaves the queue and its tag the tag set; a transfer cut short
removes nothing. That a frame is three commands, and that a cut ends whatever transfer is in progress, is the model's
choice (log 23). -/
def Obligations.CollectRemovesWhatItTransferred : Prop :=
  ∀ (p : Port) (s : State), s.linkUp = true →
    exec (.collect p .begins) s
        = .next { s with toDevice := s.setPort p { s.port p with
            transfer := .collect (s.port p).completions.head?
            response := collectResponse (s.port p).completions.head? } }
    ∧ (∀ c, (s.port p).transfer = .collect (some c) →
      exec (.collect p .completes) s
        = .next { s with toDevice := s.setPort p { s.port p with
            completions := (s.port p).completions.tail
            tags := (s.port p).tags.filter fun t => decide (t ≠ c.tag), transfer := .none } })
    ∧ ((s.port p).transfer = .collect none →
      exec (.collect p .completes) s
        = .next { s with toDevice := s.setPort p { s.port p with transfer := .none } })
    ∧ exec (.collect p .cut) s = .next { s with toDevice := s.setPort p { s.port p with transfer := .none } }

/-- STATUS (R177): the response that begins reports the port and captures its notices; once the whole of it has been
transferred the captured notices are removed, but a notice posted since the response began stays, one of a captured kind
too; a cut transfer removes nothing. Posting a notice that is in the set leaves the set as it is. That a frame is three
commands, and that a cut ends whatever transfer is in progress, is the model's choice (log 23). -/
def Obligations.StatusRemovesTheCapturedNotices : Prop :=
  (∀ (p : Port) (s : State), s.linkUp = true →
    exec (.status p .begins) s
        = .next { s with toDevice := s.setPort p { s.port p with
            transfer := .status (s.port p).notices
            response := withCrc16 (leBytes 1 (s.port p).notices.code ++ leBytes 1 (s.port p).requests.length
              ++ leBytes 1 (s.port p).completions.length ++ leBytes 1 (s.reserved p)
              ++ leBytes 1 (s.port p).lastSubmit.code ++ leBytes 1 s.phase.code ++ leBytes 1 s.pool.level.val
              ++ leBytes 1 (flagCode s.pool.worn + 2 * flagCode s.layout.pending))
            since := Notices.empty } }
    ∧ (∀ n, (s.port p).transfer = .status n →
      let since := (s.port p).since
      exec (.status p .completes) s
        = .next { s with toDevice := s.setPort p { s.port p with
            notices :=
              { updateExpired := (s.port p).notices.updateExpired && !(n.updateExpired && !since.updateExpired)
                urgencyRaised := (s.port p).notices.urgencyRaised && !(n.urgencyRaised && !since.urgencyRaised)
                wornEntered := (s.port p).notices.wornEntered && !(n.wornEntered && !since.wornEntered)
                rebuildDone := (s.port p).notices.rebuildDone && !(n.rebuildDone && !since.rebuildDone) }
            transfer := .none } })
    ∧ exec (.status p .cut) s = .next { s with toDevice := s.setPort p { s.port p with transfer := .none } })
  ∧ ∀ (d : Device) (p : Port) (n : Notices),
      let added (x : Notices) : Notices :=
        { updateExpired := x.updateExpired || n.updateExpired, urgencyRaised := x.urgencyRaised || n.urgencyRaised
          wornEntered := x.wornEntered || n.wornEntered, rebuildDone := x.rebuildDone || n.rebuildDone }
      d.post p n
        = d.setPort p { d.port p with notices := added (d.port p).notices, since := added (d.port p).since }

/-- A port's alert line is asserted just while its alert enable is on and its completion queue or its notice set is not
empty (R178), and both lines are released in the step a warm reset begins. -/
def Obligations.AlertLineFollowsItsConditions : Prop :=
  (∀ (d : Device) (p : Port), (d.port p).alert = true ↔
    (d.port p).alertEnable = true ∧ ((d.port p).completions ≠ [] ∨ (d.port p).notices ≠ Notices.empty))
  ∧ ∀ (d : Device) (p : Port), (d.beginReset.port p).alert = false

/-- A PORT RESET frame with a valid CRC-16 (R179, R46, R94): the port's queues, tags and notices are emptied, its
last-submit result is NONE and its alert enable stays, its requests in flight are marked for discard and stay in
flight, a put with a job of an abandoned context with ABORTED ahead of it; its OPEN contexts are abandoned one after the
other, as Device.beginAbandon does it (O26), before its HELD holds are released. An abandoned context that a put with a
job is left of is ABANDONING with its blocks as they were and its entry busy; any other one's slot is FREE and its
sequence has risen, its blocks that were ALLOCATED are STALE, a create's entry is gone, and a replaced entry's busy
field is empty (R41, R46). Every other slot, a COMMITTING one too, and every other block's state stays as it is. Its HELD
holds are released and every other hold stays; an entry that none of its OPEN contexts updates keeps everything but such
a hold. The other port's requests, tags, notices, alert
enable and requests in flight stay, and so do its completions while no put or ABANDON of it names a context of the port
(R25 lets none). The locks, the settings, the layout and the array stay. Any other frame changes nothing; that a frame
that runs past its CRC-16 is one of those is the model's choice (log 41). -/
def Obligations.PortResetClearsItsPort : Prop :=
  ∀ (p : Port) (s : State), s.linkUp = true →
    (∀ frame, portResetOk frame = false → exec (.portReset p frame) s = .next s)
    ∧ ∃ d : Device,
      exec (.portReset p (withCrc16 [portResetCode])) s = .next { s with toDevice := d.finishStep }
      ∧ (d.port p).face = { PortState.cleared.face with alertEnable := (s.port p).alertEnable }
      ∧ (d.port p).completions = [] ∧ (d.port p).notices = Notices.empty
      ∧ (d.port p.other).face = (s.port p.other).face ∧ (d.port p.other).notices = (s.port p.other).notices
      ∧ (s.port p.other).completions <+: (d.port p.other).completions
      ∧ (∀ f ∈ d.flights, f.port = p → f.discard = true)
      ∧ (∀ e ∈ d.dir, e.hold ≠ .held p)
      ∧ (∀ r e', d.entry? r = some e' → ∃ e, s.entry? r = some e ∧ e'.hold = if e.hold = .held p then .none else e.hold)
      ∧ (∀ i c, d.ctx? i = some c → c.owner = p → c.state ≠ .open)
      ∧ d.locks = s.locks ∧ d.settings = s.settings ∧ d.layout = s.layout
      ∧ (s.FlightsNamed →
        let mine (i : SlotIndex) : Prop := ∃ c, s.ctx? i = some c ∧ c.owner = p ∧ c.state = .open
        let atWork (i : SlotIndex) : Prop := ∃ f ∈ s.flights, ∃ w, f.work = .put w ∧ w.slot = i ∧ w.hasJob = true
        let unheld (e : Entry) : Entry := if e.hold = .held p then { e with hold := .none } else e
        (let cleared : Device := { s.setPort p { PortState.cleared with alertEnable := (s.port p).alertEnable } with
          flights := s.flights.map fun f => { f with discard := f.discard || decide (f.port = p) } }
         let owned := allSlots.filter fun i => (s.ctx? i).any fun c => decide (c.owner = p) && decide (c.state = .open)
         d = (owned.foldl Device.beginAbandon cleared).releaseHolds p)
        ∧ (∀ i c, s.ctx? i = some c → mine i →
          (atWork i → ∃ c', d.slots[i] = { seq := s.slots[i].seq, ctx := some c' } ∧ c'.state = .abandoning
            ∧ c'.owner = p ∧ c'.name = c.name ∧ c'.chunks = c.chunks ∧ c'.present = c.present)
          ∧ (¬atWork i → d.slots[i] = { seq := s.slots[i].seq + 1, ctx := none })
          ∧ ((∀ k x, k ≠ i → s.ctx? k = some x → mine k → x.name ≠ c.name) →
            (atWork i → d.entry? c.name = (s.entry? c.name).map unheld)
            ∧ (¬atWork i → c.mode = .create → d.entry? c.name = none)
            ∧ (¬atWork i → c.mode = .replace →
              d.entry? c.name = (s.entry? c.name).map fun e => unheld { e with busy := .none })))
        ∧ (∀ a,
          let given : Prop := s.blockState a = some .allocated
            ∧ ∃ i c, s.ctx? i = some c ∧ mine i ∧ ¬atWork i ∧ a ∈ c.blocks
          (given → d.blockState a = some .stale) ∧ (¬given → d.blockState a = s.blockState a))
        ∧ (∀ i, ¬mine i → d.slots[i] = s.slots[i])
        ∧ (∀ r, (∀ i c, s.ctx? i = some c → mine i → c.name ≠ r) →
            d.entry? r = (s.entry? r).map fun e => if e.hold = .held p then { e with hold := .none } else e)
        ∧ (∀ f ∈ s.flights, (∀ i, mine i → (∀ w, f.work = .put w → w.slot ≠ i) ∧ f.work ≠ .abandon i) →
            { f with discard := f.discard || decide (f.port = p) } ∈ d.flights)
        ∧ (∀ f ∈ s.flights, ∀ w, f.work = .put w → mine w.slot → w.hasJob = true →
            { f with discard := f.discard || decide (f.port = p), work := .put { w with ending := some .aborted } }
              ∈ d.flights)
        ∧ ((∀ f ∈ s.flights, f.port = p.other →
              ∀ i, mine i → (∀ w, f.work = .put w → w.slot ≠ i) ∧ f.work ≠ .abandon i) →
            (d.port p.other).completions = (s.port p.other).completions))

/-! ### Taking requests -/

/-- Which request is taken next (R174): a port can be taken from when its request queue is not empty, fewer than 12
requests are in flight, and its posted completions and reserved slots are fewer than its depth; of two such ports the
one the turn names comes first; the oldest request of the port is taken. Nothing is taken without power or while a warm
reset drains. A take moves the request into the in-flight set and passes the turn to the other port. -/
def Obligations.TheNextRequestTakenFollowsTheTurn : Prop :=
  ∀ d : Device,
    (d.power ≠ .running → d.nextTake = none)
    ∧ (d.power = .running → ∀ (p : Port) (r : Request), d.nextTake = some (p, r) ↔
        (d.port p).requests.head? = some r ∧ d.flights.length < 12 ∧ d.load p < p.depth
          ∧ (d.turn = p ∨ (d.port p.other).requests = [] ∨ p.other.depth ≤ d.load p.other))
    ∧ ∀ (p : Port) (r : Request),
        (d.takeIn p r).turn = p.other ∧ ((d.takeIn p r).port p).requests = (d.port p).requests.tail
          ∧ ((d.takeIn p r).port p).completions = (d.port p).completions
          ∧ (d.takeIn p r).reserved p = d.reserved p + 1
          ∧ (d.takeIn p r).port p.other = d.port p.other
          ∧ (∀ f ∈ d.flights, f.id ≠ d.newFlightId)
          ∧ (d.takeIn p r).flights = d.flights
              ++ [({ id := d.newFlightId, port := p, tag := r.tag, kind := r.body.kind, discard := false
                     work := .taken } : Flight)]

/-- The taking of a request, of whatever kind and whatever its result, interrupts the maintenance run that was in
progress before it (R144, R145): a RUNNING run in its SCRUB part at urgency level 3 goes on in FOREGROUND, with the
relocation it has (the model's choice, log 48), any other RUNNING run winds down in STOPPING, and its relocation is
abandoned unless its commit record has been queued; a run in FOREGROUND or STOPPING is not acted on. The step takes the
request and works it, the run and its relocation standing as they did, then interrupts the run, then ends; with no run
before the take none is interrupted, so a MAINTAIN does not interrupt its own. That order within the step is the
model's choice (log 31). A RESET from the Primary Port that begins a warm reset discards the run with everything else
(O39). -/
def Obligations.ATakeInterruptsTheRunInProgress : Prop :=
  (∀ d : Device,
    (d.maint.run ≠ .running → d.interruptRun = d)
    ∧ (d.maint.run = .running → d.pool.level = 3 → d.inScrubPart = true →
        d.interruptRun = { d with maint := { d.maint with run := .foreground } })
    ∧ (d.maint.run = .running → ¬(d.pool.level = 3 ∧ d.inScrubPart = true) →
        d.interruptRun.maint.run = .stopping
        ∧ (d.maint.reloc = none → d.interruptRun = { d with maint := { d.maint with run := .stopping } })
        ∧ (∀ r, d.maint.reloc = some r → r.stage = .commitQueued ∨ r.stage = .mirrorCommit →
            d.interruptRun = { d with maint := { d.maint with run := .stopping } })
        ∧ (∀ r, d.maint.reloc = some r → r.stage ≠ .commitQueued → r.stage ≠ .mirrorCommit → r.ending = none →
            ∀ r', d.interruptRun.maint.reloc = some r' → r'.ending = some .interrupted)))
  ∧ (∀ d after : Device,
      (d.maint.run = .idle → d.takeEnd after = after.finishStep)
      ∧ (d.maint.run ≠ .idle → d.takeEnd after = after.interruptRun.finishStep))
  ∧ ∀ (s : State) (p : Port) (tag : Byte) (body : Req), s.Takes p tag body → body ≠ .reset →
      ∃ after : Device, exec body.kind.row s = .next { s with toDevice := s.takeEnd after }
        ∧ (s.maint.run ≠ .idle → after.maint.run = s.maint.run ∧ after.maint.reloc = s.maint.reloc)

/-- FIND (R19, R20): the first failing check decides; a key without an entry answers NOT_FOUND; otherwise OK with the
entry's state, generation, body length, chunk count, hold, holder, the mirrored flag of its namespace and its damaged
count. The entry and the array stay. -/
def Obligations.FindReportsTheEntry : Prop :=
  ∀ (s : State) (p : Port) (tag ns : Byte) (key : Key), s.Takes p tag (.find ns key) →
    let checks : List (Bool × Result) :=
      [ (decide (s.phase = .starting) || decide (s.phase = .halted), .notReady),
        ((s.nsOf ns).isNone, .nsInvalid),
        ((decide (s.phase = .early) || decide (s.phase = .resuming)) && decide (s.nsOf ns ≠ s.earlyNs), .notReady),
        (decide (s.rightOn p ns = .none), .denied) ]
    (∀ r, firstFailure checks = some r → exec .find s = .next (s.answers p tag (.find ns key) r []))
    ∧ (firstFailure checks = none → s.entryOf ns key = none →
        exec .find s = .next (s.answers p tag (.find ns key) .notFound []))
    ∧ (∀ e, firstFailure checks = none → s.entryOf ns key = some e →
        exec .find s
          = .next (s.answers p tag (.find ns key) .ok
              (leBytes 1 e.state.code ++ leBytes 4 e.version.generation ++ leBytes 2 e.version.bodyLength
                ++ leBytes 1 e.version.chunks.length ++ leBytes 1 e.hold.code ++ leBytes 1 e.hold.holderCode
                ++ leBytes 1 (flagCode (s.desc e.name.ns).mirrored) ++ leBytes 1 e.damaged.length)))

/-- LIST (R19, R21): the first failing check decides; otherwise OK with the first entries of the namespace at and after
the start key, in key order, up to the maximum count, and MORE with the key of the next one when there is one. -/
def Obligations.ListWalksTheNamespace : Prop :=
  ∀ (s : State) (p : Port) (tag ns : Byte) (start : Key) (count : Byte), s.Takes p tag (.list ns start count) →
    let checks : List (Bool × Result) :=
      [ (decide (s.phase = .starting) || decide (s.phase = .halted), .notReady),
        ((s.nsOf ns).isNone, .nsInvalid),
        ((decide (s.phase = .early) || decide (s.phase = .resuming)) && decide (s.nsOf ns ≠ s.earlyNs), .notReady),
        (decide (s.rightOn p ns = .none), .denied),
        (decide (count.toNat = 0)
          || decide ((match p with | .primary => 64 | .service => 16) < count.toNat), .badParameter) ]
    (∀ r, firstFailure checks = some r → exec .list s = .next (s.answers p tag (.list ns start count) r []))
    ∧ (∀ n, firstFailure checks = none → s.nsOf ns = some n →
        let found := s.dir.filter fun e => decide (e.name.ns = n) && decide (start.toNat ≤ e.name.key.toNat)
        exec .list s
          = .next (s.answers p tag (.list ns start count) .ok
              (((found.take count.toNat).flatMap fun e =>
                  leBytes 4 e.name.key.toNat ++ leBytes 1 e.state.code ++ leBytes 4 e.version.generation)
                ++ leBytes 1 (flagCode (found.drop count.toNat).head?.isSome)
                ++ leBytes 4 (((found.drop count.toNat).head?.map (·.name.key.toNat)).getD 0))))

/-- READ (R49, R51, R52, R54): the first failing check decides. A READ that passes takes the entry's committed version
as its snapshot, pins the blocks of every chunk its range touches, and queues a READ-class PAGE READ of each page of
the first such chunk that holds bytes of the range; where that chunk's chunk-list element is MISSING its first page is
lost at once (R57). -/
def Obligations.ReadPinsAndReadsItsFirstChunk : Prop :=
  ∀ (s : State) (p : Port) (tag ns : Byte) (key : Key) (offset length : BitVec 16),
    s.Takes p tag (.read ns key offset length) →
    let e? := s.entryOf ns key
    let checks : List (Bool × Result) :=
      [ (decide (s.phase = .starting) || decide (s.phase = .halted), .notReady),
        ((s.nsOf ns).isNone, .nsInvalid),
        ((decide (s.phase = .early) || decide (s.phase = .resuming)) && decide (s.nsOf ns ≠ s.earlyNs), .notReady),
        (decide (s.rightOn p ns = .none), .denied),
        (decide (length.toNat = 0)
          || decide ((match p with | .primary => 2048 | .service => 256) < length.toNat), .badParameter),
        (e?.isNone, .notFound),
        (e?.any fun e => decide (e.state = .reserved), .recordBusy),
        (e?.any fun e => decide (e.state = .retired) || decide (e.state = .purging), .recordRetired),
        (e?.any fun e => decide (e.version.bodyLength < offset.toNat + length.toNat), .badParameter) ]
    (∀ r, firstFailure checks = some r → exec .read s = .next (s.answers p tag (.read ns key offset length) r []))
    ∧ ∀ e, firstFailure checks = none → e? = some e →
        let range : ReadWork :=
          { name := e.name, version := e.version, pins := [], offset := offset.toNat, length := length.toNat,
            chunk := offset.toNat / 3328, got := [], jobs := 0, lost := none }
        let w := { range with pins := range.chunksTouched.flatMap e.version.blocksAt }
        (∀ x, e.version.chunkAt w.chunk = some x →
          exec .read s
            = .next (s.begins p tag (.read ns key offset length) fun d id =>
                ((w.pagesOf w.chunk).foldl (fun d g => d.queueRead x.addr g (.readPage id w.chunk g .primary))
                  (d.pin w.pins)).setWork id (.read { w with jobs := (w.pagesOf w.chunk).length })))
        ∧ (e.version.chunkAt w.chunk = none →
          exec .read s
            = .next (s.begins p tag (.read ns key offset length) fun d id =>
                (d.pin w.pins).endRead id
                  { w with lost := some { chunk := w.chunk, page := (w.pagesOf w.chunk).headD 1 } }))

/-- CHECK (R50 to R52, R55, R57): the first failing check decides, in the rule's order. A CHECK that passes, in phase
READY or WORN and with a right of READ or FULL, is served whatever the startup lock, the layout-pending flag and the
busy field: it takes the entry's committed version as its snapshot, pins every block of it, and queues a READ-class
PAGE READ of page 15 of chunk 0 and then of pages 0 to 13 of each chunk, all of the PRIMARY blocks the chunk list
names. A chunk-list element that is MISSING loses its first page, and nothing is read from it on: of chunk 0 that is
page 15, which ends the CHECK in its step. That all the reads are handed over in the step of the take is the model's
choice (log 43). -/
def Obligations.CheckMakesItsChecksInOrder : Prop :=
  ∀ (s : State) (p : Port) (tag ns : Byte) (key : Key), s.Takes p tag (.check ns key) →
    let e? := s.entryOf ns key
    let checks : List (Bool × Result) :=
      [ (decide (s.phase ≠ .ready) && decide (s.phase ≠ .worn), .notReady),
        ((s.nsOf ns).isNone, .nsInvalid),
        (decide (s.rightOn p ns = .none), .denied),
        (e?.isNone, .notFound),
        (e?.any fun e => decide (e.state = .reserved), .recordBusy),
        (e?.any fun e => decide (e.state = .retired) || decide (e.state = .purging), .recordRetired) ]
    (∀ r, firstFailure checks = some r → exec .check s = .next (s.answers p tag (.check ns key) r []))
    ∧ ∀ e, firstFailure checks = none → e? = some e →
        (∀ (zero : ChunkRef) (rest : List ChunkRef) (lost : Option LostPage),
          (e.version.chunks = (zero :: rest).map some ∧ lost = none)
            ∨ (∃ more, e.version.chunks = (zero :: rest).map some ++ none :: more)
                ∧ lost = some { chunk := rest.length + 1, page := 0 } →
          exec .check s = .next (s.begins p tag (.check ns key) fun d id =>
            ((zero :: rest).zipIdx.foldl
              (fun d x => (List.range 14).foldl (fun d g => d.queueJob x.1.addr.bank
                (readJob x.1.addr.block g (.checkPage id x.2 g .primary))) d)
              ((d.pin e.version.blocks).queueJob zero.addr.bank
                (readJob zero.addr.block 15 (.checkPage id 0 15 .primary)))).setWork id
              (.check { name := e.name, version := e.version, pins := e.version.blocks, got := [], pagesRead := 0,
                        jobs := 1 + 14 * (rest.length + 1), lost := lost })))
        ∧ (e.version.chunkAt 0 = none →
          exec .check s = .next (s.begins p tag (.check ns key) fun d id =>
            (((d.pin e.version.blocks).modEntry e.name fun x =>
              if x.version.generation = e.version.generation then { x with damaged := insertNat 0 x.damaged }
              else x).unpin e.version.blocks).complete id .dataLost (leBytes 1 0 ++ leBytes 1 15 ++ leBytes 1 0)))

/-- OPEN UPDATE (R26 to R29). The first failing check decides, in the order of R26, R27 and R28, and a request refused
inserts no entry and reserves nothing. When every check passes, the lowest-numbered FREE slot becomes OPEN with the
context R29 gives, its reservation and its timer; a create inserts a RESERVED entry (R12), and the entry's busy field
names the handle; the request answers OK with the handle, the new generation, the chunk count and the mode. -/
def Obligations.OpenUpdateChecksAndOpensAContext : Prop :=
  ∀ (s : State) (p : Port) (tag ns : Byte) (key : Key) (length : BitVec 16) (mode : Byte),
    s.Takes p tag (.openUpdate ns key length mode) →
    let checks : List (Bool × Result) :=
      [ (decide (s.phase ≠ .ready) && decide (s.phase ≠ .worn), .notReady), (decide (s.phase = .worn), .worn),
        ((s.nsOf ns).isNone, .nsInvalid), (decide (s.rightOn p ns ≠ .full), .denied),
        (s.layout.pending, .layoutPending), ((s.nsOf ns).any fun n => s.locks[n], .nsLocked),
        (!(decide (1 ≤ length.toNat) && decide (length.toNat ≤ 53248) && decide (1 ≤ mode.toNat)
            && decide (mode.toNat ≤ 3)), .badParameter) ]
      ++ match s.nsOf ns with
        | none => []
        | some n =>
          (match s.entry? { ns := n, key := key } with
            | none =>
              [ (decide (mode.toNat = 2), .notFound), (decide (1024 ≤ s.dir.length), .directoryFull),
                (decide ((s.desc n).recordLimit ≤ s.recordCount n), .nsLimit) ]
            | some e =>
              [ (decide (mode.toNat = 1), .exists),
                (decide (e.state = .reserved) || decide (e.busy ≠ .none), .recordBusy),
                (decide (e.state = .retired) || decide (e.state = .purging), .recordRetired),
                (decide (e.hold = .frozen), .holdFrozen), (decide (e.hold = .held p.other), .holdConflict),
                (decide (e.version.generation = 4294967294), .generationLimit) ])
          ++ [ (s.firstFree.isNone, .noContext),
               (decide ((s.desc n).quota
                  < s.held n + s.reservedBlocks n + (length.toNat + 3327) / 3328 * s.copiesOf n), .quotaExceeded) ]
    (∀ r, firstFailure checks = some r →
      exec .openUpdate s = .next (s.answers p tag (.openUpdate ns key length mode) r []))
    ∧ ∀ (n : NsIndex) (i : SlotIndex), firstFailure checks = none → s.nsOf ns = some n → s.firstFree = some i →
      let r : RecordName := { ns := n, key := key }
      let handle : BitVec 16 := BitVec.ofNat 16 (i.val * 256 + s.slots[i].seq.toNat)
      let chunks := (length.toNat + 3327) / 3328
      let context (mode : Mode) (newGen : Nat) (base : Option Nat) : Ctx :=
        { owner := p, name := r, state := .open, mode := mode, bodyLength := length.toNat, chunkCount := chunks,
          copies := s.copiesOf n, newGen := newGen, baseGen := base, present := [], inFlight := [],
          chunks := List.replicate chunks { primary := none, mirror := none, crc := 0 },
          reserved := chunks * s.copiesOf n, requests := 0,
          timer := if s.settings.timeout = 0 then none else some s.settings.timeout, attempt := 0, copying := none }
      (∀ k : SlotIndex, k < i → s.ctx? k ≠ none) ∧ s.ctx? i = none
      ∧ (s.entry? r = none →
        exec .openUpdate s
          = .next (s.answersWith p tag (.openUpdate ns key length mode) .ok
              (leBytes 2 handle.toNat ++ leBytes 4 1 ++ leBytes 1 chunks ++ leBytes 1 1) fun d =>
                (d.setCtx i (context .create 1 none)).insertRecord
                  { name := r, state := .reserved, version := .absent, hold := .none, marks := 0, busy := .update handle,
                    damaged := [], retireOrder := none }))
      ∧ (∀ e, s.entry? r = some e →
        exec .openUpdate s
          = .next (s.answersWith p tag (.openUpdate ns key length mode) .ok
              (leBytes 2 handle.toNat ++ leBytes 4 (e.version.generation + 1) ++ leBytes 1 chunks ++ leBytes 1 2) fun d =>
                (d.setCtx i (context .replace (e.version.generation + 1) (some e.version.generation))).modEntry r fun e =>
                  { e with busy := .update handle }))

/-- PUT CHUNK, COMMIT and ABANDON begin with the checks of R25: NOT_READY in a phase before READY and in HALTED;
HANDLE_STALE when no slot in use has the handle; DENIED when the requester does not own the context. A request so
refused does not touch the context or its timer. That a handle whose slot number is above 7 names no slot, and so is
HANDLE_STALE, is the model's reading (log 38). -/
def Obligations.AHandleIsCheckedFirst : Prop :=
  ∀ (s : State) (p : Port) (tag : Byte) (handle : BitVec 16) (index : Byte) (data : List Byte) (body : Req),
    body = .putChunk handle index data ∨ body = .commit handle ∨ body = .abandon handle → s.Takes p tag body →
    (s.phase ≠ .ready → s.phase ≠ .worn → exec body.kind.row s = .next (s.answers p tag body .notReady []))
    ∧ (s.phase = .ready ∨ s.phase = .worn →
        (∀ i : SlotIndex, s.ctx? i ≠ none → handle ≠ BitVec.ofNat 16 (i.val * 256 + s.slots[i].seq.toNat)) →
        exec body.kind.row s = .next (s.answers p tag body .handleStale []))
    ∧ ∀ (i : SlotIndex) (c : Ctx), s.phase = .ready ∨ s.phase = .worn → s.ctx? i = some c →
        handle = BitVec.ofNat 16 (i.val * 256 + s.slots[i].seq.toNat) → c.owner ≠ p →
        exec body.kind.row s = .next (s.answers p tag body .denied [])

/-- PUT CHUNK past the checks of R25 (R30, R31, R43): the first failing check decides, and its answer starts the idle
timer of an OPEN context with no other request again; a put that passes adds its index to the chunks in flight, keeps
the CRC-32 of its data, and asks for the blocks of its chunk in one grant, the MIRROR in another bank. -/
def Obligations.PutChunkAsksForItsBlocks : Prop :=
  ∀ (s : State) (p : Port) (tag : Byte) (handle : BitVec 16) (index : Byte) (data : List Byte) (i : SlotIndex) (c : Ctx),
    s.Takes p tag (.putChunk handle index data) → s.phase = .ready ∨ s.phase = .worn → s.ctx? i = some c →
    handle = BitVec.ofNat 16 (i.val * 256 + s.slots[i].seq.toNat) → c.owner = p →
    let k := index.toNat
    let checks : List (Bool × Result) :=
      [ (decide (s.phase = .worn), .worn), (decide (c.state ≠ .open), .recordBusy), (s.locks[c.name.ns], .nsLocked),
        (decide (c.chunkCount ≤ k), .badParameter),
        (decide (data.length ≠ min (c.bodyLength - 3328 * k) 3328), .chunkLength),
        (c.present.contains k || c.inFlight.contains k, .chunkPresent) ]
    (∀ r, firstFailure checks = some r →
      exec .putChunk s = .next (s.answersWith p tag (.putChunk handle index data) r [] fun d =>
        d.setCtx i { c with
          timer := if c.requests = 0 ∧ c.state = .open then s.timerStart else none }))
    ∧ (firstFailure checks = none →
      exec .putChunk s = .next (s.begins p tag (.putChunk handle index data) fun d id =>
        ((d.setCtx i { c with
            requests := c.requests + 1, timer := none, inFlight := insertNat k c.inFlight
            chunks := c.chunks.modify k fun x => { x with crc := crc32 data } }).setWork id
          (.put { slot := i, chunk := k, data := data, primary := .start,
                  mirror := if c.copies = 2 then some .start else none, ending := none })).askGrant (.put id none)
            ([{ owner := c.owns k .primary, allowance := false, tail := false, avoid := .nothing }]
              ++ if c.copies = 2 then
                [{ owner := c.owns k .mirror, allowance := false, tail := false, avoid := .previous }] else [])))

/-- COMMIT past the checks of R25 (R36, R43). The first failing check decides; a COMMIT that passes moves the context
to COMMITTING with attempt 1, releases its reservation, and queues the commit record (the new generation, the chunk
count, the body length and the body CRC-32) into segments 0 and 1 of page 15 of the PRIMARY chunk 0. The body CRC-32
that the context forms from its chunk CRC-32 values is that of the body, when each is the CRC-32 of its chunk's share
of the body (R36, R129). -/
def Obligations.CommitQueuesTheCommitRecord : Prop :=
  (∀ (s : State) (p : Port) (tag : Byte) (handle : BitVec 16) (i : SlotIndex) (c : Ctx),
     s.Takes p tag (.commit handle) → s.phase = .ready ∨ s.phase = .worn → s.ctx? i = some c →
     handle = BitVec.ofNat 16 (i.val * 256 + s.slots[i].seq.toNat) → c.owner = p →
     let checks : List (Bool × Result) :=
       [ (decide (s.phase = .worn), .worn), (decide (c.state ≠ .open), .recordBusy), (s.locks[c.name.ns], .nsLocked),
         (!((List.range c.chunkCount).all fun k => c.present.contains k) || !c.inFlight.isEmpty, .incomplete) ]
     (∀ r, firstFailure checks = some r →
       exec .commit s = .next (s.answersWith p tag (.commit handle) r [] fun d =>
         d.setCtx i { c with
           timer := if c.requests = 0 ∧ c.state = .open then s.timerStart else none }))
     ∧ (∀ a, firstFailure checks = none → (c.chunkAt 0).primary = some a →
       exec .commit s = .next (s.begins p tag (.commit handle) fun d id =>
         ((d.setCtx i { c with
             requests := c.requests + 1, timer := none, state := .committing, reserved := 0, attempt := 1 }).setWork id
           (.commit i)).queueJob a.bank
             (segmentJob a.block 15 0
               (Machine.commitRecord c.newGen c.chunkCount c.bodyLength (leBytes 4 c.bodyCrc.toNat)) (.commitRecord i)))))
  ∧ (∀ (c : Ctx) (body : List Byte), body.length = c.bodyLength → c.chunkCount = (c.bodyLength + 3327) / 3328 →
       (∀ k, k < c.chunkCount → (c.chunkAt k).crc = crc32 (sliceBytes body (3328 * k) 3328)) → c.bodyCrc = crc32 body)

/-- ABANDON and abandonment (R41, R42, R24, R13). Past the checks of R25, ABANDON answers RECORD_BUSY unless the
context is OPEN, and otherwise abandons it. An abandonment makes the context ABANDONING; each of its puts with a job
goes on to that job's end with ABORTED ahead of it, and each other one completes ABORTED; neither waits for a block any
longer. With no put left, also where the last ones complete ABORTED in that step, it finishes in its step: the slot is
FREE and its sequence has risen; every block of the context that was ALLOCATED is STALE and every other block is in the
state it was in; a create's entry is gone, and a replaced entry's busy field is empty; every other entry and slot stays;
and ABANDON completes OK, after the puts. While a put is left the entries, the blocks and the slot's sequence stay, and
the context is ABANDONING with its timer stopped, without the chunks in flight and the requests of the puts that
completed. A put that is ending and whose job completes waits for its other copy's job, and then completes with its result,
its chunk not present, and the abandonment finishes when it was the last. Several puts that complete ABORTED in one
step do so in the order they were taken, which is the order of the in-flight set; that is the model's choice (log 42). -/
def Obligations.AbandonmentGivesTheContextUp : Prop :=
  (∀ (s : State) (p : Port) (tag : Byte) (handle : BitVec 16) (i : SlotIndex) (c : Ctx),
     s.Takes p tag (.abandon handle) → s.phase = .ready ∨ s.phase = .worn → s.ctx? i = some c →
     handle = BitVec.ofNat 16 (i.val * 256 + s.slots[i].seq.toNat) → c.owner = p →
     (c.state ≠ .open →
       exec .abandon s = .next (s.answersWith p tag (.abandon handle) .recordBusy [] fun d =>
         d.setCtx i { c with timer := none }))
     ∧ (c.state = .open →
       exec .abandon s = .next (s.begins p tag (.abandon handle) fun d id =>
         ((d.setCtx i { c with requests := c.requests + 1, timer := none }).setWork id (.abandon i)).beginAbandon i)))
  ∧ (∀ (d d' : Device) (i : SlotIndex) (c : Ctx), d.ctx? i = some c → d.putsOf i = [] →
       d' = d.beginAbandon i ∨ (c.state = .abandoning ∧ d' = d.tryFinishAbandon i) →
       d'.slots[i] = { seq := d.slots[i].seq + 1, ctx := none }
       ∧ (∀ j, j ≠ i → d'.slots[j] = d.slots[j])
       ∧ (∀ a, d'.blockState a
           = if a ∈ c.blocks ∧ d.blockState a = some .allocated then some .stale else d.blockState a)
       ∧ (c.mode = .create → d'.entry? c.name = none)
       ∧ (c.mode = .replace → ∀ e, d.entry? c.name = some e → d'.entry? c.name = some { e with busy := .none })
       ∧ (∀ r, r ≠ c.name → d'.entry? r = d.entry? r)
       ∧ d'.locks = d.locks ∧ d'.settings = d.settings ∧ d'.layout = d.layout
       ∧ ∀ f ∈ d.flights, d.FlightsNamed → d.flightsWith (.abandon i) = [f.id] →
           d'.flights = d.flights.filter (fun g => decide (g.id ≠ f.id))
           ∧ (f.discard = false → (d'.port f.port).completions
               = (d.port f.port).completions ++ [{ tag := f.tag, kind := f.kind, result := .ok, reply := [] }]))
  ∧ (∀ (d : Device) (i : SlotIndex) (c : Ctx), d.ctx? i = some c → d.FlightsNamed →
       let d' := d.beginAbandon i
       let atWork (f : Flight) : Bool := match f.work with | .put w => decide (w.slot = i) && w.hasJob | _ => false
       let idle (f : Flight) : Bool := match f.work with | .put w => decide (w.slot = i) && !w.hasJob | _ => false
       let stays : Bool := d.flights.any atWork
       let posts (p : Port) (which : Flight → Bool) (result : Result) : List Completion :=
         (d.flights.filter fun f => which f && decide (f.port = p) && !f.discard).map fun f =>
           { tag := f.tag, kind := f.kind, result := result, reply := [] }
       (∀ p, (d'.port p).completions = (d.port p).completions ++ posts p idle .aborted
         ++ if stays then [] else posts p (fun f => decide (f.work = .abandon i)) .ok)
       ∧ d'.flights = (d.flights.filter fun f => !idle f && (stays || decide (f.work ≠ .abandon i))).map (fun f =>
           match f.work with
           | .put w => if w.slot = i then { f with work := .put { w with ending := some .aborted } } else f
           | _ => f)
       ∧ d'.pool.waits = d.pool.waits.filter (fun g => !(d.putsOf i).any fun id => g.asker.isPut id)
       ∧ (∀ j, j ≠ i → d'.slots[j] = d.slots[j])
       ∧ (∀ r, r ≠ c.name → d'.entry? r = d.entry? r)
       ∧ (stays = true →
         d'.slots[i] = { seq := d.slots[i].seq, ctx := some { c with
           state := .abandoning, timer := none, copying := none
           inFlight := c.inFlight.filter fun k => !d.flights.any fun f =>
             match f.work with | .put w => decide (w.slot = i) && !w.hasJob && decide (w.chunk = k) | _ => false
           requests := c.requests - d.flights.countP idle } }
         ∧ d'.entry? c.name = d.entry? c.name ∧ ∀ a, d'.blockState a = d.blockState a)
       ∧ (stays = false →
         d'.slots[i] = { seq := d.slots[i].seq + 1, ctx := none }
         ∧ (c.mode = .create → d'.entry? c.name = none)
         ∧ (c.mode = .replace → d'.entry? c.name = (d.entry? c.name).map fun e => { e with busy := .none })
         ∧ ∀ a, d'.blockState a
             = if a ∈ c.blocks ∧ d.blockState a = some .allocated then some .stale else d.blockState a))
  ∧ ∀ (s : State) (b : Bank) (j : Job) (id : Nat) (copy : Copy) (w : PutWork) (c : Ctx) (r : CopyRun) (result : Result),
      s.Working b j → j.by_ = .put id copy → s.work? id = some (.put w) → w.ending = some result →
      w.run copy = some r → s.ctx? w.slot = some c → c.state = .abandoning →
      let w' := w.setRun copy { r with job := none }
      let left (d : Device) (x : PutWork) (c : Ctx) : Device :=
        if x.hasJob = true then d.setWork id (.put x)
        else ((({ d with pool := { d.pool with
          waits := d.pool.waits.filter fun g => !g.asker.isPut id
          recheck := d.pool.recheck || d.pool.waits.any fun g => g.asker.isPut id } } : Device).setCtx w.slot { c with
            inFlight := c.inFlight.filter fun k => decide (k ≠ w.chunk), requests := c.requests - 1 }).complete
              id result []).tryFinishAbandon w.slot
      exec (.putProgramDone b .ok) s = .next (s.afterWork b j .ok (left s.toDevice w' c))
      ∧ exec (.putProgramDone b .fail) s
          = .next (s.afterWork b j .fail (left ((s.programFailed b j).putBlockLost id w copy)
              (w.setRun copy { r with block := none, job := none })
              (c.modChunk w.chunk fun x => x.setBlock copy none)))

/-- When the idle timer of an OPEN context runs out (R44) the context is abandoned, and UPDATE_EXPIRED is posted to its
owner's port; in a state where the timer of the slot does not run, nothing changes (log 1). -/
def Obligations.AnIdleTimerThatRunsOutAbandonsItsContext : Prop :=
  ∀ (s : State) (i : SlotIndex),
    (∀ c, s.power = .running → s.ctx? i = some c → c.state = .open → c.timer ≠ none →
      exec (.idleTimerExpiry i) s
        = .next { s with toDevice :=
            ((s.beginAbandon i).post c.owner { Notices.empty with updateExpired := true }).finishStep })
    ∧ ((s.power ≠ .running ∨ s.timerRuns i = false) → exec (.idleTimerExpiry i) s = .next s)

/-! ### Marks, holds and locks -/

/-- RETIRE (R71), RESTORE (R73) and FREEZE (R88): the first failing check decides, in each rule's order; a RESTORE of a
LIVE record and a FREEZE of a FROZEN one are answered OK with nothing programmed; a request that passes goes on to mark
work of its kind. -/
def Obligations.MarkRequestsMakeTheirChecksInOrder : Prop :=
  ∀ (s : State) (p : Port) (tag ns : Byte) (key : Key),
    let e? := s.entryOf ns key
    let common : List (Bool × Result) :=
      [ (decide (s.phase ≠ .ready) && decide (s.phase ≠ .worn), .notReady), (decide (s.phase = .worn), .worn),
        ((s.nsOf ns).isNone, .nsInvalid), (decide (s.rightOn p ns ≠ .full), .denied),
        (s.layout.pending, .layoutPending), ((s.nsOf ns).any fun n => s.locks[n], .nsLocked), (e?.isNone, .notFound),
        (e?.any fun e => decide (e.busy ≠ .none), .recordBusy) ]
    (s.Takes p tag (.retire ns key) →
      let checks := common ++
        [ (e?.any fun e => decide (e.state = .retired), .recordRetired),
          (e?.any fun e => decide (e.hold = .frozen), .holdFrozen),
          (e?.any fun e => decide (e.hold = .held p.other), .holdConflict) ]
      (∀ r, firstFailure checks = some r → exec .retire s = .next (s.answers p tag (.retire ns key) r []))
      ∧ ∀ e, firstFailure checks = none → e? = some e →
          exec .retire s = .next (s.begins p tag (.retire ns key) fun d id => d.beginMark id .retire e))
    ∧ (s.Takes p tag (.restore ns key) →
      (∀ r, firstFailure common = some r → exec .restore s = .next (s.answers p tag (.restore ns key) r []))
      ∧ ∀ e, firstFailure common = none → e? = some e →
          (e.state = .live → exec .restore s = .next (s.answers p tag (.restore ns key) .ok
            (leBytes 1 e.state.code ++ leBytes 4 e.version.generation ++ leBytes 1 e.marks)))
          ∧ (e.state ≠ .live →
            exec .restore s = .next (s.begins p tag (.restore ns key) fun d id => d.beginMark id .restore e)))
    ∧ (s.Takes p tag (.freeze ns key) →
      let checks := common ++ [(e?.any fun e => decide (e.state = .retired), .recordRetired)]
      (∀ r, firstFailure checks = some r → exec .freeze s = .next (s.answers p tag (.freeze ns key) r []))
      ∧ ∀ e, firstFailure checks = none → e? = some e →
          (e.hold = .frozen → exec .freeze s = .next (s.answers p tag (.freeze ns key) .ok
            (leBytes 1 e.state.code ++ leBytes 1 e.hold.code ++ leBytes 4 e.version.generation ++ leBytes 1 e.marks)))
          ∧ (e.hold = .held p.other →
            exec .freeze s = .next (s.answers p tag (.freeze ns key) .holdConflict []))
          ∧ (e.hold ≠ .frozen → e.hold ≠ .held p.other →
            exec .freeze s = .next (s.begins p tag (.freeze ns key) fun d id => d.beginMark id .freeze e)))

/-- Mark work (R65 to R67, R72, R73, R89). With marks used m below 3 the entry is busy with MARK and a mark of the kind
that names the entry's generation is queued for slot m + 1, segments 4m to 4m + 3 of page 14 of the PRIMARY chunk 0
block; with marks used 3 the two checks of R65 decide first, and a mark relocation then draws its places of the
allowance, the lesser of chunk count × copies and 16, with the excess reserved. MARK_PROGRAM_DONE: OK is the mark
point: marks used takes the slot's number, RETIRE makes the entry RETIRED with hold NONE and the next retire order,
RESTORE makes it LIVE without one, FREEZE makes its hold FROZEN, and every other entry stays; then the same mark is
queued for the MIRROR chunk 0, or with none to take it the work is done. FAIL makes the block BAD and marks used 3,
puts the record into the refresh set, and goes on to a relocation, or to the answer of a failed check with the busy
field empty. MIRROR_MARK_PROGRAM_DONE, with either outcome, ends the work; when it failed, the mirror block goes BAD,
element 0 of the mirror list becomes MISSING and the record enters the refresh set. Mark work that is done leaves the
busy field empty and completes OK with the state, hold, generation and marks used of the entry. -/
def Obligations.MarkWorkTakesTheNextSlotOrRelocates : Prop :=
  let checks (d : Device) (e : Entry) : List (Bool × Result) :=
    let needed := e.version.chunks.length * d.copiesOf e.name.ns
    [ (decide (e.version.generation = 4294967294), .generationLimit),
      (decide (0 < needed - 16) && decide ((d.desc e.name.ns).quota
        < d.held e.name.ns + d.reservedBlocks e.name.ns + (needed - 16)), .quotaExceeded) ]
  let relocates (d : Device) (id : Nat) (kind : MarkKind) (e : Entry) : Device :=
    let needed := e.version.chunks.length * d.copiesOf e.name.ns
    let reloc : Reloc :=
      { name := e.name, kind := .mark kind, source := e.version, copies := d.copiesOf e.name.ns,
        newGen := e.version.generation + 1, frozen := decide (kind = .freeze), retired := decide (kind = .retire),
        secured := 0, excess := needed - 16, stage := .draw, blocks := [], chunk := 0, got := [], crc := [],
        primary := .start, mirror := none, jobs := 0, ending := none }
    let d' := d.setWork id (.mark { kind := kind, name := e.name, stage := .relocation reloc })
    { d' with pool := { d'.pool with
        draws := d'.pool.draws ++ [{ drawer := .reloc (.mark id), places := min needed 16 }] } }
  let done (d : Device) (id : Nat) (r : RecordName) : Device :=
    (d.modEntry r fun e => { e with busy := .none }).complete id .ok (((d.entry? r).map fun e =>
      leBytes 1 e.state.code ++ leBytes 1 e.hold.code ++ leBytes 4 e.version.generation ++ leBytes 1 e.marks).getD [])
  let missing (d : Device) (r : RecordName) : Device :=
    let d' := d.modEntry r fun e => { e with version := { e.version with mirrors := e.version.mirrors.set 0 none } }
    { d' with pool := { d'.pool with refresh := insertName r d'.pool.refresh } }
  (∀ (d : Device) (id : Nat) (kind : MarkKind) (e : Entry),
    let busied := d.modEntry e.name fun x => { x with busy := .mark }
    (∀ x, e.marks < 3 → e.version.chunkAt 0 = some x →
      d.beginMark id kind e
        = (busied.setWork id (.mark { kind := kind, name := e.name, stage := .slot (e.marks + 1) .primary })).queueJob
            x.addr.bank (segmentJob x.addr.block 14 (4 * e.marks)
              (markRecord kind (e.marks + 1) e.version.generation) (.mark id)))
    ∧ (3 ≤ e.marks → ∀ r, firstFailure (checks d e) = some r → d.beginMark id kind e = d.complete id r [])
    ∧ (3 ≤ e.marks → firstFailure (checks d e) = none → d.beginMark id kind e = relocates busied id kind e))
  ∧ (∀ (s : State) (b : Bank) (j : Job) (id k : Nat) (kind : MarkKind) (r : RecordName) (copy : Copy), s.Working b j →
     s.work? id = some (.mark { kind := kind, name := r, stage := .slot k copy }) →
     (j.by_ = .mark id →
       (∀ e, s.entry? r = some e →
         let d := s.markPoint kind k r
         let mirrored (m : BlockAddr) : Device :=
           (d.setWork id (.mark { kind := kind, name := r, stage := .slot k .mirror })).queueJob m.bank
             (segmentJob m.block 14 (4 * (k - 1)) (markRecord kind k e.version.generation) (.mirrorMark id))
         (∀ m, e.version.mirrorAt 0 = some m →
           exec (.markProgramDone b .ok) s = .next (s.afterWork b j .ok (mirrored m)))
         ∧ (e.version.mirrorAt 0 = none →
           exec (.markProgramDone b .ok) s = .next (s.afterWork b j .ok (done d id r))))
       ∧ (let failed := (s.programFailed b j).modEntry r fun e => { e with marks := 3 }
         let d : Device := { failed with pool := { failed.pool with refresh := insertName r failed.pool.refresh } }
         ∀ e, d.entry? r = some e →
           (∀ result, firstFailure (checks d e) = some result →
             exec (.markProgramDone b .fail) s = .next (s.afterWork b j .fail
               ((d.modEntry r fun e => { e with busy := .none }).complete id result [])))
           ∧ (firstFailure (checks d e) = none →
             exec (.markProgramDone b .fail) s = .next (s.afterWork b j .fail (relocates d id kind e)))))
     ∧ (j.by_ = .mirrorMark id →
       exec (.mirrorMarkProgramDone b .ok) s = .next (s.afterWork b j .ok (done s.toDevice id r))
       ∧ exec (.mirrorMarkProgramDone b .fail) s
           = .next (s.afterWork b j .fail (done (missing (s.programFailed b j) r) id r))))
  ∧ (∀ (d : Device) (r : RecordName) (k : Nat) (e : Entry), d.entry? r = some e →
       (d.markPoint .retire k r).entry? r
           = some { e with marks := k, state := .retired, hold := .none, retireOrder := some d.retireCounter }
       ∧ (d.markPoint .retire k r).retireCounter = d.retireCounter + 1
       ∧ (d.markPoint .restore k r).entry? r = some { e with marks := k, state := .live, retireOrder := none }
       ∧ (d.markPoint .restore k r).retireCounter = d.retireCounter
       ∧ (d.markPoint .freeze k r).entry? r = some { e with marks := k, state := .live, hold := .frozen }
       ∧ (d.markPoint .freeze k r).retireCounter = d.retireCounter
       ∧ ∀ kind q, q ≠ r → (d.markPoint kind k r).entry? q = d.entry? q)

/-! ### The block pool -/

/-- Grants and draws (R100 to R105, R107, R108). A block request takes, among the banks it need not avoid that hold a
FREE block of its placement, one with a queue below 16 if there is one, the one with the most such blocks, the lowest
of equals; there the block of the lowest erase count and number, or of the highest. A grant's requests are resolved in
order, each against what the earlier ones left. The wait list is examined when a block has become FREE or BAD, a
waiting grant has been withdrawn, or a grant has found the list empty (log 59): its head is made if it can be, its
blocks ALLOCATED with owner and flag, and refused if it could not be with every STALE and ERASING block FREE, and the
next one follows; else it waits, as do those behind it. A grant made queues what it is for: a put's headers, page 0's
read of a second commit attempt (log 13), all reads of a relocation's first chunk (log 14). When another grant has
become the head, an erase has completed or a STALE block has lost its last pin, each bank with no erase job of a
scrub-queue block out is given a demand erase: the oldest unpinned block of the scrub queue there that an unmet request
of the head could take. The oldest draw is granted when the places in use and its own are at most 16: those secured and
not yet turned into blocks, and the ALLOCATED blocks with the flag; then its blocks are asked for. A refused put
completes NO_SPACE as its jobs end (log 11), a relocation ends NO_SPACE, and a second commit attempt completes
COMMIT_FAILED (log 12) and its context is abandoned. Blocks that become STALE in one step join the scrub queue's end in
ascending order. The model's choices: the order within a step (logs 19, 39), the fields that tell when demand erases
and the wait list are examined (logs 56, 59), those two schedules and the put's end (logs 11, 13, 14), and that whether
a grant may wait is tested by R101's own choice over the FREE, STALE and ERASING blocks (log 21). -/
def Obligations.GrantsAndDrawsAreMadeInTurn : Prop :=
  let places (d : Device) (o : Owner) (a : BlockAddr) : Bool :=
    let early := decide (a.bank.val ≤ 1) && decide (a.block.val ≤ 63)
    match d.earlyNs with
    | none => true
    | some n => if o.name.ns = n then early && decide (a.bank = if o.copy = .primary then 0 else 1) else !early
  let offer (d : Device) (taken : List BlockAddr) (r : BlockRequest) (l : BlockLine) : Bool :=
    decide (l.entry.state = .free) && decide (l.addr ∉ taken) && places d r.owner l.addr
  let count (d : Device) (taken : List BlockAddr) (r : BlockRequest) (b : Bank) : Nat :=
    d.pool.table.countP fun l => decide (l.addr.bank = b) && offer d taken r l
  let avoided (r : BlockRequest) (previous : Option Bank) (b : Bank) : Prop :=
    r.avoid = .bank b ∨ (r.avoid = .previous ∧ previous = some b)
  let key (l : BlockLine) : Nat := l.entry.count * 2048 + l.addr.num
  (∀ (d : Device) (taken : List BlockAddr) (r : BlockRequest) (previous : Option Bank),
    let candidate (b : Bank) : Prop := 0 < count d taken r b ∧ ¬avoided r previous b
    let short (b : Bank) : Prop := d.engines[b].queue.length < 16
    (d.chooseBlock onlyFree taken r previous = none ↔ ∀ b, ¬candidate b)
    ∧ ∀ a, d.chooseBlock onlyFree taken r previous = some a →
        candidate a.bank ∧ ((∃ b, candidate b ∧ short b) → short a.bank)
        ∧ (∀ b, candidate b → (short a.bank → short b) →
            count d taken r b < count d taken r a.bank ∨ (count d taken r b = count d taken r a.bank ∧ a.bank ≤ b))
        ∧ ∃ l ∈ d.pool.table, l.addr = a ∧ offer d taken r l = true
          ∧ ∀ x ∈ d.pool.table, x.addr.bank = a.bank → offer d taken r x = true →
              if r.tail = true then key x ≤ key l else key l ≤ key x)
  ∧ (∀ (d : Device) (avail : BlockState → Bool) (r : BlockRequest) (rest : List BlockRequest) (taken : List BlockAddr)
      (previous : Option Bank),
    d.resolveGrant avail [] taken previous = some []
    ∧ (d.chooseBlock avail taken r previous = none → d.resolveGrant avail (r :: rest) taken previous = none)
    ∧ (∀ a, d.chooseBlock avail taken r previous = some a →
        d.resolveGrant avail (r :: rest) taken previous
          = (d.resolveGrant avail rest (a :: taken) (some a.bank)).map fun as => a :: as))
  ∧ (∀ (d : Device) (g : Grant) (rest : List Grant), d.pool.waits = g :: rest →
    let now := d.resolveGrant onlyFree g.requests [] none
    let allFree : Device := { d with pool := { d.pool with table := d.pool.table.map fun l =>
      if l.entry.state = .stale ∨ l.entry.state = .erasing then { l with entry := { l.entry with state := .free } } else l } }
    let later := allFree.resolveGrant onlyFree g.requests [] none
    let without : Device := { d with pool := { d.pool with waits := rest } }
    (d.pool.recheck = false → d.waitStep = none)
    ∧ (∀ as, d.pool.recheck = true → now = some as →
      let granted := (g.requests.zip as).foldl (fun d x => d.modBlock x.2 fun e =>
        { e with state := .allocated, owner := some x.1.owner, flag := x.1.allowance }) without
      d.waitStep = some (granted.grantMade g as))
    ∧ (d.pool.recheck = true → now = none → later ≠ none →
        d.waitStep = some { d with pool := { d.pool with recheck := false } })
    ∧ (d.pool.recheck = true → now = none → later = none → d.waitStep = some (without.grantRefused g))
    ∧ (∀ id again w, g.asker = .put id again → d.work? id = some (.put w) →
        without.grantRefused g = without.putEnd id { w with ending := some .noSpace })
    ∧ (∀ i c, g.asker = .commit i → d.ctx? i = some c → c.state = .committing →
        let ids := d.flightsWith (.commit i)
        without.grantRefused g = (ids.foldl (fun d id => d.complete id .commitFailed [])
          (without.setCtx i { c with requests := c.requests - ids.length })).beginAbandon i)
    ∧ (∀ id again r, g.asker = .reloc id again → d.reloc? id = some r →
        let held : Bool := match again with
          | none => false
          | some copy => (r.blocks[r.place r.chunk copy]?).any (·.flagged)
        let r' : Reloc := { r with
          secured := if held = true then r.secured - 1 else r.secured, ending := some .noSpace }
        let cut : Device := { without with pool := { without.pool with
          draws := d.pool.draws.filter fun x => decide (x.drawer ≠ .reloc id)
          waits := rest.filter fun g => !g.asker.isReloc id
          recheck := d.pool.recheck || rest.any fun g => g.asker.isReloc id } }
        let freed := (cut.toStale (r.blocks.map (·.addr))).modEntry r.name fun e => { e with busy := .none }
        (r.jobs ≠ 0 → without.grantRefused g = cut.setReloc id r')
        ∧ (r.jobs = 0 → id = .maint → without.grantRefused g = { freed with maint := { freed.maint with
            reloc := none, passOver := insertName r.name freed.maint.passOver } })
        ∧ (∀ f, r.jobs = 0 → id = .mark f → without.grantRefused g = freed.complete f .noSpace []))
    ∧ (let named (g : Grant) : Asker × List Owner := (g.asker, g.requests.map (·.owner))
      let examined : Prop := d.pool.examine = true ∨ ∀ h, d.pool.head = some h → named h ≠ named g
      (∀ b a, d.demandIn g b = some a → d.nextDemand ≠ none)
      ∧ (¬examined ∨ d.nextDemand = none → d.demandStep = none)
      ∧ ∀ a, d.nextDemand = some a →
        (∀ b, b < a.bank → d.demandIn g b = none) ∧ d.demandIn g a.bank = some a
        ∧ (examined → d.demandStep = some ((({ d with pool := { d.pool with
            scrub := d.pool.scrub.filter fun x => decide (x ≠ a) } } : Device).modBlock a fun e =>
              { e with state := .erasing, erase := some { eraser := .demand, stamp := false } }).queueJob a.bank
            { block := a.block, op := .blockErase, cls := if d.pool.level = 3 then .program else .erase
              by_ := .scrubErase })))
    ∧ ∀ b, let out : Prop := ∃ l ∈ d.pool.table, l.addr.bank = b ∧ l.entry.state = .erasing
            ∧ ∃ w, l.entry.erase = some w ∧ w.eraser ≠ .purge ∧ w.stamp = false
        let takes (a : BlockAddr) : Prop := a.bank = b ∧ d.pinsOf a = 0
          ∧ ∃ x ∈ d.unmet g.requests [] none, x.2 ≠ some b ∧ places d x.1 a = true
        (d.demandIn g b = none ↔ out ∨ ∀ a ∈ d.pool.scrub, ¬takes a)
        ∧ ∀ a, d.demandIn g b = some a → ∃ front back, d.pool.scrub = front ++ a :: back ∧ takes a
            ∧ ∀ x ∈ front, ¬takes x)
  ∧ (∀ d : Device, d.pool.waits = [] → d.waitStep = none ∧ d.demandStep = none)
  ∧ (∀ (d : Device) (j : Job) (as : List BlockAddr),
    let freed : Prop := ∃ a ∈ as, (d.unpin as).blockState a = some .stale ∧ (d.unpin as).pinsOf a = 0
    (d.eraseOver j = if j.op = .blockErase then { d with pool := { d.pool with examine := true } } else d)
    ∧ ((d.unpin as).pool.examine = true ↔ d.pool.examine = true ∨ freed)
    ∧ d.finishStep.pool.examine = false ∧ d.finishStep.pool.head = d.finishStep.pool.waits.head?
    ∧ d.finishStep.pool.recheck = false)
  ∧ (∀ (d : Device) (a : BlockAddr) (cause : BadCause) (page seg : Nat) (e : BlockEntry), d.pool.block? a = some e →
    (d.blockFreed a).pool.recheck = true
    ∧ ((d.makeBad a cause page seg).pool.recheck = true
        ↔ d.pool.recheck = true ∨ (e.state ≠ .bad ∧ e.state ≠ .descriptor)))
  ∧ (∀ (d : Device) (r : BlockRequest) (rest : List BlockRequest) (taken : List BlockAddr) (previous : Option Bank),
    d.unmet [] taken previous = []
    ∧ (d.chooseBlock onlyFree taken r previous = none → d.unmet (r :: rest) taken previous
        = (r.owner, match r.avoid with | .nothing => none | .bank b => some b | .previous => previous)
            :: d.unmet rest taken none)
    ∧ ∀ a, d.chooseBlock onlyFree taken r previous = some a →
        d.unmet (r :: rest) taken previous = d.unmet rest (a :: taken) (some a.bank))
  ∧ (∀ (d : Device) (g : Grant) (as : List BlockAddr),
    let run (x : CopyRun) (a : BlockAddr) : CopyRun := { x with block := some a, job := some 0 }
    (∀ id w c a, d.work? id = some (.put w) → d.ctx? w.slot = some c →
      (∀ x ∈ d.pool.waits, ∀ copy, x.asker ≠ .put id (some copy)) →
      let headerJob (copy : Copy) (a : BlockAddr) : Job := segmentJob a.block 0 1 (headerRecord
        { name := c.name, chunk := w.chunk, count := c.chunkCount, copy := copy, generation := c.newGen,
          bodyLength := c.bodyLength, frozen := false, retired := false }) (.put id copy)
      (∀ copy x, g.asker = .put id (some copy) → w.run copy = some x → as = [a] →
        d.grantMade g as = ((d.setCtx w.slot { c.modChunk w.chunk fun y => y.setBlock copy (some a) with
          reserved := c.reserved - 1 }).queueJob a.bank (headerJob copy a)).setWork id (.put (w.setRun copy (run x a))))
      ∧ (g.asker = .put id none → w.mirror = none → as = [a] →
        d.grantMade g as = ((d.setCtx w.slot { c.modChunk w.chunk fun x => { x with primary := some a } with
          reserved := c.reserved - 1 }).queueJob a.bank (headerJob .primary a)).setWork id
            (.put { w with primary := run w.primary a }))
      ∧ ∀ m b, g.asker = .put id none → w.mirror = some m → as = [a, b] →
        d.grantMade g as = (((d.setCtx w.slot { c.modChunk w.chunk fun x =>
            { x with primary := some a, mirror := some b } with reserved := c.reserved - 2 }).queueJob a.bank
              (headerJob .primary a)).queueJob b.bank (headerJob .mirror b)).setWork id
                (.put { w with primary := run w.primary a, mirror := some (run m b) }))
    ∧ (∀ i c x a, g.asker = .commit i → d.ctx? i = some c → c.copying = some x → as = [a] →
      d.grantMade g as = (d.setCtx i { c.modChunk 0 fun r => { r with primary := some a } with
        copying := some { x with page := 0, secured := 0 } }).queueJob x.failed.bank
          (readJob x.failed.block 0 (.commitCopyRead i .primary)))
    ∧ (∀ id copy r x a, g.asker = .reloc id (some copy) → d.reloc? id = some r → r.run copy = some x → as = [a] →
      (∀ y ∈ d.pool.waits, ∀ c, y.asker ≠ .reloc id (some c)) →
      let flagged := (r.blocks[r.place r.chunk copy]?).any (·.flagged)
      d.grantMade g as = (d.queueJob a.bank (segmentJob a.block 0 1 (headerRecord
          { name := r.name, chunk := r.chunk, count := r.source.chunks.length, copy := copy, generation := r.newGen
            bodyLength := r.source.bodyLength, frozen := r.frozen, retired := r.retired })
          (.relocProgram id copy))).setReloc id
        { r.setRun copy (run x a) with
          blocks := r.blocks.set (r.place r.chunk copy) { addr := a, flagged := flagged }
          secured := if flagged = true then r.secured - 1 else r.secured
          excess := if flagged = true then r.excess else r.excess - 1, jobs := r.jobs + 1 })
    ∧ ∀ id r x, g.asker = .reloc id none → d.reloc? id = some r → r.source.chunkAt 0 = some x →
      d.grantMade g as = (([1, 2, 3, 4, 5, 6, 7, 8, 9, 10, 11, 12, 13, 15] : List Nat).foldl (fun d page =>
          d.queueJob x.addr.bank (readJob x.addr.block page (.relocRead id 0 page .primary))) d).setReloc id
        { r with
          blocks := as.zipIdx.map fun y =>
            { addr := y.1, flagged := decide (y.2 < min (r.source.chunks.length * r.copies) 16) }
          secured := 0, excess := 0, stage := .copying, chunk := 0, got := [], jobs := r.jobs + 14, primary := .start
          mirror := if r.copies = 2 then some .start else none })
  ∧ (∀ (d : Device) (asker : Asker) (rs : List BlockRequest),
      d.askGrant asker rs = { d with pool := { d.pool with
        waits := d.pool.waits ++ [{ asker := asker, requests := rs }]
        recheck := d.pool.recheck || d.pool.waits.isEmpty } })
  ∧ (∀ (d : Device) (who : Drawer) (n : Nat),
      d.askDraw who n = { d with pool := { d.pool with draws := d.pool.draws ++ [{ drawer := who, places := n }] } })
  ∧ (∀ d : Device, d.pool.draws = [] → d.drawStep = none)
  ∧ (∀ (d : Device) (x : Draw) (rest : List Draw), d.pool.draws = x :: rest →
    let used := (d.contexts.map fun c => (c.copying.map (·.secured)).getD 0).sum + (d.relocs.map (·.secured)).sum
      + d.pool.table.countP fun l => decide (l.entry.state = .allocated) && l.entry.flag
    let without : Device := { d with pool := { d.pool with draws := rest } }
    (16 < used + x.places → d.drawStep = none)
    ∧ (used + x.places ≤ 16 →
      (∀ i c, x.drawer = .commit i → d.ctx? i = some c →
        d.drawStep = some ((without.setCtx i { c with copying := c.copying.map fun y => { y with secured := 1 } }).askGrant
          (.commit i) [{ owner := { name := c.name, generation := c.newGen, chunk := 0, copy := .primary }
                         allowance := true, tail := false
                         avoid := match (c.chunkAt 0).mirror with | none => .nothing | some a => .bank a.bank }]))
      ∧ (∀ id r, x.drawer = .reloc id → d.reloc? id = some r →
        let needed := r.source.chunks.length * r.copies
        let owner (chunk : Nat) (copy : Copy) : Owner :=
          { name := r.name, generation := r.newGen, chunk := chunk, copy := copy }
        let request (i chunk : Nat) (copy : Copy) (avoid : Avoid) : BlockRequest :=
          { owner := owner chunk copy, allowance := decide (i < min needed 16), tail := decide (r.kind = .wear)
            avoid := avoid }
        let asked (rs : List BlockRequest) : Device :=
          (without.setReloc id { r with secured := min needed 16, stage := .grant }).askGrant (.reloc id none) rs
        (r.copies = 1 → d.drawStep = some (asked
          ((List.range r.source.chunks.length).map fun k => request k k .primary .nothing)))
        ∧ (r.copies = 2 → d.drawStep = some (asked ((List.range r.source.chunks.length).flatMap fun k =>
            [request (2 * k) k .primary .nothing, request (2 * k + 1) k .mirror .previous]))))))
  ∧ ∀ (d : Device) (as bs : List BlockAddr), d.pool.joined = [] →
      (∀ a ∈ d.pool.scrub, d.blockState a ≠ some .allocated) →
      let d' := (d.toStale as).toStale bs
      (∀ a, d'.blockState a
        = if a ∈ as ++ bs ∧ d.blockState a = some .allocated then some .stale else d.blockState a)
      ∧ ∃ going, d'.pool.scrub = d.pool.scrub ++ going ∧ (going.map (·.num)).Pairwise (· ≤ ·)
          ∧ ∀ a, a ∈ going ↔ a ∈ as ++ bs ∧ d.blockState a = some .allocated

/-! ### Holds and locks -/

/-- HOLD (R85) and RELEASE (R86): the first failing check decides, and a HOLD or RELEASE so refused changes no hold; a
HOLD that passes sets the hold to HELD by the requester, and a RELEASE that passes sets it to NONE, each completing OK
with the hold and holder as they stand after it. No check reads the busy field, the startup lock or the layout-pending
flag. -/
def Obligations.HoldAndReleaseActOnTheHold : Prop :=
  ∀ (s : State) (p : Port) (tag ns : Byte) (key : Key),
    let e? := s.entryOf ns key
    let common : List (Bool × Result) :=
      [ (decide (s.phase ≠ .ready) && decide (s.phase ≠ .worn), .notReady), ((s.nsOf ns).isNone, .nsInvalid),
        (decide (s.rightOn p ns ≠ .full), .denied), (e?.isNone, .notFound) ]
    (s.Takes p tag (.hold ns key) →
      let checks := common ++
        [ (e?.any fun e => decide (e.state = .reserved), .recordBusy),
          (e?.any fun e => decide (e.state = .retired) || decide (e.state = .purging), .recordRetired),
          (e?.any fun e => decide (e.hold = .frozen), .holdFrozen),
          (e?.any fun e => decide (e.hold = .held p.other), .holdConflict) ]
      (∀ r, firstFailure checks = some r → exec .hold s = .next (s.answers p tag (.hold ns key) r []))
      ∧ ∀ e, firstFailure checks = none → e? = some e →
          exec .hold s = .next (s.answersWith p tag (.hold ns key) .ok (leBytes 1 1 ++ leBytes 1 p.code) fun d =>
            d.modEntry e.name fun x => { x with hold := .held p }))
    ∧ (s.Takes p tag (.release ns key) →
      let checks := common ++
        [ (e?.any fun e => decide (e.hold = .frozen), .holdFrozen),
          (e?.any fun e => decide (e.hold = .held p.other), .holdConflict) ]
      (∀ r, firstFailure checks = some r → exec .release s = .next (s.answers p tag (.release ns key) r []))
      ∧ ∀ e, firstFailure checks = none → e? = some e →
          exec .release s = .next (s.answersWith p tag (.release ns key) .ok (leBytes 1 0 ++ leBytes 1 0) fun d =>
            d.modEntry e.name fun x => { x with hold := .none }))

/-- LOCK NAMESPACE (R91): the first failing check decides; a request that passes sets the namespace's startup lock and
completes OK with a flag that is set when the lock was set before it. The other locks stay. -/
def Obligations.LockNamespaceSetsTheLock : Prop :=
  ∀ (s : State) (p : Port) (tag ns : Byte), s.Takes p tag (.lockNamespace ns) →
    let checks : List (Bool × Result) :=
      [ (decide (s.phase ≠ .ready) && decide (s.phase ≠ .worn), .notReady), ((s.nsOf ns).isNone, .nsInvalid),
        (decide (s.rightOn p ns ≠ .full), .denied) ]
    (∀ r, firstFailure checks = some r →
      exec .lockNamespace s = .next (s.answers p tag (.lockNamespace ns) r []))
    ∧ ∀ n, firstFailure checks = none → s.nsOf ns = some n →
        exec .lockNamespace s = .next (s.answersWith p tag (.lockNamespace ns) .ok
          (leBytes 1 (if s.locks[n] then 1 else 0)) fun d => { d with locks := s.locks.set n true })

/-! ### The device requests -/

/-- CONFIGURE (R170, R181): the first failing check decides; a request that passes sets every new value, an all-ones
field leaving its setting as it was, and completes OK with all six settings. -/
def Obligations.ConfigureSetsEveryNewValue : Prop :=
  ∀ (s : State) (p : Port) (tag : Byte) (timeout : BitVec 16) (threshold mode : Byte) (spread : BitVec 16) (pa sa : Byte),
    let body : Req := .configure timeout threshold mode spread pa sa
    s.Takes p tag body →
    let inRange :=
      (decide (timeout = 0xFFFF) || decide (timeout.toNat ≤ 255))
        && (decide (threshold = 0xFF) || (decide (4 ≤ threshold.toNat) && decide (threshold.toNat ≤ 8)))
        && (decide (mode = 0xFF) || decide (mode.toNat ≤ 1))
        && (decide (spread = 0xFFFF) || (decide (64 ≤ spread.toNat) && decide (spread.toNat ≤ 1024)))
        && (decide (pa = 0xFF) || decide (pa.toNat ≤ 1)) && (decide (sa = 0xFF) || decide (sa.toNat ≤ 1))
    let checks : List (Bool × Result) :=
      [ (decide (p = .service), .denied), (decide (s.phase ≠ .ready) && decide (s.phase ≠ .worn), .notReady),
        (!inRange, .badParameter) ]
    (∀ r, firstFailure checks = some r → exec .configure s = .next (s.answers p tag body r []))
    ∧ (firstFailure checks = none →
      let t := if timeout = 0xFFFF then s.settings.timeout else timeout.toNat
      let h := if threshold = 0xFF then s.settings.threshold else threshold.toNat
      let m : MaintMode := if mode = 0xFF then s.settings.mode else if mode = 0 then .auto else .manual
      let w := if spread = 0xFFFF then s.settings.wearSpread else spread.toNat
      let a := if pa = 0xFF then s.primary.alertEnable else decide (pa = 1)
      let b := if sa = 0xFF then s.service.alertEnable else decide (sa = 1)
      exec .configure s = .next (s.answersWith p tag body .ok
        (leBytes 1 t ++ leBytes 1 h ++ leBytes 1 m.code ++ leBytes 2 w ++ leBytes 1 (if a then 1 else 0)
          ++ leBytes 1 (if b then 1 else 0))
        fun d => { d with
          settings := { timeout := t, threshold := h, mode := m, wearSpread := w }
          primary := { d.primary with alertEnable := a }
          service := { d.service with alertEnable := b } }))

/-- MAINTAIN (R135, R131): the first failing check decides; a request that passes starts a run of origin MAINTAIN, with
its counts and visited set cleared, worn seen set just in phase WORN, and the pass-over list cleared, and stays in
flight. -/
def Obligations.MaintainStartsARun : Prop :=
  ∀ (s : State) (p : Port) (tag : Byte), s.Takes p tag .maintain →
    let checks : List (Bool × Result) :=
      [ (decide (s.phase ≠ .ready) && decide (s.phase ≠ .worn), .notReady), (decide (s.maint.run ≠ .idle), .maintBusy) ]
    (∀ r, firstFailure checks = some r → exec .maintain s = .next (s.answers p tag .maintain r []))
    ∧ (firstFailure checks = none →
      exec .maintain s = .next (s.begins p tag .maintain fun d id =>
        { d.setWork id .maintain with maint := { d.maint with
            run := .running, origin := .maintain p, erased := 0, relocated := 0, wornSeen := decide (s.phase = .worn),
            visited := [], wearMoved := false, passOver := [] } }))

/-- HEALTH (R168) and IDENTIFY (R169) are served in every phase and always complete OK, with the figures, the identity,
the layout version and the layout-pending flag of the state as it stands. The order and widths of the fields are the
model's choice (log 9), and so is that a block found with a valid header counts in no figure until its version is
resolved (log 54) and a block that awaits its erase verify in none until that completes (log 58). -/
def Obligations.HealthAndIdentifyAreServedInEveryPhase : Prop :=
  (∀ (s : State) (p : Port) (tag : Byte), s.Takes p tag .health →
     let blocks (q : BlockLine → Bool) : Nat := s.pool.table.countP q
     let inState (b : Bank) (x : BlockState) : Nat :=
       blocks fun l => decide (l.addr.bank = b) && decide (l.entry.state = x)
     let factory (b : Bank) : Nat :=
       blocks fun l => decide (l.addr.bank = b) && decide (l.entry.state = .bad) && l.entry.factory
     let bank (b : Bank) : List Byte :=
       leBytes 2 (inState b .free + inState b .allocated + inState b .stale + inState b .erasing)
         ++ leBytes 2 (factory b) ++ leBytes 2 (inState b .bad - factory b) ++ leBytes 2 (inState b .free)
         ++ leBytes 2 (inState b .allocated) ++ leBytes 2 (inState b .stale) ++ leBytes 2 (inState b .erasing)
         ++ leBytes 1 s.engines[b].queue.length
     exec .health s = .next (s.answers p tag .health .ok
       (bank 0 ++ bank 1 ++ bank 2 ++ bank 3
         ++ leBytes 2 s.goodTotal ++ leSigned16 ((s.goodTotal : Int) - s.quotaSum - 32)
         ++ leBytes 4 s.highestCount ++ leBytes 4 s.lowestCount ++ leBytes 4 (s.goodCounts.sum / s.goodCounts.length)
         ++ leBytes 2 (blocks fun l => decide (l.entry.state ≠ .bad) && l.entry.estimated)
         ++ leBytes 1 s.pool.level.val ++ leBytes 1 (if s.pool.worn then 1 else 0)
         ++ leBytes 4 s.maint.refreshed ++ leBytes 4 s.maint.wearMoves ++ leBytes 4 s.maint.markMoves
         ++ leBytes 1 (16 - s.layout.nextPage) ++ leBytes 1 s.phase.code)))
  ∧ (∀ (s : State) (p : Port) (tag : Byte), s.Takes p tag .identify →
       exec .identify s = .next (s.answers p tag .identify .ok
         (leBytes 2 s.identity.vendor ++ leBytes 2 s.identity.part ++ leBytes 1 s.identity.revision
           ++ leBytes 8 s.identity.unique ++ leBytes 1 s.layout.version
           ++ leBytes 1 (if s.layout.pending then 1 else 0))))

/-- DEFINE NAMESPACE (R165): the first failing check decides; a request that passes replaces the staged descriptor, all
of it zero when the enabled field is clear, and completes OK with the descriptor as it now stands. The active layout
stays. -/
def Obligations.DefineNamespaceWritesTheStagedDescriptor : Prop :=
  ∀ (s : State) (p : Port) (tag ns enabled : Byte) (limit quota : BitVec 16) (mirrored early pr sr : Byte),
    let body : Req := .defineNamespace ns enabled limit quota mirrored early pr sr
    s.Takes p tag body →
    let inRange := decide (ns.toNat < 8) && decide (enabled.toNat ≤ 1) && decide (mirrored.toNat ≤ 1)
      && decide (early.toNat ≤ 1) && decide (limit.toNat ≤ 1024) && decide (quota.toNat ≤ 1792)
      && decide (pr.toNat ≤ 2) && decide (sr.toNat ≤ 2)
    let checks : List (Bool × Result) :=
      [ (decide (p = .service), .denied), (decide (s.phase ≠ .ready) && decide (s.phase ≠ .worn), .notReady),
        (s.layout.pending, .layoutPending), (!inRange, .badParameter) ]
    (∀ r, firstFailure checks = some r → exec .defineNamespace s = .next (s.answers p tag body r []))
    ∧ ∀ n : NsIndex, firstFailure checks = none → n.val = ns.toNat →
        let right (v : Byte) : Machine.Right := if v = 0 then .none else if v = 1 then .read else .full
        let x : NsDesc :=
          if enabled = 1 then
            { enabled := true, mirrored := decide (mirrored = 1), early := decide (early = 1), primaryRight := right pr,
              serviceRight := right sr, recordLimit := limit.toNat, quota := quota.toNat }
          else NsDesc.disabled
        exec .defineNamespace s = .next (s.answersWith p tag body .ok
          (leBytes 1 (if x.enabled then 1 else 0) ++ leBytes 2 x.recordLimit ++ leBytes 2 x.quota
            ++ leBytes 1 (if x.mirrored then 1 else 0) ++ leBytes 1 (if x.early then 1 else 0)
            ++ leBytes 1 x.primaryRight.code ++ leBytes 1 x.serviceRight.code)
          fun d => { d with layout := { s.layout with staged := s.layout.staged.set n x } })

/-- COMMIT LAYOUT (R166, R167): the first failing check decides; a request that passes sets the layout-pending flag,
takes the next layout page, and queues the staged layout as version v into page 4 + v of bank 0's descriptor block. -/
def Obligations.CommitLayoutMakesItsChecksInOrder : Prop :=
  ∀ (s : State) (p : Port) (tag : Byte), s.Takes p tag .commitLayout →
    let staged := s.layout.staged
    let total (f : NsDesc → Nat) : Nat := (staged.toList.map fun x => if x.enabled then f x else 0).sum
    let earlyElsewhere := (staged.toList.drop 1).any fun x => x.enabled && x.early
    let earlyTooLarge := staged[0].enabled && staged[0].early
      && decide ((if staged[0].mirrored then 126 else 63) < staged[0].quota)
    let invalid := decide (1024 < total (·.recordLimit)) || decide (1792 < total (·.quota))
      || decide (s.goodTotal < total (·.quota) + 32) || earlyElsewhere || earlyTooLarge
    let checks : List (Bool × Result) :=
      [ (decide (p = .service), .denied), (decide (s.phase ≠ .ready) && decide (s.phase ≠ .worn), .notReady),
        (decide (s.phase = .worn), .worn), (s.layout.pending, .layoutPending),
        (!s.dir.isEmpty || s.slots.toList.any fun x => x.ctx.isSome, .layoutNotEmpty), (invalid, .layoutInvalid),
        (decide (16 ≤ s.layout.nextPage), .layoutExhausted) ]
    (∀ r, firstFailure checks = some r → exec .commitLayout s = .next (s.answers p tag .commitLayout r []))
    ∧ (firstFailure checks = none →
      let v := s.layout.nextPage - 4
      exec .commitLayout s = .next (s.begins p tag .commitLayout fun d id =>
        (({ d with layout := { s.layout with pending := true, nextPage := s.layout.nextPage + 1 } } : Device).setWork id
          (.layout v none)).queueJob 0 (pageJob 0 (4 + v) (layoutPage v staged) (.layoutPage id))))

/-- LAYOUT_PAGE_PROGRAM_DONE (R167): after bank 0's page, with either outcome, the same page is queued for bank 1; after
bank 1's, the request completes OK with v and the layout versions remaining when at least one program completed OK, and
MEDIA_FAILED when both failed. A failed program makes no block BAD. Its page remains used: the record there fails its
CRC from then on, and in any state with such a record the scanner finds the page programmed and no layout in it
(R119, R152). That MEDIA_FAILED has an empty reply is the model's choice (log 10), and so is that a failed page holds no
valid layout also where the other bank's program completed OK (log 60). -/
def Obligations.LayoutPagesAreProgrammedOneAfterTheOther : Prop :=
  ∀ (s : State) (b : Bank) (j : Job) (id v : Nat) (o : OkFail), s.Working b j → j.by_ = .layoutPage id →
    (s.work? id = some (.layout v none) →
      exec (.layoutPageProgramDone b o) s = .next (s.afterWork b j o
        ((s.setWork id (.layout v (some o))).queueJob 1
          (pageJob 0 (4 + v) (layoutPage v s.layout.staged) (.layoutPage id)))))
    ∧ (∀ first, s.work? id = some (.layout v (some first)) →
      (first = .ok ∨ o = .ok →
        exec (.layoutPageProgramDone b o) s = .next (s.afterWork b j o
          (s.complete id .ok (leBytes 1 v ++ leBytes 1 (16 - s.layout.nextPage)))))
      ∧ (first = .fail → o = .fail →
        exec (.layoutPageProgramDone b o) s = .next (s.afterWork b j o (s.complete id .mediaFailed []))))
    ∧ (∀ t data, exec (.layoutPageProgramDone b o) s = .next t → o = .fail → j.block = 0 →
      j.op = .pageProgram (4 + v) data → segmentNum { bank := b, block := 0 } (4 + v) 0 ∈ t.torn)
    ∧ ∀ t : State, 1 ≤ v → v ≤ 11 → segmentNum { bank := b, block := 0 } (4 + v) 0 ∈ t.torn →
      let data := pageBytes t { bank := b, block := 0 } (4 + v)
      readLayout (4 + v) data = none ∧ data ≠ List.replicate 256 0xFF
      ∧ ∀ (d : Device) (r : ReadOutcome), d.layoutRead b (4 + v) r data
          = { d with scan := { d.scan with topPage := max d.scan.topPage (4 + v) } }

/-! ### Resets and power -/

/-- Resets (R83, R127, R128, R150, R151). Whichever way STARTING is entered, every volatile part is at its start value,
the address pins are sampled, and the scanner's first read is in progress: the state right after reset but for the
pins. A warm reset discards everything but the jobs in progress, empties the queues and waiting lists of the engines,
and enters STARTING once no engine holds a job and RESET_N is high. A RESET from the Service Port is answered DENIED,
one in HALTED NOT_READY, and any other begins a warm reset in its step with no completion. RESET_N driven low begins a
warm reset in a running part and joins one that drains; released, it lets the part enter STARTING when no engine holds
a job. A repeated edge of the pin changes nothing (log 1). The model's choices: the start values are those of
State.reset (logs 3, 27); while the engines drain the phase is STARTING and the ports are as a start leaves them, and
the pin moves alone without power (log 24). -/
def Obligations.WarmResetsKeepOnlyTheJobsInProgress : Prop :=
  (∀ d : Device,
     d.enterStarting = { State.reset.toDevice with
       resetLow := d.resetLow, straps := d.straps, serviceAddress := 0x38 + d.straps.setWidth 7 }
     ∧ (let draining : Device := { State.reset.toDevice with
         power := .draining, resetLow := d.resetLow, straps := d.straps, serviceAddress := d.serviceAddress
         engines := d.engines.map fun e => { queue := [], waiting := [], current := e.current }
         scan := .cleared }
       ((∀ b : Bank, d.engines[b].current = none) ∧ d.resetLow = false → d.beginReset = draining.enterStarting)
       ∧ (¬((∀ b : Bank, d.engines[b].current = none) ∧ d.resetLow = false) → d.beginReset = draining)))
  ∧ (∀ s : State,
       (∀ p tag, s.Takes p tag .reset →
         (p = .service → exec .reset s = .next (s.answers p tag .reset .denied []))
         ∧ (p = .primary → s.phase = .halted → exec .reset s = .next (s.answers p tag .reset .notReady []))
         ∧ (p = .primary → s.phase ≠ .halted → exec .reset s = .next { s with toDevice := s.beginReset }))
       ∧ (s.resetLow = false → s.power = .running →
           exec .resetNAsserted s = .next { s with toDevice := ({ s.toDevice with resetLow := true } : Device).beginReset })
       ∧ (s.resetLow = false → s.power ≠ .running → exec .resetNAsserted s = .next { s with resetLow := true })
       ∧ (s.resetLow = true → exec .resetNAsserted s = .next s)
       ∧ (s.resetLow = false → exec .resetNReleased s = .next s)
       ∧ (s.resetLow = true → s.power = .draining → (∀ b : Bank, s.engines[b].current = none) →
           exec .resetNReleased s
             = .next { s with toDevice := ({ s.toDevice with resetLow := false } : Device).enterStarting })
       ∧ (s.resetLow = true → s.power ≠ .draining ∨ (∃ b : Bank, s.engines[b].current ≠ none) →
           exec .resetNReleased s = .next { s with resetLow := false }))

/-- Power and the draining of jobs (R127, R128, R150). A cold start enters STARTING, or is held while RESET_N is low. A
loss of power leaves nothing but the pins and the array, whose bytes stay but for the segments the jobs in progress
were programming or the blocks they were erasing: no rule fixes those from then on, but that a wear stamp still
readable in a block whose erase was cut short names the count from before the erase, and that a commit record, a mark or
a layout page cut short is not valid, and that the mark's slot and the layout page read as programmed (R47, R70, R152,
R159). A job that completes while a warm reset drains leaves its result in the array
and is reported to no block; a record whose program failed then is not valid; the part enters STARTING when it was the
last. The fields that say which bytes and records these are, until they are programmed or erased, are the model's own
(log 6).
That a cold start is held in reset while RESET_N is low is the model's reading (log 24); that a cold start with power
on, and a loss of power with power off, change nothing is its choice for events that cannot happen (log 1). -/
def Obligations.PowerEndsAndStartsThePart : Prop :=
  ∀ s : State,
    (s.power = .off → s.resetLow = false →
      exec .coldStart s = .next { s with toDevice := s.enterStarting })
    ∧ (s.power = .off → s.resetLow = true →
      exec .coldStart s = .next { s with power := .draining, engines := Vector.replicate 4 .idle })
    ∧ (s.power ≠ .off → exec .coldStart s = .next s)
    ∧ (s.power = .off → exec .powerLoss s = .next s)
    ∧ (s.power ≠ .off →
      exec .powerLoss s = .next { s.cutJobs with toDevice :=
        { Device.blank with resetLow := s.resetLow, straps := s.straps, serviceAddress := s.serviceAddress } })
    ∧ s.cutJobs.cells = s.cells ∧ s.cutJobs.fresh = s.fresh ∧ s.cutJobs.pending = s.pending
    ∧ (∀ g, g ∈ s.cutJobs.weak ↔ g ∈ s.weak ∨ ∃ (b : Bank) (j : Job), s.engines[b].current = some j ∧
        match j.op with
        | .pageRead _ => False
        | .eraseVerify _ => False
        | .pageProgram page data => g ∈ runSegments { bank := b, block := j.block } page 0 data
        | .segmentProgram page seg data => g ∈ runSegments { bank := b, block := j.block } page seg data
        | .blockErase => g / 256 = ({ bank := b, block := j.block } : BlockAddr).num)
    ∧ (∀ (b : Bank) (j : Job), s.engines[b].current = some j → j.op = .blockErase →
        let a : BlockAddr := { bank := b, block := j.block }
        a.num * 256 ∉ s.weak → a.num * 16 ∉ s.spoilt → a.num ∈ s.cutJobs.cut)
    ∧ (∀ n, n ∈ s.cutJobs.cut → n ∈ s.cut ∨ ∃ (b : Bank) (j : Job), s.engines[b].current = some j ∧ j.op = .blockErase
        ∧ n = ({ bank := b, block := j.block } : BlockAddr).num)
    ∧ (∀ a : BlockAddr, a.num ∈ s.cut →
        let stamp := readStamp ((pageBytes s a 0).take 16)
        stamp = none ∨ stamp = readStamp ((List.range 16).map fun i => Memory.get s.cells (a.num * 4096 + i)))
    ∧ (∀ g, g ∈ s.cutJobs.spoilt ↔ g ∈ s.spoilt ∧ ∀ (b : Bank) (j : Job), s.engines[b].current = some j →
        j.op = .blockErase → g / 16 ≠ ({ bank := b, block := j.block } : BlockAddr).num)
    ∧ (∀ (b : Bank) (j : Job) (page seg : Nat) (data : List Byte), s.engines[b].current = some j →
        j.op = .segmentProgram page seg data → page = 14 ∨ page = 15 → j.block ≠ 0 →
        segmentNum { bank := b, block := j.block } page seg ∈ s.cutJobs.torn)
    ∧ (∀ (b : Bank) (j : Job) (page : Nat) (data : List Byte), s.engines[b].current = some j →
        j.op = .pageProgram page data → j.block = 0 → segmentNum { bank := b, block := 0 } page 0 ∈ s.cutJobs.torn)
    ∧ (∀ (b : Bank) (j : Job), s.drainWorked b j .ok = s.jobWorked b j .ok
        ∧ ∃ torn, s.drainWorked b j .fail = { s.jobWorked b j .fail with torn := torn }
          ∧ (∀ g ∈ (s.jobWorked b j .fail).torn, g ∈ torn)
          ∧ (∀ page seg data, j.op = .segmentProgram page seg data →
              segmentNum { bank := b, block := j.block } page seg ∈ torn)
          ∧ ∀ page data id, j.op = .pageProgram page data → j.by_ = .layoutPage id →
              segmentNum { bank := b, block := j.block } page 0 ∈ torn)
    ∧ (∀ a : BlockAddr, a.block ≠ 0 →
        (segmentNum a 0 0 ∈ s.torn → readStamp (segment (pageBytes s a 0) 0) = none)
        ∧ (segmentNum a 0 1 ∈ s.torn → readHeader (segments (pageBytes s a 0) 1 4) = none)
        ∧ (segmentNum a 15 0 ∈ s.torn → readCommit (pageBytes s a 15) = none)
        ∧ ∀ k, 1 ≤ k → k ≤ 4 → segmentNum a 14 (4 * (k - 1)) ∈ s.torn →
            readMark (pageBytes s a 14) k = none ∧ allOnes (markSlot (pageBytes s a 14) k) = false)
    ∧ (∀ (b : Bank) (page : Nat), let a : BlockAddr := { bank := b, block := 0 }
        (∀ seg, 1 ≤ page → page ≤ 4 → seg ≤ 15 → segmentNum a page seg ∈ s.torn →
          readGrownBad b (segment (pageBytes s a page) seg) = none ∧ allOnes (segment (pageBytes s a page) seg) = false)
        ∧ (5 ≤ page → page ≤ 15 → segmentNum a page 0 ∈ s.torn →
          readLayout page (pageBytes s a page) = none ∧ allOnes (pageBytes s a page) = false))
    ∧ (∀ (b : Bank) (j : Job) (o : OkFail), s.power = .draining → s.engines[b].current = some j →
      let after : Device := { s.toDevice with engines := s.engines.set b .idle }
      (s.resetLow = false → (∀ c : Bank, c ≠ b → s.engines[c].current = none) →
        exec (.drainJobDone b o) s = .next { s.drainWorked b j o with toDevice := after.enterStarting })
      ∧ (s.resetLow = true ∨ (∃ c : Bank, c ≠ b ∧ s.engines[c].current ≠ none) →
        exec (.drainJobDone b o) s = .next { s.drainWorked b j o with toDevice := after }))

/-! ### Completions of puts and commits -/

/-- PUT_PROGRAM_DONE (R32, R34, R35), but for an ending put of a context being abandoned (O26). After OK of a job before the last, the next body page
of the copy is queued; after OK of the last job of the last copy, the chunk is present and the put completes OK; with
another copy still at work the put goes on. After FAIL the block goes BAD and the context no longer records it, its
position counting in the reservation again while the context is OPEN; the first time, one new block is asked for, in
another bank than the chunk's other copy has now (log 11); the second time the put ends MEDIA_FAILED. A put that ends
in an OPEN context waits for its other copy's job, then its blocks that are ALLOCATED become STALE and their positions
count in the reservation again, its chunk is in flight no more, and it completes with its result. A put of an OPEN
context that is ending already queues no further job when one of its programs completes: it goes on to that end, after
FAIL without the block, which has gone BAD and whose position counts in the reservation again (R33). In which step such
a put completes is the model's reading (log 11). -/
def Obligations.PutProgramsGoOnOrEnd : Prop :=
  let ends (d : Device) (id : Nat) (w : PutWork) (c : Ctx) (result : Result) : Device :=
    if w.hasJob = true then d.setWork id (.put w)
    else
      let x := c.chunkAt w.chunk
      let going := (x.primary.toList ++ x.mirror.toList).filter fun a => decide (d.blockState a = some .allocated)
      let rest := c.requests - 1
      let without : Device := { d with pool := { d.pool with
        waits := d.pool.waits.filter fun g => !g.asker.isPut id
        recheck := d.pool.recheck || d.pool.waits.any fun g => g.asker.isPut id } }
      ((without.toStale going).setCtx w.slot { c.modChunk w.chunk fun x => { x with primary := none, mirror := none } with
        inFlight := c.inFlight.filter fun k => decide (k ≠ w.chunk), reserved := c.reserved + going.length
        requests := rest
        timer := if rest = 0 then (if d.settings.timeout = 0 then none else some d.settings.timeout)
          else c.timer }).complete id result []
  (∀ (s : State) (b : Bank) (j : Job) (id : Nat) (copy : Copy) (w : PutWork) (c : Ctx) (r : CopyRun) (a : BlockAddr)
    (k : Nat),
    s.Working b j → j.by_ = .put id copy → s.work? id = some (.put w) → w.ending = none → w.run copy = some r →
    r.block = some a → r.job = some k → s.ctx? w.slot = some c →
    let doneRun : CopyRun := { r with job := none, done := true }
    (k < 13 →
      exec (.putProgramDone b .ok) s = .next (s.afterWork b j .ok
        ((s.queueJob a.bank (pageJob a.block (k + 1) (padded 256 (sliceBytes w.data (256 * k) 256)) (.put id copy))).setWork
          id (.put (w.setRun copy { r with job := some (k + 1) })))))
    ∧ (13 ≤ k → (w.setRun copy doneRun).allDone = true →
      let rest := c.requests - 1
      let c' : Ctx := { c with
        inFlight := c.inFlight.filter fun x => decide (x ≠ w.chunk), present := insertNat w.chunk c.present
        requests := rest, timer := if rest = 0 ∧ c.state = .open then s.timerStart else c.timer }
      exec (.putProgramDone b .ok) s
        = .next (s.afterWork b j .ok ((s.setCtx w.slot c').complete id .ok (leBytes 1 w.chunk))))
    ∧ (13 ≤ k → (w.setRun copy doneRun).allDone = false →
      exec (.putProgramDone b .ok) s = .next (s.afterWork b j .ok (s.setWork id (.put (w.setRun copy doneRun)))))
    ∧ (let d := (s.programFailed b j).putBlockLost id w copy
      d.ctx? w.slot = some { c.modChunk w.chunk fun x => x.setBlock copy none with
        reserved := if c.state = .open then c.reserved + 1 else c.reserved }
      ∧ (r.attempt = 1 →
        exec (.putProgramDone b .fail) s = .next (s.afterWork b j .fail
          ((d.setWork id (.put (w.setRun copy { attempt := 2, block := none, job := none, done := false }))).askGrant
            (.put id (some copy))
            [{ owner := { name := c.name, generation := c.newGen, chunk := w.chunk, copy := copy }
               allowance := false, tail := false
               avoid := if c.copies = 2 then
                 match (((c.modChunk w.chunk fun x => x.setBlock copy none).chunkAt w.chunk).block copy.other) with
                 | none => .nothing
                 | some x => .bank x.bank
                 else .nothing }])))
      ∧ (r.attempt ≠ 1 →
        exec (.putProgramDone b .fail) s = .next (s.afterWork b j .fail
          (d.putEnd id { w.setRun copy { r with block := none, job := none } with ending := some .mediaFailed })))))
  ∧ (∀ (d : Device) (id : Nat) (w : PutWork) (c : Ctx) (result : Result), w.ending = some result →
      d.ctx? w.slot = some c → c.state = .open → d.putEnd id w = ends d id w c result)
  ∧ ∀ (s : State) (b : Bank) (j : Job) (id : Nat) (copy : Copy) (w : PutWork) (c : Ctx) (r : CopyRun) (result : Result),
      s.Working b j → j.by_ = .put id copy → s.work? id = some (.put w) → w.ending = some result →
      w.run copy = some r → s.ctx? w.slot = some c → c.state = .open →
      exec (.putProgramDone b .ok) s
        = .next (s.afterWork b j .ok (ends s.toDevice id (w.setRun copy { r with job := none }) c result))
      ∧ exec (.putProgramDone b .fail) s
        = .next (s.afterWork b j .fail (ends ((s.programFailed b j).putBlockLost id w copy) id
            (w.setRun copy { r with block := none, job := none })
            { c.modChunk w.chunk (fun x => x.setBlock copy none) with reserved := c.reserved + 1 } result))

/-- The commit point (R8, R16, R37, R39): the entry takes the context's version, with marks used 0 and no damaged
chunk, and a RESERVED entry becomes LIVE; every other entry stays. The blocks of the version it had that were ALLOCATED
are STALE, and every other block is in the state it was in. With a MIRROR chunk 0 the context goes on and the entry
stays busy; otherwise the context is freed, the busy field is empty and COMMIT completes OK with the new generation.
With a MIRROR chunk 0 the same commit record goes to its bank as a SEGMENT PROGRAM of page 15; without one no job is
queued (R37). The record leaves the refresh set, and one that was in it the pass-over list; every other record stays in
both or out of them (R111). The allowance flags of the new version's blocks are clear, and every other block's is as it
was: such a block counts from here without a quota test, also where R17's bound is then passed (log 57). -/
def Obligations.TheCommitPointGivesTheEntryItsVersion : Prop :=
  ∀ (d : Device) (i : SlotIndex) (c : Ctx) (e : Entry), d.ctx? i = some c → d.entry? c.name = some e →
    let d' := d.commitPoint i
    let version : Version :=
      { generation := c.newGen, bodyLength := c.bodyLength, frozen := false, retired := false
        chunks := c.chunks.map fun r => r.primary.map fun a => { addr := a, copy := .primary }
        mirrors := if c.copies = 2 then c.chunks.map (·.mirror) else [] }
    let goesOn := c.copies = 2 ∧ (c.chunkAt 0).mirror ≠ none
    (goesOn → d'.entry? c.name = some { e with
        version := version, marks := 0, damaged := [], state := if e.state = .reserved then .live else e.state })
    ∧ (¬goesOn → d'.entry? c.name = some { e with
        version := version, marks := 0, damaged := [], state := if e.state = .reserved then .live else e.state
        busy := .none })
    ∧ (∀ r, r ≠ c.name → d'.entry? r = d.entry? r)
    ∧ (∀ a, d'.blockState a
        = if a ∈ e.version.blocks ∧ d.blockState a = some .allocated then some .stale else d.blockState a)
    ∧ (goesOn → d'.ctx? i = some { c with copying := none })
    ∧ (¬goesOn → d'.slots[i] = { seq := d.slots[i].seq + 1, ctx := none })
    ∧ (∀ k, k ≠ i → d'.slots[k] = d.slots[k])
    ∧ (∀ m, c.copies = 2 → (c.chunkAt 0).mirror = some m →
        d'.engines = (d.queueJob m.bank (segmentJob m.block 15 0
          (Machine.commitRecord c.newGen c.chunkCount c.bodyLength (leBytes 4 c.bodyCrc.toNat))
          (.mirrorCommitRecord i))).engines)
    ∧ (¬goesOn → d'.engines = d.engines)
    ∧ (∀ r, r ∈ d'.pool.refresh ↔ r ∈ d.pool.refresh ∧ r ≠ c.name)
    ∧ (∀ r, r ∈ d'.maint.passOver ↔ r ∈ d.maint.passOver ∧ (r = c.name → c.name ∉ d.pool.refresh))
    ∧ (∀ a, (d'.pool.block? a).map (·.flag)
        = (d.pool.block? a).map fun x => x.flag && !decide (a ∈ version.chunks.filterMap (fun x => x.map (·.addr))
            ∨ a ∈ version.mirrors.filterMap id))
    ∧ ∀ f ∈ d.flights, d.FlightsNamed → d.flightsWith (.commit i) = [f.id] →
        (goesOn → d'.flights = d.flights)
        ∧ (¬goesOn → d'.flights = d.flights.filter (fun g => decide (g.id ≠ f.id)))
        ∧ (¬goesOn → f.discard = false → (d'.port f.port).completions = (d.port f.port).completions
            ++ [{ tag := f.tag, kind := f.kind, result := .ok, reply := leBytes 4 c.newGen }])

/-- The commit record programs and commit attempt 2 (R37 to R40). OK of the PRIMARY commit record is the commit point.
FAIL makes the block BAD and begins attempt 2, which draws one place of the allowance. The MIRROR commit record, with
either outcome, ends the commit: the context is freed, the busy field is empty and COMMIT completes OK with the new
generation; when it failed, the mirror block goes BAD, element 0 of the mirror list becomes MISSING and the record
enters the refresh set. Attempt 2 reads the failed block page by page, from the MIRROR chunk 0 where a page is
UNCORRECTABLE, and programs each into the new block, the header first; after page 13 the commit record, whose OK is the
commit point. A page readable nowhere, or a program that fails and makes its block BAD, completes the COMMIT
COMMIT_FAILED and abandons the context, as it does an OPEN one. The order page by page is the model's choice (log 13).
-/
def Obligations.CommitRecordsEndTheCommit : Prop :=
  (∀ (s : State) (b : Bank) (j : Job) (i : SlotIndex) (c : Ctx), s.Working b j → s.ctx? i = some c →
    let ended (d : Device) : Device :=
      (d.flightsWith (.commit i)).foldl (fun d id => d.complete id .ok (leBytes 4 c.newGen))
        (({ d with slots := d.slots.set i { seq := d.slots[i].seq + 1, ctx := none } } : Device).modEntry c.name
          fun e => { e with busy := .none })
    (j.by_ = .commitRecord i →
      exec (.commitRecordDone b .ok) s = .next (s.afterWork b j .ok (s.commitPoint i))
      ∧ exec (.commitRecordDone b .fail) s = .next (s.afterWork b j .fail
          (((s.programFailed b j).setCtx i { c.modChunk 0 fun x => { x with primary := none } with
            attempt := 2, copying := some { failed := { bank := b, block := j.block }, page := 0, secured := 0 } }).askDraw
              (.commit i) 1)))
    ∧ (j.by_ = .mirrorCommitRecord i →
      exec (.mirrorCommitRecordDone b .ok) s = .next (s.afterWork b j .ok (ended s.toDevice))
      ∧ exec (.mirrorCommitRecordDone b .fail) s = .next (s.afterWork b j .fail
          (ended (((s.programFailed b j).modEntry c.name fun e =>
            { e with version := { e.version with mirrors := e.version.mirrors.set 0 none } }).joinRefresh c.name)))))
  ∧ (∀ (s : State) (b : Bank) (j : Job) (i : SlotIndex) (c : Ctx) (x : CommitCopy) (a : BlockAddr),
    s.Working b j → s.ctx? i = some c → c.state = .committing → c.copying = some x → (c.chunkAt 0).primary = some a →
    let fails (d : Device) : Device :=
      let ids := d.flightsWith (.commit i)
      let told := ids.foldl (fun d id => d.complete id .commitFailed [])
        (d.setCtx i { c with requests := c.requests - ids.length })
      told.beginAbandon i
    (∀ copy, j.by_ = .commitCopyRead i copy →
      (∀ n, exec (.commitCopyReadDone b (.corrected n)) s = .next (s.afterRead b
        (s.queueJob a.bank
          (if x.page = 0 then segmentJob a.block 0 1 (headerRecord (c.header 0 .primary)) (.commitCopyProgram i)
           else pageJob a.block x.page (s.readBytes b j) (.commitCopyProgram i)))))
      ∧ (∀ m, copy = .primary → (c.chunkAt 0).mirror = some m →
        exec (.commitCopyReadDone b .uncorrectable) s
          = .next (s.afterRead b (s.queueJob m.bank (readJob m.block x.page (.commitCopyRead i .mirror)))))
      ∧ (copy = .mirror ∨ (c.chunkAt 0).mirror = none →
        exec (.commitCopyReadDone b .uncorrectable) s = .next (s.afterRead b (fails s.toDevice))))
    ∧ (j.by_ = .commitCopyProgram i →
      (j.target.1 = 15 →
        exec (.commitCopyProgramDone b .ok) s = .next (s.afterWork b j .ok (s.commitPoint i)))
      ∧ (j.target.1 ≠ 15 → x.page < 13 →
        exec (.commitCopyProgramDone b .ok) s = .next (s.afterWork b j .ok
          ((s.setCtx i { c with copying := some { x with page := x.page + 1 } }).queueJob x.failed.bank
            (readJob x.failed.block (x.page + 1) (.commitCopyRead i .primary)))))
      ∧ (j.target.1 ≠ 15 → 13 ≤ x.page →
        exec (.commitCopyProgramDone b .ok) s = .next (s.afterWork b j .ok
          (s.queueJob a.bank (segmentJob a.block 15 0
            (Machine.commitRecord c.newGen c.chunkCount c.bodyLength (leBytes 4 c.bodyCrc.toNat))
            (.commitCopyProgram i)))))
      ∧ exec (.commitCopyProgramDone b .fail) s
          = .next (s.afterWork b j .fail (fails (s.programFailed b j)))))
  ∧ ∀ (d : Device) (i : SlotIndex) (c : Ctx), d.ctx? i = some c → d.putsOf i = [] →
      let d' := d.beginAbandon i
      d'.slots[i] = { seq := d.slots[i].seq + 1, ctx := none }
      ∧ (∀ a, d'.blockState a
          = if a ∈ c.blocks ∧ d.blockState a = some .allocated then some .stale else d.blockState a)
      ∧ (c.mode = .create → d'.entry? c.name = none)
      ∧ (c.mode = .replace → ∀ e, d.entry? c.name = some e → d'.entry? c.name = some { e with busy := .none })
      ∧ ∀ r, r ≠ c.name → d'.entry? r = d.entry? r

/-! ### Maintenance -/

/-- The work and the runs of the Maintenance Unit (R133 to R140, R144, R145). A scrub block is offered, lowest bank
first, in a bank with no erase of a scrub-queue block of a run or a demand erase: the oldest of the queue there without
pins. Such an erase counts until R106 has handled it to its end (log 18). A record is eligible when LIVE, not busy,
below the generation limit and not passed over. REFRESH takes the first eligible record of the ascending refresh set
not visited; WEAR, with the spread above its setting and outside WORN, the eligible record with the block of lowest
erase count, ties to the lower block. An idle unit in READY or WORN starts a run of AUTO, or else of LEVEL, when that
condition holds. A RUNNING run queues an erase of each block offered, in the PROGRAM class at level 3; with none and no
erase or relocation of its own it tries the next record of REFRESH, then makes one WEAR move (log 30), then ends; one
of origin LEVEL or in WORN ends at once. A record whose excess over 16 blocks fits the quota becomes busy and draws its
places, and one whose excess does not is passed over. FOREGROUND goes on erasing at level 3 and becomes STOPPING below
it; STOPPING begins nothing and ends. A run that ends is IDLE and completes its MAINTAIN OK with the blocks erased, the
relocations done and the reason: 0 INTERRUPTED, 1 WORN, 2 DONE (log 9). When the urgency level rises to 3, a RUNNING
run not in its SCRUB part is interrupted. A run's erase counts when its block goes FREE. That FOREGROUND ends only
after a relocation it has kept is the model's choice (log 48). What comes about within a step does so one thing after
another, in an order that is the model's choice (logs 19, 32). -/
def Obligations.MaintenanceRunsWorkTheirParts : Prop :=
  let eligible (d : Device) (e : Entry) : Bool :=
    decide (e.state = .live) && decide (e.busy = .none) && decide (e.version.generation < 4294967294)
      && !(d.maint.passOver.contains e.name)
  let erasing (d : Device) (a : BlockAddr) : Device :=
    (({ d with pool := { d.pool with scrub := d.pool.scrub.filter fun x => decide (x ≠ a) } } : Device).modBlock a fun e =>
      { e with state := .erasing, erase := some { eraser := .run, stamp := false } }).queueJob a.bank
        { block := a.block, op := .blockErase, cls := if d.pool.level = 3 then .program else .erase, by_ := .scrubErase }
  let ended (d : Device) : Device :=
    let reason := if d.maint.run ≠ .running then 0 else if d.maint.wornSeen = true then 1 else 2
    let idle : Device := { d with maint := { d.maint with run := .idle } }
    match d.maint.origin with
    | .maintain _ => (d.flightsWith .maintain).foldl (fun x id => x.complete id .ok
        (leBytes 4 d.maint.erased ++ leBytes 4 d.maint.relocated ++ leBytes 1 reason)) idle
    | _ => idle
  let begun (d : Device) (e : Entry) (kind : RelocKind) (d' : Device) : Prop :=
    let needed := e.version.chunks.length * d.copiesOf e.name.ns
    let fits : Prop :=
      needed ≤ 16 ∨ d.held e.name.ns + d.reservedBlocks e.name.ns + (needed - 16) ≤ (d.desc e.name.ns).quota
    let busied := d.modEntry e.name fun x => { x with busy := .relocation }
    (fits → d' = { busied with
      pool := { busied.pool with draws := busied.pool.draws ++ [{ drawer := .reloc .maint, places := min needed 16 }] }
      maint := { busied.maint with
        wearMoved := d.maint.wearMoved || decide (kind = .wear)
        reloc := some
          { name := e.name, kind := kind, source := e.version, copies := d.copiesOf e.name.ns,
            newGen := e.version.generation + 1, frozen := decide (e.hold = .frozen), retired := false, secured := 0,
            excess := needed - 16, stage := .draw, blocks := [], chunk := 0, got := [], crc := [], primary := .start,
            mirror := none, jobs := 0, ending := none } } })
    ∧ (¬fits → d' = { d with maint := { d.maint with passOver := insertName e.name d.maint.passOver } })
  (∀ d : Device,
    let takes (a : BlockAddr) : Prop := d.pinsOf a = 0 ∧ ¬∃ l ∈ d.pool.table, l.addr.bank = a.bank
      ∧ l.entry.state = .erasing ∧ ∃ w, l.entry.erase = some w ∧ w.eraser ≠ .purge
    let candidate (l : BlockLine) (r : RecordName) : Prop := l ∈ d.pool.table ∧ l.entry.state = .allocated
      ∧ l.entry.flag = false ∧ ∃ o e, l.entry.owner = some o ∧ o.name = r ∧ d.entry? r = some e ∧ eligible d e = true
        ∧ l.addr ∈ e.version.blocks
    (d.scrubOffer = none ↔ ∀ a ∈ d.pool.scrub, ¬takes a)
    ∧ (∀ a, d.scrubOffer = some a → takes a ∧ (∀ x ∈ d.pool.scrub, takes x → a.bank ≤ x.bank)
        ∧ ∃ front back, d.pool.scrub = front ++ a :: back ∧ ∀ x ∈ front, x.bank = a.bank → ¬takes x)
    ∧ d.nextRefresh = d.pool.refresh.find? (fun r =>
        (d.entry? r).any (eligible d) && !(d.maint.visited.contains r))
    ∧ (d.wearOffer = none
        ↔ d.phase = .worn ∨ d.highestCount - d.lowestCount ≤ d.settings.wearSpread ∨ ∀ l r, ¬candidate l r)
    ∧ (∀ r, d.TableOrdered → d.wearOffer = some r → ∃ l, candidate l r ∧ ∀ l' r', candidate l' r' →
        l.entry.count < l'.entry.count ∨ (l.entry.count = l'.entry.count ∧ l.addr.num ≤ l'.addr.num))
    ∧ (d.canBegin = true ↔ d.scrubOffer ≠ none ∨ d.wearOffer ≠ none
        ∨ (d.phase ≠ .worn ∧ ∃ r ∈ d.pool.refresh, ∃ e, d.entry? r = some e ∧ eligible d e = true)))
  ∧ (∀ (r : RecordName) (rs : List RecordName), (rs.map (·.num)).Pairwise (· < ·) →
      ((insertName r rs).map (·.num)).Pairwise (· < ·) ∧ ∀ x, x ∈ insertName r rs ↔ x = r ∨ x ∈ rs)
  ∧ (∀ d : Device, (d.phase ≠ .ready → d.phase ≠ .worn → d.maintStep = none)
    ∧ (d.phase = .ready ∨ d.phase = .worn →
      let own : Prop := d.maint.reloc ≠ none ∨ ∃ l ∈ d.pool.table, l.entry.state = .erasing
        ∧ ∃ w, l.entry.erase = some w ∧ w.eraser = .run
      let started (o : RunOrigin) : Device := { d with maint := { d.maint with
        run := .running, origin := o, erased := 0, relocated := 0, wornSeen := decide (d.phase = .worn), visited := []
        wearMoved := false } }
      let auto : Prop := d.settings.mode = .auto ∧ d.primary.requests = [] ∧ d.service.requests = [] ∧ d.flights = []
        ∧ d.pool.level ≠ 0 ∧ d.canBegin = true
      let level : Prop := d.pool.level = 3 ∧ d.scrubOffer ≠ none
      (d.maint.run = .idle →
        (auto → d.maintStep = some (started .auto)) ∧ (¬auto → level → d.maintStep = some (started .level))
        ∧ (¬auto → ¬level → d.maintStep = none))
      ∧ (d.maint.run = .running →
        (∀ a, d.scrubOffer = some a → d.maintStep = some (erasing d a))
        ∧ (d.scrubOffer = none → own → d.maintStep = none)
        ∧ (d.scrubOffer = none → ¬own → d.maint.origin = .level ∨ d.phase = .worn → d.maintStep = some (ended d))
        ∧ (d.scrubOffer = none → ¬own → d.maint.origin ≠ .level → d.phase ≠ .worn →
          (∀ r e, d.nextRefresh = some r → d.entry? r = some e → ∃ d', d.maintStep = some d' ∧
            begun { d with maint := { d.maint with visited := insertName r d.maint.visited } } e .refresh d')
          ∧ (∀ r e, d.nextRefresh = none → d.maint.wearMoved = false → d.wearOffer = some r → d.entry? r = some e →
            ∃ d', d.maintStep = some d' ∧ begun d e .wear d')
          ∧ (d.nextRefresh = none → d.maint.wearMoved = true ∨ d.wearOffer = none → d.maintStep = some (ended d))))
      ∧ (d.maint.run = .foreground →
        (d.pool.level ≠ 3 → d.maintStep = some { d with maint := { d.maint with run := .stopping } })
        ∧ (∀ a, d.pool.level = 3 → d.scrubOffer = some a → d.maintStep = some (erasing d a))
        ∧ (d.pool.level = 3 → d.scrubOffer = none → own → d.maintStep = none)
        ∧ (d.pool.level = 3 → d.scrubOffer = none → ¬own → d.maintStep = some (ended d)))
      ∧ (d.maint.run = .stopping → (own → d.maintStep = none) ∧ (¬own → d.maintStep = some (ended d)))))
  ∧ (∀ d : Device, d.phase.poolActive = true → d.pool.level < d.urgency →
      let raised := ({ d with pool := { d.pool with level := d.urgency } } : Device).postBoth
        { Notices.empty with urgencyRaised := true }
      let scrubs : Prop := d.scrubOffer ≠ none ∨ ∃ l ∈ d.pool.table, l.entry.state = .erasing
        ∧ ∃ w, l.entry.erase = some w ∧ w.eraser = .run
      (d.urgency = 3 → d.maint.run = .running → ¬scrubs → d.urgencyStep = some raised.interruptRun)
      ∧ (d.urgency ≠ 3 ∨ d.maint.run ≠ .running ∨ scrubs → d.urgencyStep = some raised))
  ∧ (∀ (d : Device) (a : BlockAddr) (e : BlockEntry), d.pool.block? a = some e →
      (d.blockFreed a).maint = { d.maint with
        erased := if ∃ w, e.erase = some w ∧ w.eraser = .run then countUp d.maint.erased else d.maint.erased })
  ∧ ∀ (n : Nat) (d : Device),
      d.standing = (d.drawStep <|> d.waitStep <|> d.purgeStep <|> d.urgencyStep <|> d.demandStep <|> d.resumeStep
        <|> d.maintStep)
      ∧ (d.standing = none → Device.settle (n + 1) d = d)
      ∧ ∀ d', d.standing = some d' → Device.settle (n + 1) d = Device.settle n d'

/-! ### Relocations -/

/-- Relocations of mark work and of the Maintenance Unit, not ending (R69, R141 to R143). Each usable page read is
kept, and reported for the refresh set by R56 and R57; an UNCORRECTABLE PRIMARY page is read from the MIRROR copy, or
ends it for lost data. Once the chunk is read, the header with the new generation is queued for each copy's new block,
then page after page; after both copies the next chunk's reads or, after the last chunk, the commit record with the old
body CRC-32 (a free value where the old record is not valid: log 40). FAIL makes the block BAD; the first time one new
block is asked for, drawn as the failed one was (R108), the second time it ends MEDIA_FAILED. OK of the PRIMARY commit
record is the commit point (R8): the entry takes the new version with no mark used and nothing damaged, and the state
of a mark relocation's mark; the old blocks that were ALLOCATED are STALE, the new blocks' flags are clear, the record
leaves the refresh set. Then the MIRROR's record, and with either outcome of it, or with none to write, the relocation
is done: the busy field is empty, and mark work completes OK or the run counts it; FAIL of the MIRROR's makes that
block BAD and element 0 MISSING. FAIL of the PRIMARY's ends it MEDIA_FAILED. A relocation that ends withdraws its draw
and grants, and with no job left its new blocks become STALE, the lost chunk joins the damaged set, the busy field is
empty, and mark work completes with the result or the run takes the record on its pass-over list unless it was
interrupted or went WORN. The schedule page by page is the model's choice (log 14), and so is that mark work waits for
its jobs before it ends (log 15), with an empty reply (log 10). -/
def Obligations.RelocationsCopyTheirChunks : Prop :=
  let readOf (id : RelocId) (chunk : Nat) (a : BlockAddr) (d : Device) (page : Nat) : Device :=
    d.queueJob a.bank (readJob a.block page (.relocRead id chunk page .primary))
  let finish (d : Device) (id : RelocId) (r : Reloc) (cause : RelocEnd) : Device :=
    let stale := d.toStale (r.blocks.map (·.addr))
    let damaged := match cause with
      | .dataLost k => stale.modEntry r.name fun e =>
          if e.version.generation = r.source.generation then { e with damaged := insertNat k e.damaged } else e
      | _ => stale
    let d := damaged.modEntry r.name fun e => { e with busy := .none }
    match id with
    | .maint => { d with maint := { d.maint with
        reloc := none
        passOver := match cause with
          | .interrupted => d.maint.passOver
          | .worn => d.maint.passOver
          | _ => insertName r.name d.maint.passOver } }
    | .mark f => d.complete f (match cause with
        | .dataLost _ => .dataLost | .mediaFailed => .mediaFailed | .noSpace => .noSpace
        | .worn => .worn | .interrupted => .aborted) []
  let ends (d : Device) (id : RelocId) (r : Reloc) (cause : RelocEnd) : Device :=
    let d : Device := { d with pool := { d.pool with
      draws := d.pool.draws.filter fun x => decide (x.drawer ≠ .reloc id)
      waits := d.pool.waits.filter fun g => !g.asker.isReloc id
      recheck := d.pool.recheck || d.pool.waits.any fun g => g.asker.isReloc id } }
    if r.jobs = 0 then finish d id r cause else d.setReloc id { r with ending := some cause }
  let header (r : Reloc) (copy : Copy) : List Byte := headerRecord
    { name := r.name, chunk := r.chunk, count := r.source.chunks.length, copy := copy, generation := r.newGen,
      bodyLength := r.source.bodyLength, frozen := r.frozen, retired := r.retired }
  let record (r : Reloc) : List Byte :=
    Machine.commitRecord r.newGen r.source.chunks.length r.source.bodyLength r.crc
  let done (d : Device) (id : RelocId) (r : Reloc) : Device :=
    let d := d.modEntry r.name fun e => { e with busy := .none }
    match id with
    | .mark f => d.complete f .ok (((d.entry? r.name).map fun e =>
        leBytes 1 e.state.code ++ leBytes 1 e.hold.code ++ leBytes 4 e.version.generation ++ leBytes 1 e.marks).getD [])
    | .maint => { d with maint := { d.maint with
        reloc := none
        relocated := countUp d.maint.relocated
        refreshed := if r.kind = .refresh then countUp d.maint.refreshed else d.maint.refreshed
        wearMoves := if r.kind = .wear then countUp d.maint.wearMoves else d.maint.wearMoves } }
  let copied (d : Device) (id : RelocId) (r : Reloc) (d' : Device) : Prop :=
    (∀ x, r.chunk + 1 < r.source.chunks.length → r.source.chunkAt (r.chunk + 1) = some x →
      d' = (([1, 2, 3, 4, 5, 6, 7, 8, 9, 10, 11, 12, 13].foldl (readOf id (r.chunk + 1) x.addr) d).setReloc id
        { r with chunk := r.chunk + 1, got := [], jobs := r.jobs + 13, primary := .start
                 mirror := if r.copies = 2 then some .start else none }))
    ∧ (r.chunk + 1 < r.source.chunks.length → r.source.chunkAt (r.chunk + 1) = none →
      d' = ends d id { r with chunk := r.chunk + 1 } (.dataLost (r.chunk + 1)))
    ∧ (∀ n, r.source.chunks.length ≤ r.chunk + 1 → r.blocks[0]? = some n →
      d' = (d.queueJob n.addr.bank (segmentJob n.addr.block 15 0 (record r) (.relocCommit id))).setReloc id
        { r with stage := .commitQueued, jobs := r.jobs + 1 })
  (∀ (s : State) (b : Bank) (j : Job) (id : RelocId) (r : Reloc), s.Working b j → s.reloc? id = some r →
    r.ending = none →
    let less : Reloc := { r with jobs := r.jobs - 1 }
    (∀ chunk page copy, j.by_ = .relocRead id chunk page copy →
      (∀ n : Fin 9,
        let d := if s.settings.threshold ≤ n.val ∨ copy = .mirror then s.reportRefresh r.name r.source.generation
          else s.toDevice
        let r' : Reloc := { less with got := r.got ++ [{ chunk := chunk, page := page, data := s.readBytes b j }] }
        let full : Prop := (∀ p, 1 ≤ p → p ≤ 13 → (pageGot r'.got r.chunk p).isSome = true)
          ∧ (r.chunk = 0 → (pageGot r'.got 0 15).isSome = true)
        let crc : List Byte := if r.chunk = 0 then leBytes 4 (match readCommit ((pageGot r'.got 0 15).getD []) with
          | some c => c.crc | none => Config.freeCrc s.fresh).toNat else r.crc
        let run (x : CopyRun) (a : BlockAddr) : CopyRun := { x with block := some a, job := some 0 }
        (¬full → exec (id.readRow b (.corrected n)) s = .next (s.afterRead b (d.setReloc id r')))
        ∧ (∀ x, full → r.copies ≠ 2 → r.blocks[r.copies * r.chunk]? = some x →
          exec (id.readRow b (.corrected n)) s = .next (s.afterRead b
            ((d.queueJob x.addr.bank (segmentJob x.addr.block 0 1 (header r .primary) (.relocProgram id .primary))).setReloc
              id { r' with crc := crc, primary := run r.primary x.addr, jobs := r.jobs - 1 + 1 })))
        ∧ (∀ x y m, full → r.copies = 2 → r.blocks[2 * r.chunk]? = some x → r.blocks[2 * r.chunk + 1]? = some y →
          r.mirror = some m →
          exec (id.readRow b (.corrected n)) s = .next (s.afterRead b
            (((d.queueJob x.addr.bank (segmentJob x.addr.block 0 1 (header r .primary)
                (.relocProgram id .primary))).queueJob y.addr.bank (segmentJob y.addr.block 0 1 (header r .mirror)
                (.relocProgram id .mirror))).setReloc
              id { r' with crc := crc, primary := run r.primary x.addr, mirror := some (run m y.addr)
                           jobs := r.jobs - 1 + 2 }))))
      ∧ (∀ m, copy = .primary → r.source.mirrorAt chunk = some m →
        exec (id.readRow b .uncorrectable) s = .next (s.afterRead b
          ((s.queueJob m.bank (readJob m.block page (.relocRead id chunk page .mirror))).setReloc id
            { r with jobs := r.jobs - 1 + 1 })))
      ∧ (copy = .mirror ∨ r.source.mirrorAt chunk = none →
        exec (id.readRow b .uncorrectable) s = .next (s.afterRead b (ends s.toDevice id less (.dataLost chunk)))))
    ∧ ∀ copy x, j.by_ = .relocProgram id copy → r.run copy = some x →
      (∀ a k, x.block = some a → x.job = some k → k < 13 →
        let share := sliceBytes ((List.range 13).flatMap fun p => (pageGot r.got r.chunk (p + 1)).getD []) (256 * k) 256
        exec (id.programRow b .ok) s = .next (s.afterWork b j .ok
          ((s.queueJob a.bank (pageJob a.block (k + 1) (padded 256 share) (.relocProgram id copy))).setReloc id
              { r.setRun copy { x with job := some (k + 1) } with jobs := r.jobs - 1 + 1 })))
      ∧ (∀ a k, x.block = some a → x.job = some k → 13 ≤ k →
        let r' := less.setRun copy { x with job := none, done := true }
        let both : Prop := r'.primary.done ∧ (∀ m, r'.mirror = some m → m.done = true)
        (¬both → exec (id.programRow b .ok) s = .next (s.afterWork b j .ok (s.setReloc id r')))
        ∧ (both → ∃ d', exec (id.programRow b .ok) s = .next (s.afterWork b j .ok d') ∧ copied s.toDevice id r' d'))
      ∧ (x.attempt = 1 →
        let flagged := (r.blocks[r.place r.chunk copy]?).any (·.flagged)
        let r' : Reloc := { less.setRun copy { attempt := 2, block := none, job := none, done := false } with
          secured := if flagged then r.secured + 1 else r.secured
          excess := if flagged then r.excess else r.excess + 1 }
        let avoids (c : Copy) : Avoid :=
          match (r'.run (match c with | .primary => .mirror | .mirror => .primary)).bind (·.block) with
          | none => .nothing
          | some a => .bank a.bank
        let d := (s.programFailed b j).setReloc id r'
        let asked := d.pool.waits ++ [{ asker := .reloc id (some copy), requests :=
          [{ owner := { name := r.name, generation := r.newGen, chunk := r.chunk, copy := copy }
             allowance := flagged, tail := decide (r.kind = .wear), avoid := .nothing }] }]
        exec (id.programRow b .fail) s = .next (s.afterWork b j .fail
          { d with pool := { d.pool with
            recheck := d.pool.recheck || d.pool.waits.isEmpty
            waits := asked.map fun g =>
              match g.asker with
              | .reloc i (some c) =>
                if i = id then { g with requests := g.requests.map fun q => { q with avoid := avoids c } } else g
              | _ => g } }))
      ∧ (x.attempt ≠ 1 →
        exec (id.programRow b .fail) s
          = .next (s.afterWork b j .fail (ends (s.programFailed b j) id less .mediaFailed))))
  ∧ (∀ (s : State) (b : Bank) (j : Job) (id : RelocId) (r : Reloc) (e : Entry), s.Working b j → s.reloc? id = some r →
    s.entry? r.name = some e →
    let less : Reloc := { r with jobs := r.jobs - 1 }
    let blockAt (k : Nat) : Option BlockAddr := (r.blocks[k]?).map (·.addr)
    let n := r.source.chunks.length
    let version : Version :=
      { generation := r.newGen, bodyLength := r.source.bodyLength, frozen := r.frozen, retired := r.retired
        chunks := (List.range n).map fun k => (blockAt (r.copies * k)).map fun a => { addr := a, copy := .primary }
        mirrors := if r.copies = 2 then (List.range n).map fun k => blockAt (2 * k + 1) else [] }
    (j.by_ = .relocCommit id →
      (∃ d : Device,
        (d.entry? r.name = some
          (let moved : Entry := { e with
            version := version, marks := 0, damaged := [], state := if e.state = .reserved then .live else e.state }
           match r.kind with
           | .mark .retire => { moved with state := .retired, hold := .none, retireOrder := some s.retireCounter }
           | .mark .restore => { moved with state := .live, retireOrder := none }
           | .mark .freeze => { moved with state := .live, hold := .frozen }
           | _ => moved))
        ∧ (∀ q, q ≠ r.name → d.entry? q = s.entry? q)
        ∧ d.retireCounter = (if r.kind = .mark .retire then s.retireCounter + 1 else s.retireCounter)
        ∧ (∀ a, d.blockState a
          = if a ∈ e.version.blocks ∧ s.blockState a = some .allocated then some .stale else s.blockState a)
        ∧ (∀ a, (d.pool.block? a).map (·.flag)
          = (s.pool.block? a).map fun x => x.flag && !decide (a ∈ version.chunks.filterMap (fun x => x.map (·.addr))
              ∨ a ∈ version.mirrors.filterMap fun x => x))
        ∧ r.name ∉ d.pool.refresh ∧ (r.name ∈ s.pool.refresh → r.name ∉ d.maint.passOver)
        ∧ d.maint.markMoves = (match r.kind with | .mark _ => countUp s.maint.markMoves | _ => s.maint.markMoves)
        ∧ (∀ m, r.copies = 2 → blockAt 1 = some m → n ≠ 0 →
          exec (id.commitRow b .ok) s = .next (s.afterWork b j .ok
            ((d.queueJob m.bank (segmentJob m.block 15 0 (record r) (.relocMirrorCommit id))).setReloc id
              { r with stage := .mirrorCommit, jobs := r.jobs - 1 + 1 })))
        ∧ (r.copies ≠ 2 ∨ blockAt 1 = none ∨ n = 0 →
          exec (id.commitRow b .ok) s = .next (s.afterWork b j .ok (done d id less))))
      ∧ exec (id.commitRow b .fail) s
          = .next (s.afterWork b j .fail (ends (s.programFailed b j) id less .mediaFailed)))
    ∧ (j.by_ = .relocMirrorCommit id →
      exec (id.mirrorRow b .ok) s = .next (s.afterWork b j .ok (done s.toDevice id r))
      ∧ exec (id.mirrorRow b .fail) s = .next (s.afterWork b j .fail
          (done (((s.programFailed b j).modEntry r.name fun e =>
            { e with version := { e.version with mirrors := e.version.mirrors.set 0 none } }).joinRefresh r.name) id r))))
  ∧ ∀ (s : State) (b : Bank) (j : Job) (id : RelocId) (r : Reloc) (cause : RelocEnd), s.Working b j →
    s.reloc? id = some r → r.ending = some cause →
    let less : Reloc := { r with jobs := r.jobs - 1 }
    let goesOn (d : Device) : Device := if less.jobs = 0 then finish d id less cause else d.setReloc id less
    (∀ chunk page copy, j.by_ = .relocRead id chunk page copy →
      (∀ n : Fin 9, exec (id.readRow b (.corrected n)) s = .next (s.afterRead b (goesOn
        (if s.settings.threshold ≤ n.val ∨ copy = .mirror then s.reportRefresh r.name r.source.generation
         else s.toDevice))))
      ∧ exec (id.readRow b .uncorrectable) s = .next (s.afterRead b (goesOn s.toDevice)))
    ∧ ∀ copy, j.by_ = .relocProgram id copy →
      exec (id.programRow b .ok) s = .next (s.afterWork b j .ok (goesOn s.toDevice))
      ∧ exec (id.programRow b .fail) s = .next (s.afterWork b j .fail (goesOn (s.programFailed b j)))

/-! ### Reads -/

/-- READ_PAGE_DONE and CHECK_PAGE_DONE, and how a READ and a CHECK go on (R54 to R58). A corrected-bit count at or above
the threshold, or a page that a mirror stood in for, reports the record for the refresh set. Of a request that has lost
no page, a usable page is kept; an UNCORRECTABLE PRIMARY page is read from the MIRROR copy where the snapshot names
one; otherwise the page is lost. Of one that has, the pages still out are reported as those of any other (log 44) and
nothing of them is kept; it waits for the last of them. A READ works through the chunks its range touches in ascending
order: with every page it needs of a chunk kept it queues the reads of the next chunk's pages, those that hold bytes of
the range, and a next chunk whose element is MISSING loses its first page without a read. A CHECK waits until none of
its reads is out. That the pages read of a CHECK are the usable ones that came in before its first loss is the model's
reading (log 36). -/
def Obligations.PageReadsAreKeptOrFallBackOrAreLost : Prop :=
  (∀ (s : State) (b : Bank) (j : Job) (id chunk page : Nat) (copy : Copy), s.Working b j →
    let reported (r : RecordName) (generation : Nat) (n : Fin 9) : Device :=
      if s.settings.threshold ≤ n.val ∨ copy = .mirror then s.reportRefresh r generation else s.toDevice
    (∀ w : ReadWork, j.by_ = .readPage id chunk page copy → s.work? id = some (.read w) →
      let out : ReadWork := { w with jobs := w.jobs - 1 }
      let lost : ReadWork := { out with lost := some { chunk := chunk, page := page } }
      let kept : ReadWork := { out with got := w.got ++ [{ chunk := chunk, page := page, data := s.readBytes b j }] }
      (∀ n : Fin 9, exec (.readPageDone b (.corrected n)) s = .next (s.afterRead b
        ((reported w.name w.version.generation n).readOn id (if w.lost = none then kept else out))))
      ∧ (w.lost ≠ none → exec (.readPageDone b .uncorrectable) s = .next (s.afterRead b (s.readOn id out)))
      ∧ (∀ m, w.lost = none → copy = .primary → w.version.mirrorAt chunk = some m →
        exec (.readPageDone b .uncorrectable) s = .next (s.afterRead b
          ((s.queueJob m.bank (readJob m.block page (.readPage id chunk page .mirror))).setWork id
            (.read { w with jobs := w.jobs - 1 + 1 }))))
      ∧ (w.lost = none → copy = .mirror ∨ w.version.mirrorAt chunk = none →
        exec (.readPageDone b .uncorrectable) s = .next (s.afterRead b (s.readOn id lost))))
    ∧ (∀ w : CheckWork, j.by_ = .checkPage id chunk page copy → s.work? id = some (.check w) →
      let out : CheckWork := { w with jobs := w.jobs - 1 }
      let lost : CheckWork := { out with lost := some { chunk := chunk, page := page } }
      let kept : CheckWork :=
        { out with
          pagesRead := w.pagesRead + 1
          got := w.got ++ [{ chunk := chunk, page := page, data := s.readBytes b j }] }
      (∀ n : Fin 9, exec (.checkPageDone b (.corrected n)) s = .next (s.afterRead b
        ((reported w.name w.version.generation n).checkOn id (if w.lost = none then kept else out))))
      ∧ (w.lost ≠ none → exec (.checkPageDone b .uncorrectable) s = .next (s.afterRead b (s.checkOn id out)))
      ∧ (∀ m, w.lost = none → copy = .primary → w.version.mirrorAt chunk = some m →
        exec (.checkPageDone b .uncorrectable) s = .next (s.afterRead b
          ((s.queueJob m.bank (readJob m.block page (.checkPage id chunk page .mirror))).setWork id
            (.check { w with jobs := w.jobs - 1 + 1 }))))
      ∧ (w.lost = none → copy = .mirror ∨ w.version.mirrorAt chunk = none →
        exec (.checkPageDone b .uncorrectable) s = .next (s.afterRead b (s.checkOn id lost)))))
  ∧ (∀ (w : ReadWork) (i p : Nat), 0 < w.length →
    let touches (x : Nat) : Prop := w.offset ≤ x ∧ x < w.offset + w.length ∧ x / 3328 = i
    (i ∈ w.chunksTouched ↔ ∃ x, touches x)
    ∧ (i ∈ w.chunksTouched → (p ∈ w.pagesOf i ↔ ∃ x, touches x ∧ p = 1 + (x - 3328 * i) / 256))
    ∧ (w.pagesOf i).Pairwise (· < ·)
    ∧ (w.chunkDone = true ↔ ∀ g ∈ w.pagesOf w.chunk, pageGot w.got w.chunk g ≠ none))
  ∧ ∀ (d : Device) (id : Nat),
    (∀ w : ReadWork, (w.lost = none ∧ w.chunkDone = false) ∨ (w.lost ≠ none ∧ w.jobs ≠ 0) →
      d.readOn id w = d.setWork id (.read w))
    ∧ (∀ w : ReadWork, w.lost = none → w.chunkDone = true → w.chunk + 1 ∈ w.chunksTouched →
      let next : ReadWork := { w with chunk := w.chunk + 1 }
      let pages := next.pagesOf next.chunk
      (∀ x, w.version.chunkAt next.chunk = some x →
        d.readOn id w = (pages.foldl (fun d g => d.queueJob x.addr.bank
          (readJob x.addr.block g (.readPage id next.chunk g .primary))) d).setWork id
            (.read { next with jobs := w.jobs + pages.length }))
      ∧ (w.version.chunkAt next.chunk = none →
        d.readOn id w = d.readOn id { next with lost := some { chunk := next.chunk, page := pages.headD 1 } }))
    ∧ ∀ w : CheckWork, w.jobs ≠ 0 → d.checkOn id w = d.setWork id (.check w)

/-- The bytes a READ returns (R54): when every page it kept holds its share of the body, and zeros past the body's end,
the reply is the body from the offset on, for the length asked. -/
def Obligations.AReadReturnsTheBytesOfItsRange : Prop :=
  ∀ (w : ReadWork) (body : List Byte), 0 < w.length → w.offset + w.length ≤ body.length →
    (∀ i p, i ∈ w.chunksTouched → p ∈ w.pagesOf i →
      pageGot w.got i p = some (padded 256 (sliceBytes (sliceBytes body (3328 * i) 3328) (256 * (p - 1)) 256))) →
    w.chunksTouched.flatMap w.bytesOf = (body.drop w.offset).take w.length

/-- How a READ and a CHECK end (R53, R55, R58, R59): with a page lost and no job left, DATA_LOST with the chunk and
page of the first page lost, and the chunk joins the damaged set of an entry still at the snapshot's generation; with
every page read, a READ answers OK with its bytes and takes the chunks it touched out of the damaged set, and a CHECK
empties the set and answers OK, or CHECK_MISMATCH with the kind of the first failed test and how many failed. The tests
are R55's: the commit record's generation, chunk count and body length (kind 0), each header against the snapshot (1),
the bytes past the body's end in each page (2), and the CRC-32 of the body against the commit record's (3). The pins
are released. The order of the tests and when the pages read count a page are the model's reading (log 36); so is that
with a commit record that is not valid the CRC-32 compared with is in the same four bytes of its page (log 47). -/
def Obligations.ReadsEndWithTheirResult : Prop :=
  ∀ (d : Device) (id : Nat),
    (∀ (w : ReadWork) (l : LostPage), w.lost = some l → w.jobs = 0 →
      d.readOn id w
        = (((d.modEntry w.name fun e =>
            if e.version.generation = w.version.generation then { e with damaged := insertNat l.chunk e.damaged }
            else e).unpin w.pins).complete id .dataLost (leBytes 1 l.chunk ++ leBytes 1 l.page)))
    ∧ (∀ w : ReadWork, w.lost = none → w.chunkDone = true → w.chunk + 1 ∉ w.chunksTouched →
      d.readOn id w
        = ((d.modEntry w.name fun e =>
            if e.version.generation = w.version.generation then
              { e with damaged := e.damaged.filter fun i => !(w.chunksTouched.contains i) }
            else e).unpin w.pins).complete id .ok (w.chunksTouched.flatMap w.bytesOf))
    ∧ (∀ (w : CheckWork) (l : LostPage), w.lost = some l → w.jobs = 0 →
      d.checkOn id w
        = ((d.modEntry w.name fun e =>
            if e.version.generation = w.version.generation then { e with damaged := insertNat l.chunk e.damaged }
            else e).unpin w.pins).complete id .dataLost
              (leBytes 1 l.chunk ++ leBytes 1 l.page ++ leBytes 1 w.pagesRead))
    ∧ (∀ w : CheckWork, w.lost = none → w.jobs = 0 →
      let ended := (d.modEntry w.name fun e =>
        if e.version.generation = w.version.generation then { e with damaged := [] } else e).unpin w.pins
      let v := w.version
      let n := v.chunks.length
      let page (i p : Nat) : List Byte := (pageGot w.got i p).getD []
      let share (i : Nat) : Nat := min (v.bodyLength - 3328 * i) 3328
      let recordOk := (readCommit (page 0 15)).any fun c =>
        decide (c.generation = v.generation) && decide (c.count = n) && decide (c.bodyLength = v.bodyLength)
      let headerOk (i : Nat) := (readHeader (((page i 0).drop 16).take 64)).any fun h =>
        decide (h.name = w.name) && decide (h.generation = v.generation) && decide (h.count = n)
          && decide (h.bodyLength = v.bodyLength) && decide (h.chunk = i)
          && (v.chunkAt i).any (fun r => decide (h.copy = r.copy)) && decide (h.frozen = v.frozen)
          && decide (h.retired = v.retired)
      let fillOk (i p : Nat) := ((page i p).drop (share i - 256 * (p - 1))).all fun x => decide (x = 0)
      let body := (List.range n).flatMap fun i => ((List.range 13).flatMap fun p => page i (p + 1)).take (share i)
      let failed : List Nat :=
        (if recordOk then [] else [0])
          ++ (List.range n).flatMap (fun i => (if headerOk i then [] else [1])
              ++ (List.range 13).flatMap fun p => if fillOk i (p + 1) then [] else [2])
          ++ (if (crc32 body).toNat = fieldAt (page 0 15) 12 4 then [] else [3])
      (failed = [] → d.checkOn id w = ended.complete id .ok [])
      ∧ ∀ k rest, failed = k :: rest →
          d.checkOn id w = ended.complete id .checkMismatch (leBytes 1 k ++ leBytes 1 (rest.length + 1)))

/-! ### Erasure and purge -/

/-- SCRUB_ERASE_DONE and WEAR_STAMP_DONE of a block that no purge has (R106). After an erase that completes OK the
erase count has risen by one; a count of 120,000 makes the block BAD with cause WEAR, and otherwise the wear stamp of
the new count is queued into segment 0 of page 0. An erase that fails makes it BAD with cause ERASE. A stamp that
completes OK makes the block FREE with no owner, estimate or allowance flag, and one that fails makes it BAD with cause
PROGRAM. -/
def Obligations.ErasedBlocksAreStampedAndFreed : Prop :=
  ∀ (s : State) (b : Bank) (j : Job) (e : BlockEntry), s.Working b j →
    let a : BlockAddr := { bank := b, block := j.block }
    s.pool.block? a = some e → j.block ≠ 0 → s.member? a = none →
    let counted := s.modBlock a fun x => { x with count := x.count + 1 }
    (j.by_ = .scrubErase →
      (120000 ≤ e.count + 1 →
        exec (.scrubEraseDone b .ok) s = .next (s.afterWork b j .ok (counted.makeBad a .wear 0 0)))
      ∧ (e.count + 1 < 120000 →
        exec (.scrubEraseDone b .ok) s = .next (s.afterWork b j .ok
          ((counted.modBlock a fun x => { x with erase := x.erase.map fun w => { w with stamp := true } }).queueJob b
            (segmentJob j.block 0 0 (wearStamp (e.count + 1)) .wearStamp))))
      ∧ exec (.scrubEraseDone b .fail) s = .next (s.afterWork b j .fail (s.makeBad a .erase 0 0)))
    ∧ (j.by_ = .wearStamp →
      exec (.wearStampDone b .ok) s = .next (s.afterWork b j .ok (s.blockFreed a))
      ∧ (s.blockFreed a).pool.block? a
          = some { e with state := .free, estimated := false, owner := none, flag := false, erase := none }
      ∧ exec (.wearStampDone b .fail) s
          = .next (s.afterWork b j .fail (s.makeBad a .program j.target.1 j.target.2)))

/-- PURGE (R74, R75): the first failing check decides. Of the RETIRED entries in retire order, those on which the
requester holds FULL, whose namespace is not locked and whose busy field is empty are included, and the others are
skipped; with none included the request answers NOTHING_TO_PURGE with the number skipped; otherwise every included
entry is PURGING with busy PURGE and no retire order from this step on, and every other entry stays. -/
def Obligations.PurgeTakesTheRetireList : Prop :=
  (∀ (s : State) (p : Port) (tag : Byte), s.Takes p tag .purge →
    let checks : List (Bool × Result) :=
      [ (decide (s.phase ≠ .ready) && decide (s.phase ≠ .worn), .notReady), (decide (s.phase = .worn), .worn),
        (s.layout.pending, .layoutPending), (s.purge.isSome, .purgeBusy) ]
    let included (e : Entry) : Bool :=
      decide ((s.desc e.name.ns).right p = .full) && !s.locks[e.name.ns] && decide (e.busy = .none)
    let skipped := (s.retireList.filter fun e => !included e).length
    (∀ r, firstFailure checks = some r → exec .purge s = .next (s.answers p tag .purge r []))
    ∧ (firstFailure checks = none → s.retireList.filter included = [] →
      exec .purge s = .next (s.answers p tag .purge .nothingToPurge (leBytes 2 skipped)))
    ∧ ∀ e es, firstFailure checks = none → s.retireList.filter included = e :: es →
        exec .purge s
          = .next (s.begins p tag .purge fun d id => d.startPurge id e.name (es.map (·.name)) skipped))
  ∧ (∀ d : Device, d.retireList.Perm (d.dir.filter fun e => decide (e.state = .retired))
      ∧ d.retireList.Pairwise fun x y => (x.retireOrder.getD 0).toNat ≤ (y.retireOrder.getD 0).toNat)
  ∧ ∀ (d : Device) (id : Nat) (first : RecordName) (rest : List RecordName) (skipped : Nat) (r : RecordName),
      d.startPurge id first rest skipped = (((first :: rest).foldl (fun d r => d.modEntry r fun e =>
          { e with state := .purging, busy := .purge, retireOrder := none }) d).setWork id .purge).beginPurgeRecord
        { flight := some id, current := first, step := .mark .primary, rest := rest, purged := 0, overwritten := 0,
          skipped := skipped }
      ∧ (d.startPurge id first rest skipped).entry? r
        = if r ∈ first :: rest then
            (d.entry? r).map fun e => { e with state := .purging, busy := .purge, retireOrder := none }
          else d.entry? r

/-- The jobs of a purge (R76 to R79, R125). The PRIMARY's mark, with either outcome, leads to the MIRROR's, or without
a good one to the erase set: every ALLOCATED, STALE, ERASING or BAD block whose owner names the record; OK of the
PRIMARY's sets marks used to 4, FAIL of the MIRROR's loses it (log 29). Each bank free of purge jobs takes the next
block in (bank, block) order, the version's MIRROR chunk 0 after the others and its PRIMARY chunk 0 last, as its chunk
lists name them (log 17), passing over
pinned blocks and those ERASING under scrub: a BAD one is overwritten, any other leaves the scrub queue and is erased.
A block whose scrub erase or stamp was handed to the purge goes on before the next waiting one (log 53).
An erase that completes OK leads to the verify, one that fails to the overwrite. A verify from page 0 that passes hands
the block to R106 (its count rises; at 120,000 it goes BAD for WEAR, else it is stamped) and drops it from the set (log
16), one from page 1 makes it FREE, and one that fails leads to the overwrite, which goes through all 16 pages whatever
the outcomes and leaves the block BAD without an owner and counted. With the set empty the record finishes: no block
keeps its name as owner, its entry is gone, it has left the refresh set, and the next record begins, or PURGE completes
OK with the records purged, the blocks overwritten and the records skipped. -/
def Obligations.PurgeJobsEraseAndVerify : Prop :=
  let taken (x : BlockState) : Bool := decide (x ≠ .descriptor) && decide (x ≠ .free)
  let rank (e : Entry) (a : BlockAddr) : MemberRank :=
    if (e.version.chunkAt 0).map (·.addr) = some a then .primaryZero
    else if e.version.mirrorAt 0 = some a then .mirrorZero
    else .ordinary
  let erases (d : Device) (w : PurgeWork) (e : Entry) : Device :=
    { d with purge := some { w with step := .erase (d.pool.table.filterMap fun l => l.entry.owner.bind fun o =>
        if o.name = e.name ∧ taken l.entry.state = true then
          some { addr := l.addr, rank := rank e l.addr, step := .waiting } else none) } }
  let mirrorMark (d : Device) (w : PurgeWork) (e : Entry) : Device :=
    match e.version.mirrorAt 0 with
    | none => erases d w e
    | some m =>
      if d.blockState m = some .bad then erases d w e
      else ({ d with purge := some { w with step := .mark .mirror } } : Device).queueJob m.bank
        (segmentJob m.block 14 12 (markRecord .purge 4 e.version.generation) .purgeMark)
  (∀ (s : State) (b : Bank) (j : Job) (w : PurgeWork) (e : Entry), s.Working b j → j.by_ = .purgeMark →
    s.purge = some w → s.entry? w.current = some e →
    (w.step = .mark .primary →
      exec (.purgeMarkDone b .ok) s = .next (s.afterWork b j .ok
        (mirrorMark (s.modEntry w.current fun e => { e with marks := 4 }) w { e with marks := 4 }))
      ∧ exec (.purgeMarkDone b .fail) s = .next (s.afterWork b j .fail (mirrorMark (s.programFailed b j) w e)))
    ∧ (w.step = .mark .mirror →
      exec (.purgeMarkDone b .ok) s = .next (s.afterWork b j .ok (erases s.toDevice w e))
      ∧ (let lost (x : Entry) : Entry := { x with version := { x.version with mirrors := x.version.mirrors.set 0 none } }
        exec (.purgeMarkDone b .fail) s = .next (s.afterWork b j .fail
          (erases (((s.programFailed b j).modEntry w.current lost).joinRefresh w.current) w (lost e))))))
  ∧ (∀ (s : State) (b : Bank) (j : Job) (w : PurgeWork) (set : List PurgeMember) (m : PurgeMember),
    s.Working b j →
    let a : BlockAddr := { bank := b, block := j.block }
    s.purge = some w → w.step = .erase set → set.find? (fun m => decide (m.addr = a)) = some m →
    let stepTo (d : Device) (x : MemberStep) : Device :=
      { d with purge := some { w with step := .erase (set.map fun m => if m.addr = a then { m with step := x } else m) } }
    let gone (d : Device) : Device :=
      { d with purge := some { w with step := .erase (set.filter fun m => decide (m.addr ≠ a)) } }
    let own := s.modBlock a fun e => { e with erase := some { eraser := .purge, stamp := false } }
    (j.by_ = .purgeErase →
      exec (.purgeEraseDone b .ok) s = .next (s.afterWork b j .ok (stepTo own (.toVerify 0)))
      ∧ exec (.purgeEraseDone b .fail) s = .next (s.afterWork b j .fail (stepTo own .toOverwrite)))
    ∧ (j.by_ = .scrubErase →
      exec (.scrubEraseDone b .ok) s = .next (s.afterWork b j .ok (stepTo own (.toVerify 0)))
      ∧ exec (.scrubEraseDone b .fail) s = .next (s.afterWork b j .fail (stepTo own .toOverwrite)))
    ∧ (j.by_ = .wearStamp →
      exec (.wearStampDone b .ok) s = .next (s.afterWork b j .ok (stepTo own (.toVerify 1)))
      ∧ exec (.wearStampDone b .fail) s = .next (s.afterWork b j .fail (gone (s.programFailed b j))))
    ∧ (j.by_ = .purgeVerify →
      ∀ o e, s.pool.block? a = some e → j.block ≠ 0 →
        let counted := s.modBlock a fun x => { x with count := x.count + 1 }
        (s.verifyPasses a j.target.1 o = true → j.target.1 = 0 →
          (120000 ≤ e.count + 1 →
            exec (.purgeVerifyDone b o) s = .next (s.afterWork b j o (gone (counted.makeBad a .wear 0 0))))
          ∧ (e.count + 1 < 120000 →
            exec (.purgeVerifyDone b o) s = .next (s.afterWork b j o (gone
              ((counted.modBlock a fun x => { x with erase := x.erase.map fun w => { w with stamp := true } }).queueJob b
                (segmentJob j.block 0 0 (wearStamp (e.count + 1)) .wearStamp))))))
        ∧ (s.verifyPasses a j.target.1 o = true → j.target.1 ≠ 0 →
          ∃ d, exec (.purgeVerifyDone b o) s = .next (s.afterWork b j o (gone d)) ∧ d.pool.block? a
            = some { e with state := .free, estimated := false, owner := none, flag := false, erase := none })
        ∧ (s.verifyPasses a j.target.1 o = false →
          exec (.purgeVerifyDone b o) s = .next (s.afterWork b j o (stepTo s.toDevice .toOverwrite))))
    ∧ (j.by_ = .purgeOverwrite →
      ∀ o, (j.target.1 < 15 →
          exec (.purgeOverwriteDone b o) s = .next (s.afterWork b j o
            ((stepTo s.toDevice (.overwriting (j.target.1 + 1))).queueJob b
              (pageJob j.block (j.target.1 + 1) (List.replicate 256 0) .purgeOverwrite))))
        ∧ (15 ≤ j.target.1 →
          let d := gone ((s.makeBad a .erase 0 0).modBlock a fun e => { e with owner := none })
          exec (.purgeOverwriteDone b o) s = .next (s.afterWork b j o
            { d with purge := d.purge.map fun w => { w with overwritten := w.overwritten + 1 } }))))
  ∧ (∀ (d : Device) (w : PurgeWork) (set : List PurgeMember), d.purge = some w → w.step = .erase set → set ≠ [] →
    let reached (r : MemberRank) : Prop := match r with
      | .ordinary => True
      | .mirrorZero => ∀ x ∈ set, x.rank ≠ .ordinary
      | .primaryZero => ∀ x ∈ set, x.rank = .primaryZero
    let ready (m : PurgeMember) : Prop := match m.step with
      | .waiting => reached m.rank ∧ d.pinsOf m.addr = 0 ∧ (d.blockState m.addr = some .allocated
          ∨ d.blockState m.addr = some .stale ∨ d.blockState m.addr = some .bad)
      | .toVerify _ => True
      | .toOverwrite => True
      | _ => False
    let busy (b : Bank) : Prop := ∃ x ∈ set, x.addr.bank = b ∧ (x.step = .erasing ∨ (∃ f, x.step = .verifying f)
      ∨ ∃ p, x.step = .overwriting p)
    (d.purgeStep = none ↔ ∀ m ∈ set, ready m → busy m.addr.bank)
    ∧ ∀ d', d.purgeStep = some d' → ∃ front m back, set = front ++ m :: back ∧ ready m ∧ ¬busy m.addr.bank
        ∧ (∀ x ∈ set, x.addr.bank < m.addr.bank → ready x → busy x.addr.bank)
        ∧ (m.step = .waiting → ∀ x ∈ set, x.addr.bank = m.addr.bank → ready x → x.step = .waiting)
        ∧ (∀ x ∈ front, x.addr.bank = m.addr.bank → ready x → m.step ≠ .waiting ∧ x.step = .waiting)
        ∧ (let stepped (x : MemberStep) := set.map fun y => if y.addr = m.addr then { y with step := x } else y
          let stepTo (d : Device) (x : MemberStep) : Device := { d with purge := some { w with step := .erase (stepped x) } }
          let overwrites : Device := (stepTo d (.overwriting 0)).queueJob m.addr.bank
            (pageJob m.addr.block 0 (List.replicate 256 0) .purgeOverwrite)
          (∀ f, m.step = .toVerify f → d' = (stepTo d (.verifying f)).queueJob m.addr.bank
            { block := m.addr.block, op := .eraseVerify f, cls := .erase, by_ := .purgeVerify })
          ∧ (m.step = .toOverwrite → d' = overwrites)
          ∧ (m.step = .waiting → d.blockState m.addr = some .bad → d' = overwrites)
          ∧ (m.step = .waiting → d.blockState m.addr ≠ some .bad → d' = (stepTo
              (({ d with pool := { d.pool with scrub := d.pool.scrub.filter fun x => decide (x ≠ m.addr) } } :
                Device).modBlock m.addr fun e =>
                  { e with state := .erasing, erase := some { eraser := .purge, stamp := false } }) .erasing).queueJob
              m.addr.bank { block := m.addr.block, op := .blockErase, cls := .erase, by_ := .purgeErase })))
  ∧ (∀ (d : Device) (w : PurgeWork) (e : Entry), d.entry? w.current = some e →
      (w.flight = none → d.beginPurgeRecord w = erases d w e)
      ∧ (∀ id x, w.flight = some id → e.version.chunkAt 0 = some x → d.blockState x.addr ≠ some .bad →
        d.beginPurgeRecord w = ({ d with purge := some { w with step := .mark .primary } } : Device).queueJob
          x.addr.bank (segmentJob x.addr.block 14 12 (markRecord .purge 4 e.version.generation) .purgeMark))
      ∧ (∀ id x, w.flight = some id → e.version.chunkAt 0 = some x → d.blockState x.addr = some .bad →
        d.beginPurgeRecord w = mirrorMark d w e)
      ∧ (∀ id, w.flight = some id → e.version.chunkAt 0 = none → d.beginPurgeRecord w = mirrorMark d w e))
  ∧ ∀ (d : Device) (w : PurgeWork), d.purge = some w → w.step = .erase [] →
      ∃ d' : Device, (d'.entry? w.current = none ∧ (∀ r, r ≠ w.current → d'.entry? r = d.entry? r)
          ∧ w.current ∉ d'.pool.refresh
          ∧ ∀ a, d'.pool.block? a = (d.pool.block? a).map fun e =>
              if (e.owner.any fun o => decide (o.name = w.current)) then { e with owner := none } else e)
        ∧ (∀ id, w.rest = [] → w.flight = some id →
            d.purgeStep = some (({ d' with purge := none } : Device).complete id .ok
              (leBytes 2 (w.purged + 1) ++ leBytes 2 w.overwritten ++ leBytes 2 w.skipped)))
        ∧ (w.rest = [] → w.flight = none → d.purgeStep = some { d' with purge := none })
        ∧ ∀ r rest, w.rest = r :: rest →
            d.purgeStep = some (d'.beginPurgeRecord { w with current := r, rest := rest, purged := w.purged + 1 })

/-- A block that goes BAD in service (R97, R109, R110): its state is BAD, its allowance flag is clear, and it keeps its
owner just when it is a chunk 0 block of its owner's committed version; it leaves the scrub queue; a grown-bad entry is
queued into the next unused slot of its bank's list, which counts as used, unless the list is full; that this is the
slot numbered as many as are used is the model's choice (log 45). A block already BAD, and a descriptor block, stay as
they are. GROWN_BAD_ENTRY_DONE changes nothing outside the array and the engines. -/
def Obligations.BadBlocksAreRecorded : Prop :=
  (∀ (d : Device) (a : BlockAddr) (cause : BadCause) (page seg : Nat) (e : BlockEntry), d.pool.block? a = some e →
    (e.state = .bad ∨ a.block = 0 → d.makeBad a cause page seg = d)
    ∧ (e.state ≠ .bad → e.state ≠ .descriptor → a.block ≠ 0 →
      let d' := d.makeBad a cause page seg
      let k := d.pool.slots[a.bank]
      d'.pool.block? a = some { e with
          state := .bad, owner := if (e.owner.any fun o => d.isCommittedZero a o) then e.owner else none, flag := false
          erase := none }
      ∧ (∀ x, x ≠ a → d'.pool.block? x = d.pool.block? x)
      ∧ d'.pool.scrub = d.pool.scrub.filter (fun x => decide (x ≠ a))
      ∧ (64 ≤ k → d'.engines = d.engines ∧ d'.pool.slots = d.pool.slots)
      ∧ (k < 64 → d'.pool.slots = d.pool.slots.set a.bank (k + 1)
        ∧ d'.engines = (d.queueJob a.bank (segmentJob 0 (1 + k / 16) (k % 16)
            (grownBadRecord a.block.val cause (if cause = .program then page else 0)
              (if cause = .program then seg else 0)) .grownBad)).engines)))
  ∧ ∀ (s : State) (b : Bank) (j : Job) (o : OkFail), s.Working b j → j.by_ = .grownBad →
      exec (.grownBadEntryDone b o) s = .next (s.afterWork b j o s.toDevice)

/-! ### The scanner -/

/-- The scanner's jobs and what follows them (R152, R153, R155 to R157, R160 to R162). A page read that completes: an
identity page is taken, or leads to the next bank's, or in bank 3 to HALTED; a grown-bad page counts its used slots and
names its BAD blocks; a layout page counts as programmed and, when valid, as found; page 0 of a block is classified
(O54), a mark or commit page is kept with its block, a body page for a duplicate. A verify makes its block FREE, or
STALE when it fails, with the stamp's count, or without a stamp the count 0 until its bank's list is over (log 49).
Then: with every layout page in, the layout of the highest version, bank 0's of equals, or the default is active, and
the next page stands after the highest programmed; a bank with its page 0 reads done goes on to its chunk 0 pages and
verifies, and at the end of its list in the full scan its estimates are the average of its stamps. With every list done
the scan goes on: from the descriptors to the early range or, with no early namespace, to phase EARLY and the full
scan; then the body pages of copies with duplicates, if any; then the early namespace is resolved and phase EARLY
begins, or the rest is resolved and the table handed over: the scrub queue holds the STALE blocks in order, RETIRED
entries are numbered, the level is set with no notice, the WORN condition is tested and the phase is RESUMING. Each
bank with no job of the scanner hands over its next one. In RESUMING with no purge the PURGING entries' purges begin,
with none left it ends. When the layout is selected, which stamps are averaged and the count an estimated block has
before are the model's choices (logs 25, 26, 49). -/
def Obligations.ScanReadsGoOnToTheLayout : Prop :=
  let reads (block : BlockNo) (pages : List Nat) : List ScanTask := pages.map fun p => .page block p
  let zeros (lo hi : Nat) : List ScanTask := (List.range (hi - lo)).map fun i => .page (Fin.ofNat 512 (lo + i)) 0
  (∀ (s : State) (b : Bank) (j : Job), s.Working b j →
    let a : BlockAddr := { bank := b, block := j.block }
    let page := j.target.1
    let data := s.readBytes b j
    let base : Device := { s.toDevice with scan := { s.scan with out := s.scan.out.set b false } }
    (j.by_ = .scanVerify → ∀ o v, s.scan.verifies.find? (fun v => decide (v.addr = a)) = some v →
      let clean := s.verifyPasses a page o
      exec (.scanVerifyDone b o) s = .next (s.afterWork b j o
        ((({ base with scan := { base.scan with
            verifies := s.scan.verifies.filter fun v => decide (v.addr ≠ a) } } : Device).setBlock a
          { BlockEntry.plain (if clean = true then .free else .stale) (v.stamp.getD 0) with
            estimated := v.stamp.isNone }).scanOn b)))
    ∧ (j.by_ = .scanRead → ∀ o : ReadOutcome,
      let goesOn (d : Device) : Prop := exec (.scanReadDone b o) s = .next (s.afterRead b (d.scanOn b))
      (j.block = 0 → page = 0 →
        (∀ n i, o = .corrected n → readIdentity data = some i →
          let gb := reads 0 [1, 2, 3, 4]
          let both := reads 0 [5, 6, 7, 8, 9, 10, 11, 12, 13, 14, 15] ++ gb
          goesOn { base with identity := i, scan := { base.scan with stage := .descriptors, todo := #v[both, both, gb, gb] } })
        ∧ (o = .uncorrectable ∨ readIdentity data = none →
          (b = 3 → goesOn { base with phase := .halted, scan := { base.scan with stage := .finished } })
          ∧ (b ≠ 3 → goesOn { base with scan := { base.scan with
              stage := .identity (b + 1 : Bank), todo := base.scan.todo.set (b + 1 : Bank) [.page 0 0] } })))
      ∧ (j.block = 0 → 1 ≤ page → page ≤ 4 →
        let used := ((List.range 16).map (segment data)).filter fun x => !allOnes x
        let named (n : Nat) (entries : List GrownBad) : Device :=
          entries.foldl (fun d g => d.setBlock g.addr (.plain .bad 0)) { base with
            pool := { base.pool with slots := base.pool.slots.set b (base.pool.slots[b] + n) }
            scan := { base.scan with grownBad := base.scan.grownBad ++ entries } }
        (∀ n, o = .corrected n → goesOn (named used.length (used.filterMap (readGrownBad b))))
        ∧ (o = .uncorrectable → goesOn (named 16 [])))
      ∧ (j.block = 0 → 5 ≤ page →
        let top (programmed : Bool) : Nat := if programmed = true then max base.scan.topPage page else base.scan.topPage
        (∀ n, o = .corrected n → goesOn { base with scan := { base.scan with
          topPage := top (!allOnes data)
          layouts := base.scan.layouts
            ++ (readLayout page data).toList.map fun l => { version := page - 4, bank := b, layout := l } } })
        ∧ (o = .uncorrectable → goesOn { base with scan := { base.scan with topPage := top true } }))
      ∧ (j.block ≠ 0 → page = 0 → goesOn (base.classify a o data))
      ∧ (j.block ≠ 0 → 14 ≤ page →
        let keeps (got : PageFound) (worst : Nat) : Device := { base with scan := { base.scan with
          found := base.scan.found.map fun f =>
            if f.addr = a then
              { f with worst := max f.worst worst, page14 := if page = 14 then got else f.page14
                       page15 := if page = 15 then got else f.page15 }
            else f } }
        (∀ n, o = .corrected n → goesOn (keeps (.data data) n.val))
        ∧ (o = .uncorrectable → goesOn (keeps .unreadable 0)))
      ∧ (j.block ≠ 0 → 1 ≤ page → page < 14 →
        let keeps (x : Option (List Byte)) : Device := { base with scan := { base.scan with
          bodies := base.scan.bodies ++ [{ addr := a, page := page, data := x }] } }
        (∀ n, o = .corrected n → goesOn (keeps (some data))) ∧ (o = .uncorrectable → goesOn (keeps none)))))
  ∧ (∀ (d : Device) (b : Bank), d.scanOn b = (((d.layoutSelected).scanBank b).scanStage).scanPump)
  ∧ (∀ d : Device,
      let layoutsIn (b : Bank) : Prop := d.scan.todo[b].length + (if d.scan.out[b] = true then 1 else 0) ≤ 4
      let ready : Prop := d.layout.active = none ∧ d.scan.stage = .descriptors ∧ layoutsIn 0 ∧ layoutsIn 1
      let takes (l : Layout) (version : Nat) : Device := { d with layout :=
        { active := some l, version := version, staged := l, pending := false, nextPage := d.scan.topPage + 1 } }
      (¬ready → d.layoutSelected = d)
      ∧ (ready → d.scan.layouts = [] → d.layoutSelected = takes Layout.default 0)
      ∧ (ready → d.scan.layouts ≠ [] → ∃ l ∈ d.scan.layouts, d.layoutSelected = takes l.layout l.version
          ∧ ∀ x ∈ d.scan.layouts, x.version < l.version ∨ (x.version = l.version ∧ l.bank ≤ x.bank)))
  ∧ (∀ (d : Device) (b : Bank),
      let marks (fs : List FoundBlock) : List ScanTask :=
        (fs.filter fun f => decide (f.addr.bank = b) && decide (f.header.chunk = 0)
          && decide (f.page14 = .unread)).flatMap fun f => reads f.addr.block [14, 15]
      let early := d.scan.found.filter fun f => decide (some f.header.name.ns = d.earlyNs)
      let verifies := (d.scan.verifies.filter fun v => decide (v.addr.bank = b)).map fun v =>
        ScanTask.verify v.addr.block v.first
      let goesOn (ts : List ScanTask) : Device :=
        { d with scan := { d.scan with todo := d.scan.todo.set b ts, detail := d.scan.detail.set b true } }
      let estimated (d : Device) : Device := { d with pool := { d.pool with table := d.pool.table.map fun l =>
        if l.addr.bank = b ∧ l.entry.estimated = true then
          { l with entry := { l.entry with count := d.scan.stampSum[b] / d.scan.stampCount[b] } }
        else l } }
      let atEnd : Prop := d.scan.out[b] = false ∧ d.scan.todo[b] = []
      (¬atEnd ∨ (d.scan.stage ≠ .early ∧ d.scan.stage ≠ .full) → d.scanBank b = d)
      ∧ (atEnd → d.scan.stage = .early →
        d.scanBank b = if d.scan.detail[b] = true then d else goesOn (marks early))
      ∧ (atEnd → d.scan.stage = .full → d.scan.detail[b] = false →
        (marks d.scan.found ++ verifies ≠ [] → d.scanBank b = goesOn (marks d.scan.found ++ verifies))
        ∧ (marks d.scan.found ++ verifies = [] → d.scanBank b = estimated (goesOn [])))
      ∧ (atEnd → d.scan.stage = .full → d.scan.detail[b] = true → d.scanBank b = estimated d))
  ∧ (∀ d : Device,
      let done : Prop := ∀ b : Bank, d.scan.out[b] = false ∧ d.scan.todo[b] = []
      let early := d.scan.found.filter fun f => decide (some f.header.name.ns = d.earlyNs)
      let rest (d : Device) := d.scan.found.filter fun f => decide (some f.header.name.ns ≠ d.earlyNs)
      let doubled (fs : List FoundBlock) : List BlockAddr := (foundNames fs).flatMap fun r =>
        let mine := fs.filter fun f => decide (f.header.name = r)
        match winnerOf d.scan.grownBad mine with
        | none => []
        | some c => ([.primary, .mirror] : List Copy).flatMap fun copy =>
          let cs := (List.range c.count).map (candidatesOf d.scan.grownBad mine c copy)
          if cs.any (fun l => decide (2 ≤ l.length)) then cs.flatten.map (·.addr) else []
      let bodies (fs : List FoundBlock) (b : Bank) : List ScanTask :=
        ((doubled fs).filter fun a => decide (a.bank = b)).flatMap fun a =>
          reads a.block [1, 2, 3, 4, 5, 6, 7, 8, 9, 10, 11, 12, 13]
      let readsBodies (fs : List FoundBlock) (stage : ScanStage) : Device := { d with scan := { d.scan with
        stage := stage, todo := #v[bodies fs 0, bodies fs 1, bodies fs 2, bodies fs 3] } }
      let full (d : Device) : Device :=
        let low := if d.earlyNs = none then 1 else 64
        { d with phase := .early, scan := { d.scan with
          stage := .full, todo := #v[zeros low 512, zeros low 512, zeros 1 512, zeros 1 512]
          detail := Vector.replicate 4 false, bodies := [] } }
      let earlyOver : Device :=
        let d := d.resolveAll early
        full { d with scan := { d.scan with found := rest d } }
      let handsOver : Device :=
        let d := d.resolveAll (rest d)
        let d : Device := { d with
          dir := numberRetired d.dir 1
          retireCounter := BitVec.ofNat 64 ((d.dir.countP fun e => decide (e.state = .retired)) + 1)
          pool := { d.pool with
            scrub := (d.pool.table.filter fun l => decide (l.entry.state = .stale)).map (·.addr) }
          scan := { Scan.cleared with stage := .finished }
          phase := .resuming }
        let d : Device := { d with pool := { d.pool with level := d.urgency } }
        if d.wornCondition = true then d.enterWorn else d
      (¬done → d.scanStage = d)
      ∧ (done →
        (∀ b, d.scan.stage = .identity b → d.scanStage = d) ∧ (d.scan.stage = .finished → d.scanStage = d)
        ∧ (d.scan.stage = .descriptors → d.earlyNs = none → d.scanStage = full d)
        ∧ (d.scan.stage = .descriptors → d.earlyNs ≠ none → d.scanStage = { d with scan := { d.scan with
            stage := .early, todo := #v[zeros 1 64, zeros 1 64, [], []], detail := #v[false, false, true, true] } })
        ∧ (d.scan.stage = .early → doubled early ≠ [] → d.scanStage = readsBodies early .earlyBodies)
        ∧ (d.scan.stage = .early → doubled early = [] → d.scanStage = earlyOver)
        ∧ (d.scan.stage = .earlyBodies → d.scanStage = earlyOver)
        ∧ (d.scan.stage = .full → doubled (rest d) ≠ [] → d.scanStage = readsBodies (rest d) .fullBodies)
        ∧ (d.scan.stage = .full → doubled (rest d) = [] → d.scanStage = handsOver)
        ∧ (d.scan.stage = .fullBodies → d.scanStage = handsOver)))
  ∧ (∀ (es : List Entry) (n : Nat), numberRetired es n = es.zipIdx.map fun x =>
      if x.1.state = .retired then
        { x.1 with retireOrder := some (BitVec.ofNat 64 (n + (es.take x.2).countP fun e => decide (e.state = .retired))) }
      else x.1)
  ∧ (∀ d : Device, d.scanPump = ([0, 1, 2, 3] : List Bank).foldl (fun d b =>
      match d.scan.todo[b] with
      | [] => d
      | t :: rest =>
        if d.scan.out[b] = true then d
        else
          ({ d with scan := { d.scan with todo := d.scan.todo.set b rest, out := d.scan.out.set b true } } :
            Device).queueJob b (match t with
              | .page block p => readJob block p .scanRead
              | .verify block first => { block := block, op := .eraseVerify first, cls := .read, by_ := .scanVerify })) d)
  ∧ ∀ d : Device,
      (d.phase ≠ .resuming ∨ d.purge ≠ none → d.resumeStep = none)
      ∧ (d.phase = .resuming → d.purge = none →
        let purging := (d.dir.filter fun e => decide (e.state = .purging)).map (·.name)
        (purging = [] → d.resumeStep = some d.endResuming)
        ∧ ∀ r rest, purging = r :: rest → d.resumeStep = some (d.beginPurgeRecord
            { flight := none, current := r, step := .erase [], rest := rest, purged := 0, overwritten := 0, skipped := 0 }))

/-- How page 0 of a general block classifies it (R154 to R156), row by row of R154's table. A block that a valid
grown-bad entry names stays BAD, as the entry made it when it was read (O53), and nothing else of the table changes; a
valid header of it that no PROGRAM entry sets aside makes it a member of its version that is BAD, and a chunk 0 block
keeps the owner its header names. Any other block: a valid header makes the block one of those from which versions are resolved, and gives it no line of the Block
State Table until then (the model's choice, log 54); one outside the early range that names the early namespace is
STALE with its owner besides (R160), and its pages 14 and 15 are read all the same. That a block with segments 1 to 4
erased and a later one programmed is STALE with owner UNKNOWN is the model's reading (log 25), and so are the count 0
that an estimated block has until the scan of its bank has ended (log 49), and that a block which awaits its erase
verify has no line until that completes (log 58). -/
def Obligations.GeneralBlocksAreClassifiedByTheirFirstPage : Prop :=
  (∀ (d : Device) (a : BlockAddr) (data : List Byte) (n : Fin 9), a.block ≠ 0 →
    (∃ g ∈ d.scan.grownBad, g.addr = a) →
    let d' := d.classify a (.corrected n) data
    let aside : Prop := ∃ g ∈ d.scan.grownBad, g.addr = a ∧ g.cause = .program ∧ g.page = 0 ∧ g.segment = 1
    d.classify a .uncorrectable data = d
    ∧ (d.blockState a = some .bad → d'.blockState a = some .bad)
    ∧ (∀ x, x ≠ a → d'.pool.block? x = d.pool.block? x)
    ∧ (aside ∨ readHeader (segments data 1 4) = none → d' = d)
    ∧ ∀ h, ¬aside → readHeader (segments data 1 4) = some h →
        (∀ f, f ∈ d'.scan.found ↔ f ∈ d.scan.found ∨
          f = { addr := a, header := h, bad := true, stamp := readStamp (segment data 0), worst := n.val
                page14 := .unread, page15 := .unread })
        ∧ (h.chunk = 0 → d'.pool.block? a = some { BlockEntry.plain .bad 0 with
            owner := some { name := h.name, generation := h.generation, chunk := h.chunk, copy := h.copy } })
        ∧ (h.chunk ≠ 0 → d'.pool.block? a = d.pool.block? a))
  ∧ ∀ (d : Device) (a : BlockAddr) (data : List Byte), a.block ≠ 0 →
    (d.scan.grownBad.any fun g => decide (g.addr = a)) = false →
    (d.classify a .uncorrectable data).pool.block? a = some (.plain .bad 0)
    ∧ ∀ n,
      let d' := d.classify a (.corrected n) data
      let stamp := readStamp (segment data 0)
      (allZero (segment data 15) = true → d'.pool.block? a = some { BlockEntry.plain .bad 0 with factory := true })
      ∧ (allZero (segment data 15) = false →
        (∀ h, readHeader (segments data 1 4) = some h →
          { addr := a, header := h, bad := false, stamp := stamp, worst := n.val, page14 := .unread, page15 := .unread }
              ∈ d'.scan.found
          ∧ (some h.name.ns = d.earlyNs ∧ inEarlyRange a = false →
            d'.pool.block? a = some { BlockEntry.plain .stale (stamp.getD 0) with
              estimated := stamp.isNone
              owner := some { name := h.name, generation := h.generation, chunk := h.chunk, copy := h.copy } })
          ∧ (¬(some h.name.ns = d.earlyNs ∧ inEarlyRange a = false) → d'.pool.block? a = d.pool.block? a))
        ∧ (readHeader (segments data 1 4) = none → allOnes (segments data 1 15) = true → stamp.isSome = true →
          { addr := a, first := 1, stamp := stamp } ∈ d'.scan.verifies ∧ d'.pool.block? a = d.pool.block? a)
        ∧ (readHeader (segments data 1 4) = none → allOnes (segments data 1 15) = true → stamp = none →
          (allOnes (segment data 0) = true →
            { addr := a, first := 0, stamp := none } ∈ d'.scan.verifies ∧ d'.pool.block? a = d.pool.block? a)
          ∧ (allOnes (segment data 0) = false →
            d'.pool.block? a = some { BlockEntry.plain .stale 0 with estimated := true }))
        ∧ (readHeader (segments data 1 4) = none → allOnes (segments data 1 15) = false →
          d'.pool.block? a = some { BlockEntry.plain .stale (stamp.getD 0) with estimated := stamp.isNone }))

/-- How versions are resolved and entries rebuilt (R156 to R159, R14). A chunk 0 block holds a commit record when its
page 15 has a valid one that names the header's generation, count and length and that no PROGRAM entry sets aside; the
winner is the highest such generation. The found blocks stand in ascending (bank, block) order. Candidates of a copy of a chunk are the blocks the winner's fields match, of
chunk 0 those with the record, a BAD one only where no other is. A copy with duplicates takes the first combination,
the last chunk varying fastest, whose body has the record's CRC-32, or failing one the first. Each chunk takes its
PRIMARY, or else its MIRROR block, or is MISSING and damaged; the mirror list names a good MIRROR beside a PRIMARY.
State, hold and marks used come from the mark page by R159's table; the conditions of R158 and an unreadable mark page
put the record into the refresh set. The blocks of a key are ALLOCATED when named and else STALE, with their owner and
the stamp's count or the estimate; a BAD one stays. A winner beyond the bounds of R14 is not inserted. The model's
choices: a copy with duplicates and an empty chunk is resolved by its first combination (log 34); of two records of one
generation the PRIMARY's counts (log 37), of two of one copy the lower block's (log 52); what an estimate is before its
bank's scan ends (log 49); any MIRROR chunk 0 of the generation without a record counts for the refresh set (log 50);
the mark page stands in only from the MIRROR candidate, and a BAD first block of either copy gives marks used 3 (log
51). -/
def Obligations.VersionsAreResolvedFromTheFoundBlocks : Prop :=
  let aside (gb : List GrownBad) (a : BlockAddr) (page seg : Nat) : Prop :=
    ∃ g ∈ gb, g.addr = a ∧ g.cause = .program ∧ g.page = page ∧ g.segment = seg
  let holds (gb : List GrownBad) (f : FoundBlock) (c : CommitRecord) : Prop :=
    f.header.chunk = 0 ∧ ¬aside gb f.addr 15 0 ∧ (∃ bytes, f.page15 = .data bytes ∧ readCommit bytes = some c)
      ∧ c.generation = f.header.generation ∧ c.count = f.header.count ∧ c.bodyLength = f.header.bodyLength
  let combinations (cs : List (List FoundBlock)) : List (List FoundBlock) :=
    cs.foldr (fun l rest => l.flatMap fun f => rest.map fun fs => f :: fs) [[]]
  let pages (bodies : List BodyPage) (f : FoundBlock) : List (Option (List Byte)) := (List.range 13).map fun p =>
    (bodies.find? fun x => decide (x.addr = f.addr) && decide (x.page = p + 1)).bind (·.data)
  let matching (bodies : List BodyPage) (c : CommitRecord) (fs : List FoundBlock) : Bool :=
    (fs.all fun f => (pages bodies f).all Option.isSome)
      && decide (crc32 (fs.zipIdx.flatMap fun x =>
          ((pages bodies x.1).flatMap fun y => y.getD []).take (min (c.bodyLength - 3328 * x.2) 3328)) = c.crc)
  (∀ (gb : List GrownBad) (fs : List FoundBlock),
    (∀ f c, f.commit? gb = some c ↔ holds gb f c)
    ∧ (winnerOf gb fs = none ↔ ∀ f ∈ fs, ∀ c, ¬holds gb f c)
    ∧ (∀ c, winnerOf gb fs = some c → (∃ f ∈ fs, holds gb f c)
        ∧ (∀ f ∈ fs, ∀ x, holds gb f x → x.generation ≤ c.generation)
        ∧ ∀ f ∈ fs, ∀ x, holds gb f x → f.header.copy = .primary → x.generation = c.generation →
            ∃ g ∈ fs, g.header.copy = .primary ∧ holds gb g c)
    ∧ ((fs.map (·.addr.num)).Pairwise (· < ·) → ∀ c, winnerOf gb fs = some c → ∃ f ∈ fs, holds gb f c
        ∧ ∀ g ∈ fs, ∀ x, holds gb g x → x.generation = c.generation →
            (g.header.copy = .primary → f.header.copy = .primary)
            ∧ (g.header.copy = f.header.copy → f.addr.num ≤ g.addr.num))
    ∧ ∀ (c : CommitRecord) (copy : Copy) (i : Nat),
        let fits (f : FoundBlock) : Prop := f ∈ fs ∧ f.header.generation = c.generation ∧ f.header.chunk = i
          ∧ f.header.copy = copy ∧ f.header.count = c.count ∧ f.header.bodyLength = c.bodyLength
          ∧ (i = 0 → ∃ x, holds gb f x)
        (candidatesOf gb fs c copy i).Sublist fs
        ∧ ∀ f, f ∈ candidatesOf gb fs c copy i ↔ fits f ∧ (f.bad = true → ∀ g, fits g → g.bad = true))
  ∧ (∀ (bodies : List BodyPage) (c : CommitRecord) (cs : List (List FoundBlock)),
    (∀ x ∈ bodies, ∀ bytes, x.data = some bytes → bytes.length = 256) →
    ((∀ l ∈ cs, l.length ≤ 1) → chooseCopy bodies c cs = (cs.map List.head?, false))
    ∧ (∀ l ∈ cs, 2 ≤ l.length →
        (∀ fs, (combinations cs).find? (matching bodies c) = some fs → chooseCopy bodies c cs = (fs.map some, false))
        ∧ ((combinations cs).find? (matching bodies c) = none → chooseCopy bodies c cs = (cs.map List.head?, true))))
  ∧ (∀ (gb : List GrownBad) (bodies : List BodyPage) (mirrored : Bool) (r : RecordName) (fs : List FoundBlock),
    (winnerOf gb fs = none → rebuiltEntry gb bodies mirrored r fs = none)
    ∧ ∀ c, winnerOf gb fs = some c →
      let chosen (copy : Copy) := chooseCopy bodies c ((List.range c.count).map (candidatesOf gb fs c copy))
      let at_ (copy : Copy) (i : Nat) : Option FoundBlock := ((chosen copy).1[i]?).join
      ∃ zero e refresh, rebuiltEntry gb bodies mirrored r fs = some (e, refresh)
        ∧ (at_ .primary 0 = some zero ∨ (at_ .primary 0 = none ∧ at_ .mirror 0 = some zero))
        ∧ e.name = r ∧ e.retireOrder = none
        ∧ e.version = { generation := c.generation, bodyLength := c.bodyLength, frozen := zero.header.frozen
                        retired := zero.header.retired
                        chunks := (List.range c.count).map fun i => match at_ .primary i, at_ .mirror i with
                          | some p, _ => some { addr := p.addr, copy := .primary }
                          | none, some m => some { addr := m.addr, copy := .mirror }
                          | none, none => none
                        mirrors := if mirrored then (List.range c.count).map fun i =>
                            match at_ .primary i, at_ .mirror i with
                            | some _, some m => if m.bad then none else some m.addr
                            | _, _ => none
                          else [] }
        ∧ e.damaged = (List.range c.count).filter (fun i => (at_ .primary i).isNone && (at_ .mirror i).isNone)
        ∧ ∃ page : Option (BlockAddr × List Byte),
          (∀ bytes, zero.page14 = .data bytes → page = some (zero.addr, bytes))
          ∧ ((∀ bytes, zero.page14 ≠ .data bytes) →
            (∀ m bytes, at_ .mirror 0 = some m → m.page14 = .data bytes → page = some (m.addr, bytes))
            ∧ ((∀ m bytes, at_ .mirror 0 = some m → m.page14 ≠ .data bytes) → page = none))
          ∧ (let valid (k : Nat) (x : Mark) : Prop := ∃ a bytes, page = some (a, bytes) ∧ readMark bytes k = some x
              ∧ x.generation = c.generation ∧ ¬aside gb a 14 (4 * (k - 1))
             let last (x : Mark) : Prop :=
               ∃ k, 1 ≤ k ∧ k ≤ 3 ∧ valid k x ∧ ∀ n, k < n → n ≤ 3 → ∀ y, ¬valid n y
             let used (k : Nat) : Prop := ∃ a bytes, page = some (a, bytes)
               ∧ (allOnes (markSlot bytes k) = false ∨ aside gb a 14 (4 * (k - 1)))
             let retired : Prop := (∃ x, last x ∧ x.kind = .retire) ∨ ((∀ x, ¬last x) ∧ zero.header.retired = true)
             let frozen : Prop :=
               (∃ k x, 1 ≤ k ∧ k ≤ 3 ∧ valid k x ∧ x.kind = .freeze) ∨ zero.header.frozen = true
             ((∃ x, valid 4 x) → e.state = .purging ∧ e.hold = .none ∧ e.marks = 4 ∧ e.busy = .purge)
             ∧ ((∀ x, ¬valid 4 x) → e.busy = .none
               ∧ (retired → e.state = .retired ∧ e.hold = .none)
               ∧ (¬retired → e.state = .live ∧ (frozen → e.hold = .frozen) ∧ (¬frozen → e.hold = .none))
               ∧ (zero.bad = true ∨ page = none → e.marks = 3)
               ∧ (zero.bad = false → page ≠ none → e.marks ≤ 3 ∧ (e.marks ≠ 0 → used e.marks)
                   ∧ ∀ k, 1 ≤ k → k ≤ 3 → used k → k ≤ e.marks)))
          ∧ (refresh = true ↔ none ∈ e.version.mirrors ∨ (∃ x, some x ∈ e.version.chunks ∧ x.copy = .mirror)
            ∨ (∃ f ∈ fs, f.addr ∈ e.version.blocks ∧ (f.bad = true ∨ 6 ≤ f.worst))
            ∨ (∃ f ∈ fs, f.header.generation = c.generation ∧ f.header.chunk = 0 ∧ f.header.copy = .mirror
                ∧ ∀ x, ¬holds gb f x)
            ∨ (∀ f ∈ fs, f.header.generation = c.generation → f.header.copy = .primary → ∀ x, ¬holds gb f x)
            ∨ (chosen .primary).2 = true ∨ (chosen .mirror).2 = true ∨ page = none))
  ∧ (∀ (d : Device) (a : BlockAddr) (o : ReadOutcome) (data : List Byte),
      (d.scan.found.map (·.addr.num)).Pairwise (· < ·) → (∀ f ∈ d.scan.found, f.addr ≠ a) →
      ((d.classify a o data).scan.found.map (·.addr.num)).Pairwise (· < ·))
  ∧ (∀ fs : List FoundBlock, ((foundNames fs).map (·.num)).Pairwise (· < ·)
      ∧ ∀ r, r ∈ foundNames fs ↔ ∃ f ∈ fs, f.header.name = r)
  ∧ (∀ (d : Device) (fs : List FoundBlock),
      d.resolveAll fs = (foundNames fs).foldl (fun d r => d.resolveKey fs r) d)
  ∧ ∀ (d : Device) (fs : List FoundBlock) (r : RecordName), (fs.map (·.addr)).Nodup →
      (∀ f ∈ fs, f.addr.block ≠ 0) →
      let mine := fs.filter fun f => decide (f.header.name = r)
      let fits : Prop := (d.desc r.ns).enabled = true ∧ d.recordCount r.ns < (d.desc r.ns).recordLimit ∧ d.dir.length < 1024
      let rebuilt := rebuiltEntry d.scan.grownBad d.scan.bodies (d.desc r.ns).mirrored r mine
      let d' := d.resolveKey fs r
      let named (a : BlockAddr) : Prop := fits ∧ ∃ e refresh, rebuilt = some (e, refresh) ∧ a ∈ e.version.blocks
      (∀ f ∈ mine, f.bad = false →
        let average := d.scan.stampSum[f.addr.bank] / d.scan.stampCount[f.addr.bank]
        let line (x : BlockState) : BlockEntry := { BlockEntry.plain x (f.stamp.getD average) with
          estimated := f.stamp.isNone
          owner := some { name := f.header.name, generation := f.header.generation, chunk := f.header.chunk
                          copy := f.header.copy } }
        (named f.addr → d'.pool.block? f.addr = some (line .allocated))
        ∧ (¬named f.addr → d'.pool.block? f.addr = some (line .stale)))
      ∧ (∀ a, (∀ f ∈ mine, f.bad = false → f.addr ≠ a) → d'.pool.block? a = d.pool.block? a)
      ∧ (∀ q, q ≠ r → d'.entry? q = d.entry? q)
      ∧ (¬fits ∨ rebuilt = none → d'.dir = d.dir ∧ d'.pool.refresh = d.pool.refresh)
      ∧ ∀ e refresh, fits → rebuilt = some (e, refresh) →
          (d.entry? r = none → d'.entry? r = some e)
          ∧ d'.pool.refresh = if refresh = true then insertName r d.pool.refresh else d.pool.refresh

/-! ### The array and the engines -/

/-- What a job that completes leaves in the array (R115, R121, R125). A program that completes OK clears the bits that
are zero in its data and changes no other byte; where no rule fixed what a segment of it reads as, it holds the data
from then on. A program that fails leaves every byte but makes its page such that no rule fixes what it reads as until
the block is erased; so does an erase that fails with its block. In a descriptor block the record of the failed program
fails its CRC from then on, and no other record comes to fail it or ceases to (R110, R119, R167, log 60). An erase that completes OK sets every byte of its
block, and an overwrite clears every byte of its page with either outcome. An erase verify completes OK only where
every byte that some rule fixes is all ones, and leaves every byte it read all ones then; otherwise it changes nothing,
and a read never does. A record that failed its CRC whatever it reads as is gone once its segments are programmed or
erased, and a block whose last erase was cut short is no longer one once segment 0 of its page 0 is programmed or
erased. A byte that some rule fixes reads as its cell; the fields that say which bytes are such are the model's own
(log 6). -/
def Obligations.JobsWorkTheArrayAsTheirKindSays : Prop :=
  ∀ (s : State) (b : Bank) (j : Job) (o : OkFail), s.ArrayCanonical →
    let a : BlockAddr := { bank := b, block := j.block }
    let after := s.jobWorked b j o
    let readsAs (f : Nat → Byte) : Prop := ∀ x, x < 8388608 → Memory.get after.cells x = f x
    let keeps (weak spoilt torn : Nat → Prop) (zero : Prop) : Prop :=
      (∀ g, g ∈ after.weak ↔ g ∈ s.weak ∧ ¬weak g) ∧ (∀ g, g ∈ after.spoilt ↔ g ∈ s.spoilt ∧ ¬spoilt g)
        ∧ (∀ g, g ∈ after.torn ↔ g ∈ s.torn ∧ ¬torn g) ∧ ∀ n, n ∈ after.cut ↔ n ∈ s.cut ∧ (zero → n ≠ a.num)
    let programs (page first : Nat) (data : List Byte) : Prop :=
      let run (x : Nat) : Prop := x / 256 = a.num * 16 + page ∧ first ≤ x % 256 ∧ x % 256 < first + data.length
      keeps (fun g => run (16 * g)) (fun _ => False) (fun g => run (16 * g)) (page = 0 ∧ first = 0)
        ∧ readsAs fun x =>
          if run x then
            if x / 16 ∈ s.weak then data.getD (x % 256 - first) 0xFF
            else Memory.get s.cells x &&& data.getD (x % 256 - first) 0xFF
          else Memory.get s.cells x
    (∀ page, j.op = .pageRead page → after = s)
    ∧ (∀ page data, j.op = .pageProgram page data → j.by_ ≠ .purgeOverwrite → o = .ok → page < 16 → data.length = 256 →
      programs page 0 data)
    ∧ (∀ page seg data, j.op = .segmentProgram page seg data → o = .ok → page < 16 → seg < 16 → 0 < data.length →
      seg * 16 + data.length ≤ 256 → programs page (16 * seg) data)
    ∧ (∀ page, o = .fail → page < 16 →
      (∃ data, j.op = .pageProgram page data ∧ j.by_ ≠ .purgeOverwrite) ∨ (∃ seg data, j.op = .segmentProgram page seg data) →
      after.cells = s.cells ∧ after.weak = s.weak ∧ (∀ g, g ∈ after.spoilt ↔ g ∈ s.spoilt ∨ g = a.num * 16 + page)
        ∧ (j.block ≠ 0 → after.torn = s.torn) ∧ ∀ n, n ∈ after.cut ↔ n ∈ s.cut ∧ (page = 0 → n ≠ a.num))
    ∧ (∀ page first, o = .fail → j.block = 0 → page < 16 → first < 16 →
      (∃ data, j.op = .pageProgram page data ∧ j.by_ ≠ .purgeOverwrite ∧ first = 0)
        ∨ (∃ data, j.op = .segmentProgram page first data) →
      ∀ g, g ∈ after.torn ↔ g ∈ s.torn ∨ g = (a.num * 16 + page) * 16 + first)
    ∧ (j.op = .blockErase → o = .ok →
      keeps (fun g => g / 256 = a.num) (fun g => g / 16 = a.num) (fun g => g / 256 = a.num) True
      ∧ readsAs fun x => if x / 4096 = a.num then 0xFF else Memory.get s.cells x)
    ∧ (j.op = .blockErase → o = .fail →
      after.cells = s.cells ∧ (∀ g, g ∈ after.weak ↔ g ∈ s.weak ∨ g / 256 = a.num)
        ∧ (∀ g, g ∈ after.spoilt ↔ g ∈ s.spoilt ∧ g / 16 ≠ a.num)
        ∧ (∀ g, g ∈ after.torn ↔ g ∈ s.torn ∧ g / 256 ≠ a.num) ∧ ∀ n, n ∈ after.cut ↔ n ∈ s.cut ∧ n ≠ a.num)
    ∧ (∀ page data, j.op = .pageProgram page data → j.by_ = .purgeOverwrite → page < 16 →
      keeps (fun g => g / 16 = a.num * 16 + page) (fun g => g = a.num * 16 + page)
        (fun g => g / 16 = a.num * 16 + page) (page = 0)
      ∧ readsAs fun x => if x / 256 = a.num * 16 + page then 0x00 else Memory.get s.cells x)
    ∧ (∀ first, j.op = .eraseVerify first → first ≤ 1 →
      let read (x : Nat) : Prop := x / 4096 = a.num ∧ (first = 1 → 256 ≤ x % 4096)
      let erased : Prop := ∀ x, read x → s.unfixed x = false → Memory.get s.cells x = 0xFF
      (s.verifyPasses a first o = true ↔ o = .ok ∧ erased)
      ∧ (o = .fail ∨ ¬erased → after = s)
      ∧ (o = .ok → erased →
        keeps (fun g => read (16 * g)) (fun g => read (256 * g)) (fun g => read (16 * g)) (first = 0)
        ∧ ∀ x, x < 8388608 → (read x → Memory.get after.cells x = 0xFF)
            ∧ (¬read x → Memory.get after.cells x = Memory.get s.cells x)))
    ∧ ∀ (x : BlockAddr) (page i : Nat), page < 16 → i < 256 →
      let at_ := x.num * 4096 + page * 256 + i
      (s.unfixed at_ = true ↔ at_ / 256 ∈ s.spoilt ∨ at_ / 16 ∈ s.weak)
      ∧ (s.unfixed at_ = false → (∀ g ∈ s.torn, g / 16 ≠ x.num * 16 + page) → x.num ∉ s.cut →
          (pageBytes s x page)[i]? = some (Memory.get s.cells at_))

/-- The array changes only by its jobs (R121): every step leaves it as it was, with the bytes no rule fixes and the
records that fail their CRC; or leaves what the job in progress of one bank leaves, in a drain by R128; or is a loss of
power, which leaves the bytes themselves (R127). -/
def Obligations.OnlyJobsChangeTheArray : Prop :=
  let array (s : State) : List Host.Cell × List Nat × List Nat × List Nat × List Nat :=
    (s.cells, s.weak, s.spoilt, s.torn, s.cut)
  ∀ (c : Instr) (s t : State), exec c s = .next t →
    array t = array s
    ∨ (∃ (b : Bank) (j : Job) (o : OkFail), s.engines[b].current = some j
        ∧ (s.power = .running ∧ array t = array (s.jobWorked b j o)
            ∨ s.power = .draining ∧ array t = array (s.drainWorked b j o)))
    ∨ (c = .powerLoss ∧ array t = array s.cutJobs ∧ t.cells = s.cells)

/-- What the part writes into the array it reads back (R130): for every field in its range, the block header, the commit
record, the wear stamp, the mark, the grown-bad entry and the layout page are valid and name what was written. -/
def Obligations.RecordsOfTheArrayAreReadBackAsWritten : Prop :=
  (∀ h : Header, h.count = (h.bodyLength + 3327) / 3328 → 1 ≤ h.bodyLength → h.bodyLength ≤ 53248 → h.chunk < h.count →
      1 ≤ h.generation → h.generation ≤ 4294967294 → readHeader (headerRecord h) = some h)
  ∧ (∀ generation count length crc : Nat, ∀ rest : List Byte, 1 ≤ generation → generation ≤ 4294967294 → 1 ≤ count →
      count ≤ 16 → 1 ≤ length → length ≤ 53248 → crc < 4294967296 →
      readCommit (Machine.commitRecord generation count length (leBytes 4 crc) ++ rest)
        = some { generation := generation, count := count, bodyLength := length, crc := BitVec.ofNat 32 crc })
  ∧ (∀ n, n < 120000 → readStamp (wearStamp n) = some n)
  ∧ (∀ (kind : MarkKind) (k generation : Nat) (page : List Byte), 1 ≤ k → k ≤ 4 → (kind = .purge ↔ k = 4) →
      1 ≤ generation → generation ≤ 4294967294 → markSlot page k = markRecord kind k generation →
      readMark page k = some { kind := kind, slot := k, generation := generation })
  ∧ (∀ (a : BlockAddr) (cause : BadCause) (page seg : Nat), a.block ≠ 0 → page ≤ 15 → seg ≤ 15 →
      (cause ≠ .program → page = 0 ∧ seg = 0) →
      readGrownBad a.bank (grownBadRecord a.block.val cause page seg)
        = some { addr := a, cause := cause, page := page, segment := seg })
  ∧ ∀ (v : Nat) (l : Layout), 1 ≤ v → v ≤ 11 →
      (∀ n : NsIndex, l[n].enabled = true → l[n].recordLimit ≤ 1024 ∧ l[n].quota ≤ 1792 ∧ (l[n].early = true → n = 0)) →
      (∀ n : NsIndex, l[n].enabled = false → l[n] = NsDesc.disabled) →
      readLayout (4 + v) (layoutPage v l) = some l

/-- The choice of the next job (R120, R123). A job handed over joins the queue when the queue holds fewer than 16 jobs
and the waiting list is empty, and otherwise the waiting list. An engine with no job in progress takes, of the jobs
with no older job of the queue for their block, the oldest of the highest class present, and the oldest waiting job
enters the queue; with a job in progress it takes none. -/
def Obligations.EnginesTakeTheOldestJobOfTheHighestClass : Prop :=
  ∀ e : Engine,
    (∀ x, e.current = some x → e.takeNext = e)
    ∧ (e.current = none → e.queue = [] → e.takeNext = e)
    ∧ (e.current = none → e.queue ≠ [] → e.takeNext.current ≠ none)
    ∧ (let eligible (i : Nat) (j : Job) : Prop :=
        e.queue[i]? = some j ∧ ∀ k j', k < i → e.queue[k]? = some j' → j'.block ≠ j.block
      let rank (c : JobClass) : Nat := match c with | .read => 0 | .program => 1 | .erase => 2
      ∀ i j, e.current = none → eligible i j →
        (∀ i' j', eligible i' j' → rank j.cls < rank j'.cls ∨ (rank j.cls = rank j'.cls ∧ i ≤ i')) →
        e.takeNext
          = { queue := e.queue.eraseIdx i ++ e.waiting.take 1, waiting := e.waiting.drop 1, current := some j })
    ∧ ∀ j : Job,
        (e.queue.length < 16 → e.waiting = [] →
          e.handOver j = ({ e with queue := e.queue ++ [j] } : Engine).takeNext)
        ∧ (16 ≤ e.queue.length ∨ e.waiting ≠ [] →
          e.handOver j = ({ e with waiting := e.waiting ++ [j] } : Engine).takeNext)

/-! ### Urgency and wear -/

/-- The urgency level and WORN (R112, R114, R163). The level the inputs give is 0 with no work waiting and otherwise 1,
2 or 3 by the FREE count; in WORN only the scrub queue counts as work; a step that raises it posts URGENCY_RAISED to
both ports, and one that lowers it posts nothing. Entry into WORN sets the WORN flag, turns READY into WORN and posts
WORN_ENTERED to both ports; a run in progress has seen it from then on, and the run's relocation is abandoned unless
its commit record has been queued or it is ending already (R143, R146): its draw and grants are withdrawn, and with no
job of it out its new blocks that are ALLOCATED become STALE and the busy field is cleared at once. The end of RESUMING
gives WORN when the flag is set and READY otherwise, and posts REBUILD_DONE to both. -/
def Obligations.UrgencyAndWornFollowTheirConditions : Prop :=
  ∀ d : Device,
    let due := decide (d.settings.wearSpread < d.highestCount - d.lowestCount)
    let refresh := d.pool.refresh.any fun r => (d.entry? r).any fun e =>
      decide (e.state = .live) && decide (e.version.generation < 4294967294)
    let waits : Prop := d.pool.scrub ≠ [] ∨ (d.phase ≠ .worn ∧ (refresh = true ∨ due = true))
    let free := d.countState .free
    let noted (d' : Device) (n : Notices) : Prop := ∀ p, (d'.port p).notices = ((d.port p).notices.union n)
    (¬waits → d.urgency = 0) ∧ (waits → 64 ≤ free → d.urgency = 1)
    ∧ (waits → 16 ≤ free → free < 64 → d.urgency = 2) ∧ (waits → free < 16 → d.urgency = 3)
    ∧ (d.phase.poolActive = true → d.pool.level < d.urgency → ∃ d', d.urgencyStep = some d' ∧
        d'.pool.level = d.urgency ∧ noted d' { Notices.empty with urgencyRaised := true })
    ∧ (d.phase.poolActive = true → d.urgency < d.pool.level →
        d.urgencyStep = some { d with pool := { d.pool with level := d.urgency } })
    ∧ (d.wornCondition = true ↔ d.goodTotal < d.quotaSum + 32 ∨ ∃ b : Bank, 64 ≤ d.pool.slots[b])
    ∧ (let entered : Device := ({ d with
          pool := { d.pool with worn := true }
          phase := if d.phase = .ready then .worn else d.phase
          maint := { d.maint with wornSeen := if d.maint.run = .idle then d.maint.wornSeen else true } } : Device).postBoth
            { Notices.empty with wornEntered := true }
      (d.maint.reloc = none → d.enterWorn = entered)
      ∧ ∀ r, d.maint.reloc = some r →
        (r.ending ≠ none ∨ r.stage = .commitQueued ∨ r.stage = .mirrorCommit → d.enterWorn = entered)
        ∧ (r.ending = none → r.stage ≠ .commitQueued → r.stage ≠ .mirrorCommit →
          let without : Device := { entered with pool := { entered.pool with
            draws := d.pool.draws.filter fun x => decide (x.drawer ≠ .reloc .maint)
            waits := d.pool.waits.filter fun g => !g.asker.isReloc .maint
            recheck := d.pool.recheck || d.pool.waits.any fun g => g.asker.isReloc .maint } }
          let free := (without.toStale (r.blocks.map (·.addr))).modEntry r.name fun e => { e with busy := .none }
          (r.jobs ≠ 0 → d.enterWorn
            = { without with maint := { without.maint with reloc := some { r with ending := some .worn } } })
          ∧ (r.jobs = 0 → d.enterWorn = { free with maint := { free.maint with reloc := none } })))
    ∧ (d.enterWorn.pool.worn = true ∧ (d.phase = .ready → d.enterWorn.phase = .worn)
        ∧ (d.phase ≠ .ready → d.enterWorn.phase = d.phase)
        ∧ (∀ p, (d.enterWorn.port p).notices.wornEntered = true))
    ∧ ((d.pool.worn = true → d.endResuming.phase = .worn) ∧ (d.pool.worn = false → d.endResuming.phase = .ready)
        ∧ noted d.endResuming { Notices.empty with rebuildDone := true })
end

