-- ==== Sys2Proof/Laws/Memory.lean ====
section
/-!
SUPPORT. The array as memory: what a read finds after a store, a program and an erase, and that every memory operation
keeps the canonical form.
-/

namespace Sys2Proof.Machine

/-! ### The canonical form, said of every cell -/

/-- What the canonical form says: addresses rise, and each cell lies in the array and differs from what its address
reads as unlisted. -/
theorem Memory.wf_iff (m : List Host.Cell) :
    Memory.wf m = true ↔ m.Pairwise (fun c c' => c.1 < c'.1) ∧ ∀ c ∈ m, c.1 < arrayBytes ∧ c.2 ≠ factoryByte c.1 := by
  induction m with
  | nil => simp [Memory.wf]
  | cons c rest ih =>
    cases rest with
    | nil => obtain ⟨a, v⟩ := c; simp [Memory.wf]
    | cons c' rest =>
      obtain ⟨a, v⟩ := c
      obtain ⟨b, w⟩ := c'
      simp only [Memory.wf, Bool.and_eq_true, decide_eq_true_eq, bne_iff_ne, ne_eq, ih]
      constructor
      · rintro ⟨⟨hab, hv⟩, hp, hall⟩
        refine ⟨List.pairwise_cons.2 ⟨?_, hp⟩, ?_⟩
        · intro x hx
          rcases List.mem_cons.1 hx with rfl | hx
          · exact hab
          · exact lt_trans hab ((List.pairwise_cons.1 hp).1 x hx)
        · intro x hx
          rcases List.mem_cons.1 hx with rfl | hx
          · exact ⟨lt_trans hab (hall (b, w) (by simp)).1, hv⟩
          · exact hall x hx
      · rintro ⟨hp, hall⟩
        have h := List.pairwise_cons.1 hp
        exact ⟨⟨h.1 (b, w) (by simp), (hall (a, v) (by simp)).2⟩, h.2, fun x hx => hall x (List.mem_cons_of_mem _ hx)⟩

/-! ### Reading -/

/-- A byte whose address no cell lists reads as the factory left it. -/
theorem Memory.get_unlisted {m : List Host.Cell} {x : Nat} (h : ∀ c ∈ m, c.1 ≠ x) : Memory.get m x = factoryByte x := by
  induction m with
  | nil => rfl
  | cons c rest ih =>
    obtain ⟨b, v⟩ := c
    have hb : x ≠ b := fun e => h (b, v) (by simp) e.symm
    simp only [Memory.get, if_neg hb]
    exact ih fun c hc => h c (List.mem_cons_of_mem _ hc)

/-- Cells in front that do not list an address do not count for it. -/
theorem Memory.get_append_right {m n : List Host.Cell} {x : Nat} (h : ∀ c ∈ m, c.1 ≠ x) :
    Memory.get (m ++ n) x = Memory.get n x := by
  induction m with
  | nil => rfl
  | cons c rest ih =>
    obtain ⟨b, v⟩ := c
    have hb : x ≠ b := fun e => h (b, v) (by simp) e.symm
    simp only [List.cons_append, Memory.get, if_neg hb]
    exact ih fun c hc => h c (List.mem_cons_of_mem _ hc)

/-- Cells behind that do not list an address do not count for it. -/
theorem Memory.get_append_left {m n : List Host.Cell} {x : Nat} (h : ∀ c ∈ n, c.1 ≠ x) :
    Memory.get (m ++ n) x = Memory.get m x := by
  induction m with
  | nil => exact Memory.get_unlisted h
  | cons c rest ih =>
    obtain ⟨b, v⟩ := c
    simp only [List.cons_append, Memory.get, ih]

/-- Leaving out cells by their address changes no address that stays in. -/
theorem Memory.get_filter {m : List Host.Cell} {keep : Nat → Bool} {x : Nat} (h : keep x = true) :
    Memory.get (m.filter fun c => keep c.1) x = Memory.get m x := by
  induction m with
  | nil => rfl
  | cons c rest ih =>
    obtain ⟨b, v⟩ := c
    by_cases hb : x = b
    · subst hb; simp [h, Memory.get]
    · by_cases hk : keep b = true
      · simp [hk, Memory.get, hb, ih]
      · simp [hk, Memory.get, hb, ih]

/-- A byte within a window reads the same from the window. -/
theorem Memory.get_window (m : List Host.Cell) {a n x : Nat} (h : a ≤ x ∧ x < a + n) :
    Memory.get (Memory.window m a n) x = Memory.get m x :=
  Memory.get_filter (keep := fun y => decide (a ≤ y) && decide (y < a + n)) (by simp [h.1, h.2])

/-! ### Listing and storing -/

/-- Every cell listed from an address on lies in the run and differs from what is unlisted there. -/
theorem listCells_mem {bytes : List Byte} {a : Nat} {c : Host.Cell} (h : c ∈ listCells a bytes) :
    a ≤ c.1 ∧ c.1 < a + bytes.length ∧ c.2 ≠ factoryByte c.1 := by
  induction bytes generalizing a with
  | nil => simp [listCells] at h
  | cons v rest ih =>
    simp only [listCells] at h
    split at h
    · obtain ⟨h1, h2, h3⟩ := ih h
      exact ⟨by omega, by simp only [List.length_cons]; omega, h3⟩
    · rename_i hv
      rcases List.mem_cons.1 h with rfl | h
      · exact ⟨le_refl _, by simp, hv⟩
      · obtain ⟨h1, h2, h3⟩ := ih h
        exact ⟨by omega, by simp only [List.length_cons]; omega, h3⟩

/-- The listed cells rise. -/
theorem listCells_pairwise (bytes : List Byte) (a : Nat) : (listCells a bytes).Pairwise fun c c' => c.1 < c'.1 := by
  induction bytes generalizing a with
  | nil => simp [listCells]
  | cons v rest ih =>
    simp only [listCells]
    split
    · exact ih _
    · refine List.pairwise_cons.2 ⟨fun c hc => ?_, ih _⟩
      exact lt_of_lt_of_le (Nat.lt_succ_self a) (listCells_mem hc).1

/-- What the listed cells read as. -/
theorem get_listCells (bytes : List Byte) (a i : Nat) (h : i < bytes.length) :
    Memory.get (listCells a bytes) (a + i) = bytes[i] := by
  induction bytes generalizing a i with
  | nil => simp at h
  | cons v rest ih =>
    simp only [listCells]
    cases i with
    | zero =>
      split
      · rename_i hv
        rw [Memory.get_unlisted]
        · simpa using hv.symm
        · intro c hc e
          have := (listCells_mem hc).1
          omega
      · simp [Memory.get]
    | succ i =>
      have hi : i < rest.length := by simpa using h
      have e : a + (i + 1) = a + 1 + i := by omega
      split
      · rw [e, ih _ _ hi]; simp
      · simp only [Memory.get]
        rw [if_neg (by omega), e, ih _ _ hi]
        simp

/-- A byte that was stored reads as stored. -/
theorem Memory.get_store_inside (m : List Host.Cell) (a i : Nat) (bytes : List Byte) (h : i < bytes.length) :
    Memory.get (Memory.store m a bytes) (a + i) = bytes[i] := by
  unfold Memory.store
  rw [Memory.get_append_left, Memory.get_append_right, get_listCells _ _ _ h]
  · intro c hc e
    have := (List.mem_filter.1 hc).2
    simp at this; omega
  · intro c hc e
    have := (List.mem_filter.1 hc).2
    simp at this; omega

/-- A byte outside a store reads as before. -/
theorem Memory.get_store_outside (m : List Host.Cell) (a x : Nat) (bytes : List Byte)
    (h : x < a ∨ a + bytes.length ≤ x) : Memory.get (Memory.store m a bytes) x = Memory.get m x := by
  unfold Memory.store
  rcases h with h | h
  · rw [Memory.get_append_left, Memory.get_append_left]
    · exact Memory.get_filter (keep := fun y => decide (y < a)) (by simpa using h)
    · intro c hc e; have := (listCells_mem hc).1; omega
    · intro c hc e
      have := (List.mem_filter.1 hc).2
      simp at this; omega
  · rw [Memory.get_append_right]
    · exact Memory.get_filter (keep := fun y => decide (a + bytes.length ≤ y)) (by simpa using h)
    · intro c hc e
      rcases List.mem_append.1 hc with hc | hc
      · have := (List.mem_filter.1 hc).2
        simp at this; omega
      · have := (listCells_mem hc).2.1; omega

/-- A store within the array keeps the canonical form. -/
theorem Memory.wf_store {m : List Host.Cell} {a : Nat} {bytes : List Byte} (hm : Memory.wf m = true)
    (h : a + bytes.length ≤ arrayBytes) : Memory.wf (Memory.store m a bytes) = true := by
  rw [Memory.wf_iff] at hm ⊢
  unfold Memory.store
  refine ⟨?_, ?_⟩
  · refine List.pairwise_append.2 ⟨List.pairwise_append.2 ⟨hm.1.filter _, listCells_pairwise _ _, ?_⟩, hm.1.filter _, ?_⟩
    · intro c hc c' hc'
      have h1 := (List.mem_filter.1 hc).2
      have h2 := (listCells_mem hc').1
      simp at h1; omega
    · intro c hc c' hc'
      have h2 := (List.mem_filter.1 hc').2
      simp at h2
      rcases List.mem_append.1 hc with hc | hc
      · have h1 := (List.mem_filter.1 hc).2
        simp at h1; omega
      · have h1 := (listCells_mem hc).2.1; omega
  · intro c hc
    rcases List.mem_append.1 hc with hc | hc
    · rcases List.mem_append.1 hc with hc | hc
      · exact hm.2 c (List.mem_filter.1 hc).1
      · have := listCells_mem hc
        exact ⟨by omega, this.2.2⟩
    · exact hm.2 c (List.mem_filter.1 hc).1

/-- Leaving out cells keeps the canonical form. -/
theorem Memory.wf_filter {m : List Host.Cell} (p : Host.Cell → Bool) (hm : Memory.wf m = true) :
    Memory.wf (m.filter p) = true := by
  rw [Memory.wf_iff] at hm ⊢
  exact ⟨hm.1.filter _, fun c hc => hm.2 c (List.mem_filter.1 hc).1⟩

/-! ### Programming and erasing -/

/-- Programming changes as many bytes as it is given. -/
@[simp] theorem programBytes_length (weak : List Nat) (m : List Host.Cell) (a : Nat) (data : List Byte) :
    (programBytes weak m a data).length = data.length := by
  induction data generalizing a with
  | nil => rfl
  | cons v rest ih => simp [programBytes, ih]

/-- Each programmed byte is what stood there with the zeros of the data, or the data where no rule fixed it. -/
theorem programBytes_get (weak : List Nat) (m : List Host.Cell) (a i : Nat) (data : List Byte) (h : i < data.length) :
    (programBytes weak m a data)[i]'(by simpa using h)
      = if (a + i) / 16 ∈ weak then data[i] else Memory.get m (a + i) &&& data[i] := by
  induction data generalizing a i with
  | nil => simp at h
  | cons v rest ih =>
    cases i with
    | zero => simp [programBytes]
    | succ i =>
      have := ih (a + 1) i (by simpa using h)
      simp only [programBytes, List.getElem_cons_succ, this]
      rw [show a + 1 + i = a + (i + 1) by omega]

/-- A programmed byte keeps its zeros and takes those of the data (R115); where no rule fixed it, it holds the data. -/
theorem Memory.get_program_inside (weak : List Nat) (m : List Host.Cell) (a i : Nat) (data : List Byte)
    (h : i < data.length) :
    Memory.get (Memory.program weak m a data) (a + i)
      = if (a + i) / 16 ∈ weak then data[i] else Memory.get m (a + i) &&& data[i] := by
  unfold Memory.program
  rw [Memory.get_store_inside _ _ _ _ (by simpa using h), programBytes_get _ _ _ _ _ h, Memory.get_window]
  omega

/-- A byte outside a program reads as before. -/
theorem Memory.get_program_outside (weak : List Nat) (m : List Host.Cell) (a x : Nat) (data : List Byte)
    (h : x < a ∨ a + data.length ≤ x) : Memory.get (Memory.program weak m a data) x = Memory.get m x :=
  Memory.get_store_outside _ _ _ _ (by simpa using h)

/-- A program within the array keeps the canonical form. -/
theorem Memory.wf_program {weak : List Nat} {m : List Host.Cell} {a : Nat} {data : List Byte}
    (hm : Memory.wf m = true) (h : a + data.length ≤ arrayBytes) : Memory.wf (Memory.program weak m a data) = true :=
  Memory.wf_store hm (by simpa using h)

/-- A block has its place among the 2,048. -/
theorem blockNum_lt (a : BlockAddr) : a.num < 2048 := by
  have := a.bank.isLt
  have := a.block.isLt
  unfold BlockAddr.num
  omega

/-- Blocks are told apart by their places. -/
theorem blockNum_inj {a b : BlockAddr} (h : a.num = b.num) : a = b := by
  have h1 := a.block.isLt
  have h2 := b.block.isLt
  obtain ⟨⟨x, hx⟩, ⟨y, hy⟩⟩ := a
  obtain ⟨⟨z, hz⟩, ⟨w, hw⟩⟩ := b
  simp only [BlockAddr.num] at *
  simp only [BlockAddr.mk.injEq, Fin.mk.injEq]
  omega

/-- A page ends within its block. -/
theorem pageBase_bounds (a : BlockAddr) (page : Nat) :
    blockBase a ≤ pageBase a page ∧ pageBase a page + 256 ≤ blockBase a + 4096 := by
  unfold pageBase
  omega

/-- A block ends within the array. -/
theorem blockBase_bound (a : BlockAddr) : blockBase a + 4096 ≤ arrayBytes := by
  have := blockNum_lt a
  unfold blockBase arrayBytes
  omega

/-- After the first 32 bytes of a block an unlisted byte reads as erased. -/
theorem factoryByte_erased {x : Nat} (h : 32 ≤ x % 4096) : factoryByte x = 0xFF := by
  unfold factoryByte
  rw [if_neg (by omega)]

/-- Every byte of an erased block reads as ones (R115). -/
theorem Memory.get_eraseBlock_inside (m : List Host.Cell) (a : BlockAddr) (i : Nat) (h : i < 4096) :
    Memory.get (Memory.eraseBlock m a) (blockBase a + i) = 0xFF := by
  unfold Memory.eraseBlock
  by_cases hi : i < 32
  · rw [Memory.get_store_inside _ _ _ _ (by simpa [fill] using hi)]
    exact List.getElem_replicate _
  · rw [Memory.get_store_outside _ _ _ _ (by simp [fill]; omega), Memory.get_unlisted]
    · apply factoryByte_erased
      unfold blockBase
      omega
    · intro c hc e
      have := (List.mem_filter.1 hc).2
      simp only [ne_eq, decide_not, Bool.not_eq_true', decide_eq_false_iff_not] at this
      apply this
      rw [e]
      unfold blockBase
      omega

/-- A byte outside an erased block reads as before. -/
theorem Memory.get_eraseBlock_outside (m : List Host.Cell) (a : BlockAddr) (x : Nat) (h : x / 4096 ≠ a.num) :
    Memory.get (Memory.eraseBlock m a) x = Memory.get m x := by
  unfold Memory.eraseBlock
  rw [Memory.get_store_outside]
  · exact Memory.get_filter (keep := fun y => decide (y / 4096 ≠ a.num)) (by simpa using h)
  · simp only [fill, List.length_replicate]
    unfold blockBase
    omega

/-- An erase keeps the canonical form. -/
theorem Memory.wf_eraseBlock {m : List Host.Cell} (a : BlockAddr) (hm : Memory.wf m = true) :
    Memory.wf (Memory.eraseBlock m a) = true := by
  refine Memory.wf_store (Memory.wf_filter _ hm) ?_
  have := blockBase_bound a
  simp only [fill, List.length_replicate]
  omega

/-! ### Sets of numbers -/

/-- What a set holds after a number is inserted. -/
@[simp] theorem mem_insertNat (n : Nat) (set : List Nat) (x : Nat) : x ∈ insertNat n set ↔ x = n ∨ x ∈ set := by
  induction set with
  | nil => simp [insertNat]
  | cons m rest ih =>
    unfold insertNat
    split
    · simp
    · split
      · rename_i h
        simp [h]
      · rw [List.mem_cons, ih, List.mem_cons]
        exact or_left_comm

/-- What a set holds after numbers are added to it. -/
@[simp] theorem mem_insertNums (set ns : List Nat) (x : Nat) : x ∈ insertNums set ns ↔ x ∈ set ∨ x ∈ ns := by
  unfold insertNums
  induction ns with
  | nil => simp
  | cons n rest ih =>
    rw [List.foldr_cons, mem_insertNat, ih, List.mem_cons]
    exact or_left_comm

/-- What a set holds after numbers are taken from it. -/
@[simp] theorem mem_dropNums (set : List Nat) (p : Nat → Bool) (x : Nat) :
    x ∈ dropNums set p ↔ x ∈ set ∧ p x = false := by
  unfold dropNums
  rw [List.mem_filter]
  simp

/-- The blocks of a list without one. -/
@[simp] theorem mem_mended (cut : List Nat) (a : BlockAddr) (n : Nat) : n ∈ mended cut a ↔ n ∈ cut ∧ n ≠ a.num := by
  unfold mended
  rw [mem_dropNums]
  simp

/-- The segments of a block. -/
@[simp] theorem mem_blockSegments (a : BlockAddr) (g : Nat) : g ∈ blockSegments a ↔ g / 256 = a.num := by
  unfold blockSegments
  rw [List.mem_map]
  constructor
  · rintro ⟨i, hi, rfl⟩
    have := List.mem_range.1 hi
    omega
  · intro h
    exact ⟨g % 256, List.mem_range.2 (by omega), by omega⟩

/-- The segments a program stores into: those that some byte of its data falls in. -/
theorem mem_runSegments (a : BlockAddr) (page seg : Nat) (data : List Byte) (g : Nat) :
    g ∈ runSegments a page seg data
      ↔ runBase a page seg ≤ 16 * g ∧ 16 * g < runBase a page seg + (runData seg data).length := by
  have aligned : runBase a page seg % 16 = 0 := by
    unfold runBase pageBase blockBase
    omega
  unfold runSegments
  rw [List.mem_map]
  constructor
  · rintro ⟨i, hi, rfl⟩
    have := List.mem_range.1 hi
    omega
  · rintro ⟨h1, h2⟩
    exact ⟨g - runBase a page seg / 16, List.mem_range.2 (by omega), by omega⟩

/-! ### Records that fail their CRC -/

/-- The same number of bytes. -/
@[simp] theorem disturbed_length (ends : List Nat) (i : Nat) (bytes : List Byte) :
    (disturbed ends i bytes).length = bytes.length := by
  induction bytes generalizing i with
  | nil => rfl
  | cons v rest ih => simp [disturbed, ih]

/-- A byte differs where a record ends that fails its CRC, and there alone. -/
theorem disturbed_get (ends : List Nat) (i k : Nat) (bytes : List Byte) :
    (disturbed ends i bytes)[k]? = bytes[k]?.map fun v => if i + k ∈ ends then v ^^^ 1 else v := by
  induction bytes generalizing i k with
  | nil => simp [disturbed]
  | cons v rest ih =>
    cases k with
    | zero => simp [disturbed]
    | succ k =>
      simp only [disturbed, List.getElem?_cons_succ, ih]
      rw [show i + 1 + k = i + (k + 1) by omega]

/-- A run of bytes with no such end in it is as it was. -/
theorem sliceBytes_disturbed (ends : List Nat) (bytes : List Byte) (o n : Nat)
    (h : ∀ k, o ≤ k → k < o + n → k ∉ ends) : sliceBytes (disturbed ends 0 bytes) o n = sliceBytes bytes o n := by
  apply List.ext_getElem?
  intro k
  unfold sliceBytes
  by_cases hk : k < n
  · have clear : o + k ∉ ends := h (o + k) (by omega) (by omega)
    rw [List.getElem?_take_of_lt hk, List.getElem?_take_of_lt hk, List.getElem?_drop, List.getElem?_drop, disturbed_get]
    simp [clear]
  · rw [List.getElem?_eq_none (by simp; omega), List.getElem?_eq_none (by simp; omega)]

/-- Bytes of one length are the same when their numbers are. -/
theorem leValue_inj {x y : List Byte} (h : x.length = y.length) (e : leValue x = leValue y) : x = y := by
  induction x generalizing y with
  | nil => exact (List.length_eq_zero_iff.1 h.symm).symm
  | cons v x ih =>
    cases y with
    | nil => simp at h
    | cons w y =>
      have hv := v.isLt
      have hw := w.isLt
      simp only [leValue] at e
      have low : v = w := BitVec.eq_of_toNat_eq (by omega)
      rw [low, ih (by simpa using h) (by omega)]

/-- A field reads otherwise when one of its bytes is changed. -/
theorem fieldAt_disturbed (ends : List Nat) (bytes : List Byte) (o n k : Nat) (ho : o ≤ k) (hn : k < o + n)
    (hl : k < bytes.length) (he : k ∈ ends) : fieldAt (disturbed ends 0 bytes) o n ≠ fieldAt bytes o n := by
  intro e
  have same := leValue_inj (by simp [sliceBytes]) e
  have at_ := congrArg (fun l => l[k - o]?) same
  simp only [sliceBytes] at at_
  rw [List.getElem?_take_of_lt (by omega), List.getElem?_take_of_lt (by omega), List.getElem?_drop,
    List.getElem?_drop, disturbed_get, show o + (k - o) = k by omega, List.getElem?_eq_getElem hl] at at_
  simp only [Option.map_some, Nat.zero_add, if_pos he, Option.some.injEq] at at_
  have := congrArg (fun v : Byte => v.getLsbD 0) at_
  simp at this

/-- A page has 256 bytes. -/
@[simp] theorem stampedBytes_length (s : State) (a : BlockAddr) (page : Nat) : (stampedBytes s a page).length = 256 := by
  have raw : (rawBytes s a page).length = 256 := by simp [rawBytes]
  unfold stampedBytes
  dsimp only
  split
  · unfold cutStamp
    split <;> simp [segment, sliceBytes, raw]
  · exact raw

/-- A page has 256 bytes. -/
@[simp] theorem pageBytes_length (s : State) (a : BlockAddr) (page : Nat) : (pageBytes s a page).length = 256 := by
  simp [pageBytes]

/-- The runs of a page's records have their segments in the page, and do not overlap. -/
theorem recordRuns_apart {a : BlockAddr} {page : Nat} {x y : Nat × Nat} (hx : x ∈ recordRuns a page)
    (hy : y ∈ recordRuns a page) :
    (1 ≤ x.2 ∧ x.1 + x.2 ≤ 16) ∧ (x = y ∨ x.1 + x.2 ≤ y.1 ∨ y.1 + y.2 ≤ x.1) := by
  have runs : ∀ l : List (Nat × Nat),
      (∀ x ∈ l, ∀ y ∈ l, (1 ≤ x.2 ∧ x.1 + x.2 ≤ 16) ∧ (x = y ∨ x.1 + x.2 ≤ y.1 ∨ y.1 + y.2 ≤ x.1)) →
      x ∈ l → y ∈ l → (1 ≤ x.2 ∧ x.1 + x.2 ≤ 16) ∧ (x = y ∨ x.1 + x.2 ≤ y.1 ∨ y.1 + y.2 ≤ x.1) :=
    fun _ h hx hy => h x hx y hy
  unfold recordRuns at hx hy
  split_ifs at hx hy <;> exact runs _ (by decide) hx hy

/-- A run of segments that lies in the bytes has 16 bytes for each. -/
theorem segments_length {bytes : List Byte} {f n : Nat} (h : 16 * (f + n) ≤ bytes.length) :
    (segments bytes f n).length = 16 * n := by
  unfold segments sliceBytes
  simp only [List.length_take, List.length_drop]
  omega

/-- The CRC decides a record's last byte: of two records that differ in it alone, one at most has a CRC that matches
(R129, R130). -/
theorem crcMatches_unique {x y : List Byte} (h4 : 4 ≤ x.length) (hl : x.length = y.length)
    (front : x.take (x.length - 1) = y.take (x.length - 1)) (hx : crcMatches x = true) (hy : crcMatches y = true) :
    x = y := by
  have fields : ∀ k : Nat, k ≤ 4 → 1 ≤ k → ∀ c : List Byte → Nat,
      fieldAt x (x.length - k) k = c (x.take (x.length - k)) →
      fieldAt y (y.length - k) k = c (y.take (y.length - k)) → x = y := by
    intro k _ h1 c ex ey
    have head : x.take (x.length - k) = y.take (y.length - k) := by
      have := congrArg (List.take (x.length - k)) front
      rw [List.take_take, List.take_take, show min (x.length - k) (x.length - 1) = x.length - k by omega] at this
      rw [this, hl]
    have tail : x.drop (x.length - k) = y.drop (y.length - k) := by
      have e : leValue (sliceBytes x (x.length - k) k) = leValue (sliceBytes y (y.length - k) k) := by
        unfold fieldAt at ex ey
        rw [ex, ey, head]
      have := leValue_inj (by simp [sliceBytes, hl]) e
      unfold sliceBytes at this
      rwa [List.take_of_length_le (by simp; omega), List.take_of_length_le (by simp; omega)] at this
    rw [← List.take_append_drop (x.length - k) x, head, tail, List.take_append_drop]
  unfold crcMatches at hx hy
  rw [← hl] at hy
  by_cases h : x.length = 256
  · rw [if_pos h, beq_iff_eq] at hx hy
    exact fields 4 (by omega) (by omega) (fun l => (crc32 l).toNat) (by rw [h]; exact hx) (by rw [← hl, h]; exact hy)
  · rw [if_neg h] at hx hy
    unfold crc16Valid at hx hy
    rw [Bool.and_eq_true, beq_iff_eq] at hx hy
    exact fields 2 (by omega) (by omega) (fun l => (crc16 l).toNat) hx.2 (by rw [← hl]; exact hy.2)

set_option maxRecDepth 100000 in
/-- Erased bytes but for the last bit are no record of any length that the array's records have (section 7.8). -/
theorem crcMatches_ones {n : Nat} (h : n = 1 ∨ n = 2 ∨ n = 4 ∨ n = 16) :
    crcMatches (fill (16 * n - 1) 0xFF ++ [0xFE]) = false := by
  rcases h with rfl | rfl | rfl | rfl <;> decide +kernel

/-- The lengths of the records of section 7.8, in segments. -/
theorem recordRuns_lengths {a : BlockAddr} {page : Nat} {run : Nat × Nat} (h : run ∈ recordRuns a page) :
    run.2 = 1 ∨ run.2 = 2 ∨ run.2 = 4 ∨ run.2 = 16 := by
  have runs : ∀ l : List (Nat × Nat), (∀ x ∈ l, x.2 = 1 ∨ x.2 = 2 ∨ x.2 = 4 ∨ x.2 = 16) → run ∈ l →
      run.2 = 1 ∨ run.2 = 2 ∨ run.2 = 4 ∨ run.2 = 16 := fun _ h hx => h run hx
  unfold recordRuns at h
  split_ifs at h <;> exact runs _ (by decide) h

/-- A record that fails its CRC whatever its bytes read as: a page read returns it as it stands where that fails the CRC
and leaves a slot that counts as used programmed, and with its last bit changed otherwise. -/
theorem pageBytes_run {s : State} {a : BlockAddr} {page : Nat} {run : Nat × Nat} (hr : run ∈ recordRuns a page)
    (ht : segmentNum a page run.1 ∈ s.torn) :
    let was := segments (stampedBytes s a page) run.1 run.2
    let is := segments (pageBytes s a page) run.1 run.2
    (recordBarred a page was = false → is = was)
      ∧ (recordBarred a page was = true → is.take (16 * run.2 - 1) = was.take (16 * run.2 - 1)
          ∧ is[16 * run.2 - 1]? = (was[16 * run.2 - 1]?).map (· ^^^ 1)) := by
  obtain ⟨f, n⟩ := run
  intro was is
  dsimp only at ht was is ⊢
  set bytes := stampedBytes s a page with hb
  have length : bytes.length = 256 := stampedBytes_length s a page
  have in_ := (recordRuns_apart hr hr).1
  dsimp only at in_
  have ends : ∀ k, 16 * f ≤ k → k < 16 * (f + n) → (k ∈ tornEnds s a page bytes
      ↔ k = 16 * (f + n) - 1 ∧ recordBarred a page was = true) := by
    intro k h1 h2
    unfold tornEnds
    rw [List.mem_map]
    constructor
    · rintro ⟨y, hy, rfl⟩
      obtain ⟨hy, hm⟩ := List.mem_filter.1 hy
      have own := recordRuns_apart hy hr
      rcases own.2 with e | e
      · subst e
        exact ⟨rfl, (Bool.and_eq_true_iff.1 hm).2⟩
      · dsimp only at e
        omega
    · rintro ⟨rfl, hm⟩
      exact ⟨(f, n), List.mem_filter.2 ⟨hr, by rw [Bool.and_eq_true]; exact ⟨by simp [ht], hm⟩⟩, rfl⟩
  have his : is = sliceBytes (disturbed (tornEnds s a page bytes) 0 bytes) (16 * f) (16 * n) := rfl
  have hwas : was = sliceBytes bytes (16 * f) (16 * n) := rfl
  constructor
  · intro hm
    rw [his, hwas]
    refine sliceBytes_disturbed _ _ _ _ fun k h1 h2 hk => ?_
    rw [((ends k h1 (by omega)).1 hk).2] at hm
    exact Bool.noConfusion hm
  · intro hm
    constructor
    · have front := sliceBytes_disturbed (tornEnds s a page bytes) bytes (16 * f) (16 * n - 1) fun k h1 h2 hk => by
        have := ((ends k h1 (by omega)).1 hk).1
        omega
      rw [his, hwas]
      unfold sliceBytes at front ⊢
      rwa [List.take_take, List.take_take, show min (16 * n - 1) (16 * n) = 16 * n - 1 by omega]
    · have last := (ends (16 * (f + n) - 1) (by omega) (by omega)).2 ⟨rfl, hm⟩
      rw [his, hwas]
      unfold sliceBytes
      rw [List.getElem?_take_of_lt (by omega), List.getElem?_take_of_lt (by omega), List.getElem?_drop,
        List.getElem?_drop, disturbed_get, show 16 * f + (16 * n - 1) = 16 * (f + n) - 1 by omega]
      simp [last]

/-- A record that fails its CRC whatever its bytes read as fails it in every page read (R47, R70, R128, R152, R167), and
a slot that counts as used never reads as erased (R119, R152, R159). -/
theorem pageBytes_torn {s : State} {a : BlockAddr} {page : Nat} {run : Nat × Nat} (hr : run ∈ recordRuns a page)
    (ht : segmentNum a page run.1 ∈ s.torn) :
    crcMatches (segments (pageBytes s a page) run.1 run.2) = false
      ∧ (slotPage a page = true → allOnes (segments (pageBytes s a page) run.1 run.2) = false) := by
  have in_ := (recordRuns_apart hr hr).1
  have lengths := recordRuns_lengths hr
  obtain ⟨same, changed⟩ := pageBytes_run hr ht
  have hw : (segments (stampedBytes s a page) run.1 run.2).length = 16 * run.2 :=
    segments_length (by rw [stampedBytes_length]; omega)
  have hi : (segments (pageBytes s a page) run.1 run.2).length = 16 * run.2 :=
    segments_length (by rw [pageBytes_length]; omega)
  generalize segments (stampedBytes s a page) run.1 run.2 = was at same changed hw
  generalize segments (pageBytes s a page) run.1 run.2 = is at same changed hi
  cases hm : recordBarred a page was with
  | false =>
    rw [same hm]
    unfold recordBarred at hm
    rw [Bool.or_eq_false_iff, Bool.and_eq_false_iff] at hm
    exact ⟨hm.1, fun h => hm.2.resolve_left (by simp [h])⟩
  | true =>
    obtain ⟨front, last⟩ := changed hm
    have hlast : 16 * run.2 - 1 < was.length := by omega
    rw [List.getElem?_eq_getElem hlast, Option.map_some] at last
    have differ : is ≠ was := by
      intro e
      rw [e, List.getElem?_eq_getElem hlast, Option.some.injEq] at last
      have := congrArg (fun v : Byte => v.getLsbD 0) last
      simp at this
    have ones : ∀ l : List Byte, l.length = 16 * run.2 → allOnes l = true → l = fill (16 * run.2) 0xFF := by
      intro l hl h
      refine List.eq_replicate_iff.2 ⟨hl, fun x hx => ?_⟩
      simpa using List.all_eq_true.1 h x hx
    have flipped : ∀ l m : List Byte, l.length = 16 * run.2 → m.length = 16 * run.2 → allOnes l = true →
        m.take (16 * run.2 - 1) = l.take (16 * run.2 - 1) → m[16 * run.2 - 1]? = some 0xFE → crcMatches m = false := by
      intro l m hl hm h ht he
      have : m = fill (16 * run.2 - 1) 0xFF ++ [0xFE] := by
        rw [← List.take_append_drop (16 * run.2 - 1) m, ht, ones l hl h]
        congr 1
        · simp [fill, List.take_replicate]
        · rw [List.drop_eq_getElem_cons (by omega), List.drop_of_length_le (by omega)]
          rw [List.getElem?_eq_getElem (by omega), Option.some.injEq] at he
          rw [he]
      rw [this]
      exact crcMatches_ones lengths
    have at_ : ∀ l : List Byte, l.length = 16 * run.2 → allOnes l = true → l[16 * run.2 - 1]? = some 0xFF := by
      intro l hl h
      rw [ones l hl h]
      simp only [fill, List.getElem?_replicate]
      rw [if_pos (by omega)]
    constructor
    · by_cases hc : crcMatches was = true
      · rw [← Bool.not_eq_true]
        intro h
        exact differ (crcMatches_unique (by omega) (by omega) (by rw [hi]; exact front) h hc)
      · have hones : allOnes was = true := by
          unfold recordBarred at hm
          simp only [Bool.or_eq_true, Bool.and_eq_true] at hm
          exact (hm.resolve_left hc).2
        refine flipped was is hw hi hones front ?_
        have := at_ was hw hones
        rw [List.getElem?_eq_getElem hlast, Option.some.injEq] at this
        rw [last, this]
        rfl
    · intro _
      rw [← Bool.not_eq_true]
      intro h
      have e := at_ is hi h
      rw [last, Option.some.injEq] at e
      have hfe : was[16 * run.2 - 1] = 0xFE := by
        have := congrArg (· ^^^ (1 : Byte)) e
        simpa [BitVec.xor_assoc] using this
      have hno : crcMatches was = false :=
        flipped is was hi hw h front.symm (by rw [List.getElem?_eq_getElem hlast, hfe])
      have hones : allOnes was = true := by
        unfold recordBarred at hm
        simp only [Bool.or_eq_true, Bool.and_eq_true] at hm
        exact (hm.resolve_left (by simp [hno])).2
      have e' := at_ was hw hones
      rw [List.getElem?_eq_getElem hlast, Option.some.injEq, hfe] at e'
      exact absurd e' (by decide)

/-! ### What the updates of the array leave alone -/

@[simp] theorem State.programmed_toDevice (s : State) (a : BlockAddr) (page seg : Nat) (data : List Byte) :
    (s.programmed a page seg data).toDevice = s.toDevice := rfl
@[simp] theorem State.programmed_spoilt (s : State) (a : BlockAddr) (page seg : Nat) (data : List Byte) :
    (s.programmed a page seg data).spoilt = s.spoilt := rfl
@[simp] theorem State.programmed_fresh (s : State) (a : BlockAddr) (page seg : Nat) (data : List Byte) :
    (s.programmed a page seg data).fresh = s.fresh := rfl
@[simp] theorem State.programmed_pending (s : State) (a : BlockAddr) (page seg : Nat) (data : List Byte) :
    (s.programmed a page seg data).pending = s.pending := rfl

@[simp] theorem State.pageSpoiled_toDevice (s : State) (a : BlockAddr) (page : Nat) :
    (s.pageSpoiled a page).toDevice = s.toDevice := rfl
@[simp] theorem State.pageSpoiled_cells (s : State) (a : BlockAddr) (page : Nat) :
    (s.pageSpoiled a page).cells = s.cells := rfl
@[simp] theorem State.pageSpoiled_weak (s : State) (a : BlockAddr) (page : Nat) :
    (s.pageSpoiled a page).weak = s.weak := rfl
@[simp] theorem State.pageSpoiled_torn (s : State) (a : BlockAddr) (page : Nat) :
    (s.pageSpoiled a page).torn = s.torn := rfl
@[simp] theorem State.pageSpoiled_fresh (s : State) (a : BlockAddr) (page : Nat) :
    (s.pageSpoiled a page).fresh = s.fresh := rfl
@[simp] theorem State.pageSpoiled_pending (s : State) (a : BlockAddr) (page : Nat) :
    (s.pageSpoiled a page).pending = s.pending := rfl

@[simp] theorem State.runCut_toDevice (s : State) (a : BlockAddr) (page seg : Nat) (data : List Byte) :
    (s.runCut a page seg data).toDevice = s.toDevice := rfl
@[simp] theorem State.runCut_cells (s : State) (a : BlockAddr) (page seg : Nat) (data : List Byte) :
    (s.runCut a page seg data).cells = s.cells := rfl
@[simp] theorem State.runCut_spoilt (s : State) (a : BlockAddr) (page seg : Nat) (data : List Byte) :
    (s.runCut a page seg data).spoilt = s.spoilt := rfl
@[simp] theorem State.runCut_fresh (s : State) (a : BlockAddr) (page seg : Nat) (data : List Byte) :
    (s.runCut a page seg data).fresh = s.fresh := rfl
@[simp] theorem State.runCut_pending (s : State) (a : BlockAddr) (page seg : Nat) (data : List Byte) :
    (s.runCut a page seg data).pending = s.pending := rfl

@[simp] theorem State.recordTorn_toDevice (s : State) (a : BlockAddr) (page seg : Nat) :
    (s.recordTorn a page seg).toDevice = s.toDevice := rfl
@[simp] theorem State.recordTorn_cells (s : State) (a : BlockAddr) (page seg : Nat) :
    (s.recordTorn a page seg).cells = s.cells := rfl
@[simp] theorem State.recordTorn_weak (s : State) (a : BlockAddr) (page seg : Nat) :
    (s.recordTorn a page seg).weak = s.weak := rfl
@[simp] theorem State.recordTorn_spoilt (s : State) (a : BlockAddr) (page seg : Nat) :
    (s.recordTorn a page seg).spoilt = s.spoilt := rfl
@[simp] theorem State.recordTorn_cut (s : State) (a : BlockAddr) (page seg : Nat) :
    (s.recordTorn a page seg).cut = s.cut := rfl
@[simp] theorem State.recordTorn_fresh (s : State) (a : BlockAddr) (page seg : Nat) :
    (s.recordTorn a page seg).fresh = s.fresh := rfl
@[simp] theorem State.recordTorn_pending (s : State) (a : BlockAddr) (page seg : Nat) :
    (s.recordTorn a page seg).pending = s.pending := rfl

@[simp] theorem State.runFailed_toDevice (s : State) (a : BlockAddr) (page seg : Nat) :
    (s.runFailed a page seg).toDevice = s.toDevice := by unfold State.runFailed; split <;> rfl
@[simp] theorem State.runFailed_cells (s : State) (a : BlockAddr) (page seg : Nat) :
    (s.runFailed a page seg).cells = s.cells := by unfold State.runFailed; split <;> rfl
@[simp] theorem State.runFailed_weak (s : State) (a : BlockAddr) (page seg : Nat) :
    (s.runFailed a page seg).weak = s.weak := by unfold State.runFailed; split <;> rfl
@[simp] theorem State.runFailed_spoilt (s : State) (a : BlockAddr) (page seg : Nat) :
    (s.runFailed a page seg).spoilt = insertNums s.spoilt [pageNum a page] := by
  unfold State.runFailed; split <;> rfl
@[simp] theorem State.runFailed_torn (s : State) (a : BlockAddr) (page seg : Nat) :
    (s.runFailed a page seg).torn = if a.block = 0 then insertNums s.torn [segmentNum a page seg] else s.torn := by
  unfold State.runFailed; split <;> rfl
@[simp] theorem State.runFailed_cut (s : State) (a : BlockAddr) (page seg : Nat) :
    (s.runFailed a page seg).cut = if page % 16 = 0 then mended s.cut a else s.cut := by
  unfold State.runFailed; split <;> rfl
@[simp] theorem State.runFailed_fresh (s : State) (a : BlockAddr) (page seg : Nat) :
    (s.runFailed a page seg).fresh = s.fresh := by unfold State.runFailed; split <;> rfl
@[simp] theorem State.runFailed_pending (s : State) (a : BlockAddr) (page seg : Nat) :
    (s.runFailed a page seg).pending = s.pending := by unfold State.runFailed; split <;> rfl

@[simp] theorem State.blockErased_toDevice (s : State) (a : BlockAddr) : (s.blockErased a).toDevice = s.toDevice := rfl
@[simp] theorem State.blockErased_fresh (s : State) (a : BlockAddr) : (s.blockErased a).fresh = s.fresh := rfl
@[simp] theorem State.blockErased_pending (s : State) (a : BlockAddr) : (s.blockErased a).pending = s.pending := rfl

@[simp] theorem State.blockSpoiled_toDevice (s : State) (a : BlockAddr) :
    (s.blockSpoiled a).toDevice = s.toDevice := rfl
@[simp] theorem State.blockSpoiled_cells (s : State) (a : BlockAddr) : (s.blockSpoiled a).cells = s.cells := rfl
@[simp] theorem State.blockSpoiled_fresh (s : State) (a : BlockAddr) : (s.blockSpoiled a).fresh = s.fresh := rfl
@[simp] theorem State.blockSpoiled_pending (s : State) (a : BlockAddr) : (s.blockSpoiled a).pending = s.pending := rfl

@[simp] theorem State.blockCut_toDevice (s : State) (a : BlockAddr) : (s.blockCut a).toDevice = s.toDevice := rfl
@[simp] theorem State.blockCut_cells (s : State) (a : BlockAddr) : (s.blockCut a).cells = s.cells := rfl
@[simp] theorem State.blockCut_fresh (s : State) (a : BlockAddr) : (s.blockCut a).fresh = s.fresh := rfl
@[simp] theorem State.blockCut_pending (s : State) (a : BlockAddr) : (s.blockCut a).pending = s.pending := rfl

@[simp] theorem State.pageOverwritten_toDevice (s : State) (a : BlockAddr) (page : Nat) :
    (s.pageOverwritten a page).toDevice = s.toDevice := rfl
@[simp] theorem State.pageOverwritten_fresh (s : State) (a : BlockAddr) (page : Nat) :
    (s.pageOverwritten a page).fresh = s.fresh := rfl
@[simp] theorem State.pageOverwritten_pending (s : State) (a : BlockAddr) (page : Nat) :
    (s.pageOverwritten a page).pending = s.pending := rfl

@[simp] theorem State.verified_toDevice (s : State) (a : BlockAddr) (first : Nat) :
    (s.verified a first).toDevice = s.toDevice := rfl
@[simp] theorem State.verified_fresh (s : State) (a : BlockAddr) (first : Nat) :
    (s.verified a first).fresh = s.fresh := rfl
@[simp] theorem State.verified_pending (s : State) (a : BlockAddr) (first : Nat) :
    (s.verified a first).pending = s.pending := rfl

/-! ### Jobs -/

/-- Data programmed into a page stays within the array. -/
theorem run_bound (a : BlockAddr) (page seg : Nat) (data : List Byte) :
    runBase a page seg + (runData seg data).length ≤ arrayBytes := by
  have h1 := pageBase_bounds a page
  have h2 := blockBase_bound a
  have h3 : (runData seg data).length ≤ 256 - seg % 16 * 16 := by simp [runData]
  unfold runBase
  omega

/-- Programming keeps the canonical form. -/
theorem State.programmed_canonical {s : State} (a : BlockAddr) (page seg : Nat) (data : List Byte)
    (h : s.ArrayCanonical) : (s.programmed a page seg data).ArrayCanonical :=
  Memory.wf_program h (run_bound a page seg data)

/-- A program that failed keeps the canonical form. -/
theorem State.runFailed_canonical {s : State} (a : BlockAddr) (page seg : Nat) (h : s.ArrayCanonical) :
    (s.runFailed a page seg).ArrayCanonical := by
  unfold State.ArrayCanonical
  rwa [State.runFailed_cells]

/-- An erase verify that finds the block erased keeps the canonical form. -/
theorem State.verified_canonical {s : State} (a : BlockAddr) (first : Nat) (h : s.ArrayCanonical) :
    (s.verified a first).ArrayCanonical := by
  unfold State.verified State.ArrayCanonical
  dsimp only
  split
  · exact Memory.wf_eraseBlock _ h
  · exact Memory.wf_filter _ h

/-- A job's effect on the array keeps the canonical form (R121, R125). -/
theorem State.jobWorked_canonical {s : State} (b : Bank) (j : Job) (o : OkFail) (h : s.ArrayCanonical) :
    (s.jobWorked b j o).ArrayCanonical := by
  unfold State.jobWorked
  dsimp only
  split
  · exact h
  · split
    · exact State.verified_canonical _ _ h
    · exact h
  · split
    · refine Memory.wf_store h ?_
      have h1 := pageBase_bounds { bank := b, block := j.block } ‹Nat›
      have h2 := blockBase_bound { bank := b, block := j.block }
      simp only [fill, List.length_replicate]
      omega
    · split
      · exact State.programmed_canonical _ _ _ _ h
      · exact State.runFailed_canonical _ _ _ h
  · exact State.programmed_canonical _ _ _ _ h
  · exact State.runFailed_canonical _ _ _ h
  · exact Memory.wf_eraseBlock _ h
  · exact h

/-- What a job leaves in the array, and nothing else of the machine (R121). -/
@[simp] theorem State.jobWorked_toDevice (s : State) (b : Bank) (j : Job) (o : OkFail) :
    (s.jobWorked b j o).toDevice = s.toDevice := by
  unfold State.jobWorked
  dsimp only
  repeat' split
  all_goals first | rfl | simp

@[simp] theorem State.jobWorked_fresh (s : State) (b : Bank) (j : Job) (o : OkFail) :
    (s.jobWorked b j o).fresh = s.fresh := by
  unfold State.jobWorked
  dsimp only
  repeat' split
  all_goals first | rfl | simp

@[simp] theorem State.jobWorked_pending (s : State) (b : Bank) (j : Job) (o : OkFail) :
    (s.jobWorked b j o).pending = s.pending := by
  unfold State.jobWorked
  dsimp only
  repeat' split
  all_goals first | rfl | simp

/-- A job that completes in a drain leaves what it leaves otherwise, but for the records that fail their CRC
(R128). -/
theorem State.drainWorked_eq (s : State) (b : Bank) (j : Job) (o : OkFail) :
    ∃ torn, s.drainWorked b j o = { s.jobWorked b j o with torn := torn } := by
  unfold State.drainWorked
  split
  · exact ⟨_, rfl⟩
  · exact ⟨_, rfl⟩

/-- What a job leaves in a drain keeps the canonical form. -/
theorem State.drainWorked_canonical {s : State} (b : Bank) (j : Job) (o : OkFail) (h : s.ArrayCanonical) :
    (s.drainWorked b j o).ArrayCanonical := by
  obtain ⟨torn, e⟩ := s.drainWorked_eq b j o
  rw [e]
  exact State.jobWorked_canonical b j o h

/-- A job cut short leaves the cells as they stand: only their readings are open (R127). -/
theorem State.jobCut_cells (s : State) (b : Bank) (j : Job) : (s.jobCut b j).cells = s.cells := by
  unfold State.jobCut
  dsimp only
  repeat' split
  all_goals rfl

/-- A job cut short leaves the part alone. -/
theorem State.jobCut_toDevice (s : State) (b : Bank) (j : Job) : (s.jobCut b j).toDevice = s.toDevice := by
  unfold State.jobCut
  dsimp only
  repeat' split
  all_goals rfl

/-- A loss of power leaves the cells as they stand. -/
theorem State.cutJobs_cells (s : State) : s.cutJobs.cells = s.cells := by
  have step : ∀ (bs : List Bank) (s : State),
      (bs.foldl (fun s b => match s.engines[b].current with | none => s | some j => s.jobCut b j) s).cells = s.cells := by
    intro bs
    induction bs with
    | nil => intro s; rfl
    | cons b bs ih =>
      intro s
      rw [List.foldl_cons, ih]
      split
      · rfl
      · exact State.jobCut_cells _ _ _
  exact step _ _

/-- The array the machine starts with is canonical. -/
theorem State.reset_canonical : State.reset.ArrayCanonical := rfl

end Sys2Proof.Machine
end

