-- ==== Sys2Proof/Laws/State.lean ====
section
/-!
SUPPORT. What each named update of the device leaves unchanged, field by field: one lemma per update and field, each
true by the definition of the update.
-/

namespace Sys2Proof.Machine

/-! ### setPort -/

@[simp] theorem Device.setPort_power (d : Device) (p : Port) (x : PortState) :
    (d.setPort p x).power = d.power := by cases p <;> rfl
@[simp] theorem Device.setPort_resetLow (d : Device) (p : Port) (x : PortState) :
    (d.setPort p x).resetLow = d.resetLow := by cases p <;> rfl
@[simp] theorem Device.setPort_straps (d : Device) (p : Port) (x : PortState) :
    (d.setPort p x).straps = d.straps := by cases p <;> rfl
@[simp] theorem Device.setPort_serviceAddress (d : Device) (p : Port) (x : PortState) :
    (d.setPort p x).serviceAddress = d.serviceAddress := by cases p <;> rfl
@[simp] theorem Device.setPort_phase (d : Device) (p : Port) (x : PortState) :
    (d.setPort p x).phase = d.phase := by cases p <;> rfl
@[simp] theorem Device.setPort_turn (d : Device) (p : Port) (x : PortState) :
    (d.setPort p x).turn = d.turn := by cases p <;> rfl
@[simp] theorem Device.setPort_flights (d : Device) (p : Port) (x : PortState) :
    (d.setPort p x).flights = d.flights := by cases p <;> rfl
@[simp] theorem Device.setPort_dir (d : Device) (p : Port) (x : PortState) :
    (d.setPort p x).dir = d.dir := by cases p <;> rfl
@[simp] theorem Device.setPort_slots (d : Device) (p : Port) (x : PortState) :
    (d.setPort p x).slots = d.slots := by cases p <;> rfl
@[simp] theorem Device.setPort_locks (d : Device) (p : Port) (x : PortState) :
    (d.setPort p x).locks = d.locks := by cases p <;> rfl
@[simp] theorem Device.setPort_retireCounter (d : Device) (p : Port) (x : PortState) :
    (d.setPort p x).retireCounter = d.retireCounter := by cases p <;> rfl
@[simp] theorem Device.setPort_settings (d : Device) (p : Port) (x : PortState) :
    (d.setPort p x).settings = d.settings := by cases p <;> rfl
@[simp] theorem Device.setPort_layout (d : Device) (p : Port) (x : PortState) :
    (d.setPort p x).layout = d.layout := by cases p <;> rfl
@[simp] theorem Device.setPort_identity (d : Device) (p : Port) (x : PortState) :
    (d.setPort p x).identity = d.identity := by cases p <;> rfl
@[simp] theorem Device.setPort_pool (d : Device) (p : Port) (x : PortState) :
    (d.setPort p x).pool = d.pool := by cases p <;> rfl
@[simp] theorem Device.setPort_engines (d : Device) (p : Port) (x : PortState) :
    (d.setPort p x).engines = d.engines := by cases p <;> rfl
@[simp] theorem Device.setPort_maint (d : Device) (p : Port) (x : PortState) :
    (d.setPort p x).maint = d.maint := by cases p <;> rfl
@[simp] theorem Device.setPort_purge (d : Device) (p : Port) (x : PortState) :
    (d.setPort p x).purge = d.purge := by cases p <;> rfl
@[simp] theorem Device.setPort_scan (d : Device) (p : Port) (x : PortState) :
    (d.setPort p x).scan = d.scan := by cases p <;> rfl

/-! ### post -/

@[simp] theorem Device.post_power (d : Device) (p : Port) (n : Notices) :
    (d.post p n).power = d.power := by cases p <;> rfl
@[simp] theorem Device.post_resetLow (d : Device) (p : Port) (n : Notices) :
    (d.post p n).resetLow = d.resetLow := by cases p <;> rfl
@[simp] theorem Device.post_straps (d : Device) (p : Port) (n : Notices) :
    (d.post p n).straps = d.straps := by cases p <;> rfl
@[simp] theorem Device.post_serviceAddress (d : Device) (p : Port) (n : Notices) :
    (d.post p n).serviceAddress = d.serviceAddress := by cases p <;> rfl
@[simp] theorem Device.post_phase (d : Device) (p : Port) (n : Notices) :
    (d.post p n).phase = d.phase := by cases p <;> rfl
@[simp] theorem Device.post_turn (d : Device) (p : Port) (n : Notices) :
    (d.post p n).turn = d.turn := by cases p <;> rfl
@[simp] theorem Device.post_flights (d : Device) (p : Port) (n : Notices) :
    (d.post p n).flights = d.flights := by cases p <;> rfl
@[simp] theorem Device.post_dir (d : Device) (p : Port) (n : Notices) : (d.post p n).dir = d.dir := by cases p <;> rfl
@[simp] theorem Device.post_slots (d : Device) (p : Port) (n : Notices) :
    (d.post p n).slots = d.slots := by cases p <;> rfl
@[simp] theorem Device.post_locks (d : Device) (p : Port) (n : Notices) :
    (d.post p n).locks = d.locks := by cases p <;> rfl
@[simp] theorem Device.post_retireCounter (d : Device) (p : Port) (n : Notices) :
    (d.post p n).retireCounter = d.retireCounter := by cases p <;> rfl
@[simp] theorem Device.post_settings (d : Device) (p : Port) (n : Notices) :
    (d.post p n).settings = d.settings := by cases p <;> rfl
@[simp] theorem Device.post_layout (d : Device) (p : Port) (n : Notices) :
    (d.post p n).layout = d.layout := by cases p <;> rfl
@[simp] theorem Device.post_identity (d : Device) (p : Port) (n : Notices) :
    (d.post p n).identity = d.identity := by cases p <;> rfl
@[simp] theorem Device.post_pool (d : Device) (p : Port) (n : Notices) :
    (d.post p n).pool = d.pool := by cases p <;> rfl
@[simp] theorem Device.post_engines (d : Device) (p : Port) (n : Notices) :
    (d.post p n).engines = d.engines := by cases p <;> rfl
@[simp] theorem Device.post_maint (d : Device) (p : Port) (n : Notices) :
    (d.post p n).maint = d.maint := by cases p <;> rfl
@[simp] theorem Device.post_purge (d : Device) (p : Port) (n : Notices) :
    (d.post p n).purge = d.purge := by cases p <;> rfl
@[simp] theorem Device.post_scan (d : Device) (p : Port) (n : Notices) :
    (d.post p n).scan = d.scan := by cases p <;> rfl

/-! ### postBoth -/

@[simp] theorem Device.postBoth_power (d : Device) (n : Notices) : (d.postBoth n).power = d.power := rfl
@[simp] theorem Device.postBoth_resetLow (d : Device) (n : Notices) : (d.postBoth n).resetLow = d.resetLow := rfl
@[simp] theorem Device.postBoth_straps (d : Device) (n : Notices) : (d.postBoth n).straps = d.straps := rfl
@[simp] theorem Device.postBoth_serviceAddress (d : Device) (n : Notices) :
    (d.postBoth n).serviceAddress = d.serviceAddress := rfl
@[simp] theorem Device.postBoth_phase (d : Device) (n : Notices) : (d.postBoth n).phase = d.phase := rfl
@[simp] theorem Device.postBoth_turn (d : Device) (n : Notices) : (d.postBoth n).turn = d.turn := rfl
@[simp] theorem Device.postBoth_flights (d : Device) (n : Notices) : (d.postBoth n).flights = d.flights := rfl
@[simp] theorem Device.postBoth_dir (d : Device) (n : Notices) : (d.postBoth n).dir = d.dir := rfl
@[simp] theorem Device.postBoth_slots (d : Device) (n : Notices) : (d.postBoth n).slots = d.slots := rfl
@[simp] theorem Device.postBoth_locks (d : Device) (n : Notices) : (d.postBoth n).locks = d.locks := rfl
@[simp] theorem Device.postBoth_retireCounter (d : Device) (n : Notices) :
    (d.postBoth n).retireCounter = d.retireCounter := rfl
@[simp] theorem Device.postBoth_settings (d : Device) (n : Notices) : (d.postBoth n).settings = d.settings := rfl
@[simp] theorem Device.postBoth_layout (d : Device) (n : Notices) : (d.postBoth n).layout = d.layout := rfl
@[simp] theorem Device.postBoth_identity (d : Device) (n : Notices) : (d.postBoth n).identity = d.identity := rfl
@[simp] theorem Device.postBoth_pool (d : Device) (n : Notices) : (d.postBoth n).pool = d.pool := rfl
@[simp] theorem Device.postBoth_engines (d : Device) (n : Notices) : (d.postBoth n).engines = d.engines := rfl
@[simp] theorem Device.postBoth_maint (d : Device) (n : Notices) : (d.postBoth n).maint = d.maint := rfl
@[simp] theorem Device.postBoth_purge (d : Device) (n : Notices) : (d.postBoth n).purge = d.purge := rfl
@[simp] theorem Device.postBoth_scan (d : Device) (n : Notices) : (d.postBoth n).scan = d.scan := rfl

/-! ### setWork -/

@[simp] theorem Device.setWork_power (d : Device) (id : Nat) (w : Work) : (d.setWork id w).power = d.power := rfl
@[simp] theorem Device.setWork_resetLow (d : Device) (id : Nat) (w : Work) :
    (d.setWork id w).resetLow = d.resetLow := rfl
@[simp] theorem Device.setWork_straps (d : Device) (id : Nat) (w : Work) : (d.setWork id w).straps = d.straps := rfl
@[simp] theorem Device.setWork_serviceAddress (d : Device) (id : Nat) (w : Work) :
    (d.setWork id w).serviceAddress = d.serviceAddress := rfl
@[simp] theorem Device.setWork_phase (d : Device) (id : Nat) (w : Work) : (d.setWork id w).phase = d.phase := rfl
@[simp] theorem Device.setWork_primary (d : Device) (id : Nat) (w : Work) : (d.setWork id w).primary = d.primary := rfl
@[simp] theorem Device.setWork_service (d : Device) (id : Nat) (w : Work) : (d.setWork id w).service = d.service := rfl
@[simp] theorem Device.setWork_turn (d : Device) (id : Nat) (w : Work) : (d.setWork id w).turn = d.turn := rfl
@[simp] theorem Device.setWork_dir (d : Device) (id : Nat) (w : Work) : (d.setWork id w).dir = d.dir := rfl
@[simp] theorem Device.setWork_slots (d : Device) (id : Nat) (w : Work) : (d.setWork id w).slots = d.slots := rfl
@[simp] theorem Device.setWork_locks (d : Device) (id : Nat) (w : Work) : (d.setWork id w).locks = d.locks := rfl
@[simp] theorem Device.setWork_retireCounter (d : Device) (id : Nat) (w : Work) :
    (d.setWork id w).retireCounter = d.retireCounter := rfl
@[simp] theorem Device.setWork_settings (d : Device) (id : Nat) (w : Work) :
    (d.setWork id w).settings = d.settings := rfl
@[simp] theorem Device.setWork_layout (d : Device) (id : Nat) (w : Work) : (d.setWork id w).layout = d.layout := rfl
@[simp] theorem Device.setWork_identity (d : Device) (id : Nat) (w : Work) :
    (d.setWork id w).identity = d.identity := rfl
@[simp] theorem Device.setWork_pool (d : Device) (id : Nat) (w : Work) : (d.setWork id w).pool = d.pool := rfl
@[simp] theorem Device.setWork_engines (d : Device) (id : Nat) (w : Work) : (d.setWork id w).engines = d.engines := rfl
@[simp] theorem Device.setWork_maint (d : Device) (id : Nat) (w : Work) : (d.setWork id w).maint = d.maint := rfl
@[simp] theorem Device.setWork_purge (d : Device) (id : Nat) (w : Work) : (d.setWork id w).purge = d.purge := rfl
@[simp] theorem Device.setWork_scan (d : Device) (id : Nat) (w : Work) : (d.setWork id w).scan = d.scan := rfl

/-! ### insertRecord -/

@[simp] theorem Device.insertRecord_power (d : Device) (e : Entry) : (d.insertRecord e).power = d.power := rfl
@[simp] theorem Device.insertRecord_resetLow (d : Device) (e : Entry) : (d.insertRecord e).resetLow = d.resetLow := rfl
@[simp] theorem Device.insertRecord_straps (d : Device) (e : Entry) : (d.insertRecord e).straps = d.straps := rfl
@[simp] theorem Device.insertRecord_serviceAddress (d : Device) (e : Entry) :
    (d.insertRecord e).serviceAddress = d.serviceAddress := rfl
@[simp] theorem Device.insertRecord_phase (d : Device) (e : Entry) : (d.insertRecord e).phase = d.phase := rfl
@[simp] theorem Device.insertRecord_primary (d : Device) (e : Entry) : (d.insertRecord e).primary = d.primary := rfl
@[simp] theorem Device.insertRecord_service (d : Device) (e : Entry) : (d.insertRecord e).service = d.service := rfl
@[simp] theorem Device.insertRecord_turn (d : Device) (e : Entry) : (d.insertRecord e).turn = d.turn := rfl
@[simp] theorem Device.insertRecord_flights (d : Device) (e : Entry) : (d.insertRecord e).flights = d.flights := rfl
@[simp] theorem Device.insertRecord_slots (d : Device) (e : Entry) : (d.insertRecord e).slots = d.slots := rfl
@[simp] theorem Device.insertRecord_locks (d : Device) (e : Entry) : (d.insertRecord e).locks = d.locks := rfl
@[simp] theorem Device.insertRecord_retireCounter (d : Device) (e : Entry) :
    (d.insertRecord e).retireCounter = d.retireCounter := rfl
@[simp] theorem Device.insertRecord_settings (d : Device) (e : Entry) : (d.insertRecord e).settings = d.settings := rfl
@[simp] theorem Device.insertRecord_layout (d : Device) (e : Entry) : (d.insertRecord e).layout = d.layout := rfl
@[simp] theorem Device.insertRecord_identity (d : Device) (e : Entry) : (d.insertRecord e).identity = d.identity := rfl
@[simp] theorem Device.insertRecord_pool (d : Device) (e : Entry) : (d.insertRecord e).pool = d.pool := rfl
@[simp] theorem Device.insertRecord_engines (d : Device) (e : Entry) : (d.insertRecord e).engines = d.engines := rfl
@[simp] theorem Device.insertRecord_maint (d : Device) (e : Entry) : (d.insertRecord e).maint = d.maint := rfl
@[simp] theorem Device.insertRecord_purge (d : Device) (e : Entry) : (d.insertRecord e).purge = d.purge := rfl
@[simp] theorem Device.insertRecord_scan (d : Device) (e : Entry) : (d.insertRecord e).scan = d.scan := rfl

/-! ### removeRecord -/

@[simp] theorem Device.removeRecord_power (d : Device) (r : RecordName) : (d.removeRecord r).power = d.power := rfl
@[simp] theorem Device.removeRecord_resetLow (d : Device) (r : RecordName) :
    (d.removeRecord r).resetLow = d.resetLow := rfl
@[simp] theorem Device.removeRecord_straps (d : Device) (r : RecordName) : (d.removeRecord r).straps = d.straps := rfl
@[simp] theorem Device.removeRecord_serviceAddress (d : Device) (r : RecordName) :
    (d.removeRecord r).serviceAddress = d.serviceAddress := rfl
@[simp] theorem Device.removeRecord_phase (d : Device) (r : RecordName) : (d.removeRecord r).phase = d.phase := rfl
@[simp] theorem Device.removeRecord_primary (d : Device) (r : RecordName) :
    (d.removeRecord r).primary = d.primary := rfl
@[simp] theorem Device.removeRecord_service (d : Device) (r : RecordName) :
    (d.removeRecord r).service = d.service := rfl
@[simp] theorem Device.removeRecord_turn (d : Device) (r : RecordName) : (d.removeRecord r).turn = d.turn := rfl
@[simp] theorem Device.removeRecord_flights (d : Device) (r : RecordName) :
    (d.removeRecord r).flights = d.flights := rfl
@[simp] theorem Device.removeRecord_slots (d : Device) (r : RecordName) : (d.removeRecord r).slots = d.slots := rfl
@[simp] theorem Device.removeRecord_locks (d : Device) (r : RecordName) : (d.removeRecord r).locks = d.locks := rfl
@[simp] theorem Device.removeRecord_retireCounter (d : Device) (r : RecordName) :
    (d.removeRecord r).retireCounter = d.retireCounter := rfl
@[simp] theorem Device.removeRecord_settings (d : Device) (r : RecordName) :
    (d.removeRecord r).settings = d.settings := rfl
@[simp] theorem Device.removeRecord_layout (d : Device) (r : RecordName) : (d.removeRecord r).layout = d.layout := rfl
@[simp] theorem Device.removeRecord_identity (d : Device) (r : RecordName) :
    (d.removeRecord r).identity = d.identity := rfl
@[simp] theorem Device.removeRecord_engines (d : Device) (r : RecordName) :
    (d.removeRecord r).engines = d.engines := rfl
@[simp] theorem Device.removeRecord_purge (d : Device) (r : RecordName) : (d.removeRecord r).purge = d.purge := rfl
@[simp] theorem Device.removeRecord_scan (d : Device) (r : RecordName) : (d.removeRecord r).scan = d.scan := rfl

/-! ### modEntry -/

@[simp] theorem Device.modEntry_power (d : Device) (r : RecordName) (f : Entry → Entry) :
    (d.modEntry r f).power = d.power := rfl
@[simp] theorem Device.modEntry_resetLow (d : Device) (r : RecordName) (f : Entry → Entry) :
    (d.modEntry r f).resetLow = d.resetLow := rfl
@[simp] theorem Device.modEntry_straps (d : Device) (r : RecordName) (f : Entry → Entry) :
    (d.modEntry r f).straps = d.straps := rfl
@[simp] theorem Device.modEntry_serviceAddress (d : Device) (r : RecordName) (f : Entry → Entry) :
    (d.modEntry r f).serviceAddress = d.serviceAddress := rfl
@[simp] theorem Device.modEntry_phase (d : Device) (r : RecordName) (f : Entry → Entry) :
    (d.modEntry r f).phase = d.phase := rfl
@[simp] theorem Device.modEntry_primary (d : Device) (r : RecordName) (f : Entry → Entry) :
    (d.modEntry r f).primary = d.primary := rfl
@[simp] theorem Device.modEntry_service (d : Device) (r : RecordName) (f : Entry → Entry) :
    (d.modEntry r f).service = d.service := rfl
@[simp] theorem Device.modEntry_turn (d : Device) (r : RecordName) (f : Entry → Entry) :
    (d.modEntry r f).turn = d.turn := rfl
@[simp] theorem Device.modEntry_flights (d : Device) (r : RecordName) (f : Entry → Entry) :
    (d.modEntry r f).flights = d.flights := rfl
@[simp] theorem Device.modEntry_slots (d : Device) (r : RecordName) (f : Entry → Entry) :
    (d.modEntry r f).slots = d.slots := rfl
@[simp] theorem Device.modEntry_locks (d : Device) (r : RecordName) (f : Entry → Entry) :
    (d.modEntry r f).locks = d.locks := rfl
@[simp] theorem Device.modEntry_retireCounter (d : Device) (r : RecordName) (f : Entry → Entry) :
    (d.modEntry r f).retireCounter = d.retireCounter := rfl
@[simp] theorem Device.modEntry_settings (d : Device) (r : RecordName) (f : Entry → Entry) :
    (d.modEntry r f).settings = d.settings := rfl
@[simp] theorem Device.modEntry_layout (d : Device) (r : RecordName) (f : Entry → Entry) :
    (d.modEntry r f).layout = d.layout := rfl
@[simp] theorem Device.modEntry_identity (d : Device) (r : RecordName) (f : Entry → Entry) :
    (d.modEntry r f).identity = d.identity := rfl
@[simp] theorem Device.modEntry_pool (d : Device) (r : RecordName) (f : Entry → Entry) :
    (d.modEntry r f).pool = d.pool := rfl
@[simp] theorem Device.modEntry_engines (d : Device) (r : RecordName) (f : Entry → Entry) :
    (d.modEntry r f).engines = d.engines := rfl
@[simp] theorem Device.modEntry_maint (d : Device) (r : RecordName) (f : Entry → Entry) :
    (d.modEntry r f).maint = d.maint := rfl
@[simp] theorem Device.modEntry_purge (d : Device) (r : RecordName) (f : Entry → Entry) :
    (d.modEntry r f).purge = d.purge := rfl
@[simp] theorem Device.modEntry_scan (d : Device) (r : RecordName) (f : Entry → Entry) :
    (d.modEntry r f).scan = d.scan := rfl

/-! ### joinRefresh -/

@[simp] theorem Device.joinRefresh_power (d : Device) (r : RecordName) : (d.joinRefresh r).power = d.power := rfl
@[simp] theorem Device.joinRefresh_resetLow (d : Device) (r : RecordName) :
    (d.joinRefresh r).resetLow = d.resetLow := rfl
@[simp] theorem Device.joinRefresh_straps (d : Device) (r : RecordName) : (d.joinRefresh r).straps = d.straps := rfl
@[simp] theorem Device.joinRefresh_serviceAddress (d : Device) (r : RecordName) :
    (d.joinRefresh r).serviceAddress = d.serviceAddress := rfl
@[simp] theorem Device.joinRefresh_phase (d : Device) (r : RecordName) : (d.joinRefresh r).phase = d.phase := rfl
@[simp] theorem Device.joinRefresh_primary (d : Device) (r : RecordName) : (d.joinRefresh r).primary = d.primary := rfl
@[simp] theorem Device.joinRefresh_service (d : Device) (r : RecordName) : (d.joinRefresh r).service = d.service := rfl
@[simp] theorem Device.joinRefresh_turn (d : Device) (r : RecordName) : (d.joinRefresh r).turn = d.turn := rfl
@[simp] theorem Device.joinRefresh_flights (d : Device) (r : RecordName) : (d.joinRefresh r).flights = d.flights := rfl
@[simp] theorem Device.joinRefresh_dir (d : Device) (r : RecordName) : (d.joinRefresh r).dir = d.dir := rfl
@[simp] theorem Device.joinRefresh_slots (d : Device) (r : RecordName) : (d.joinRefresh r).slots = d.slots := rfl
@[simp] theorem Device.joinRefresh_locks (d : Device) (r : RecordName) : (d.joinRefresh r).locks = d.locks := rfl
@[simp] theorem Device.joinRefresh_retireCounter (d : Device) (r : RecordName) :
    (d.joinRefresh r).retireCounter = d.retireCounter := rfl
@[simp] theorem Device.joinRefresh_settings (d : Device) (r : RecordName) :
    (d.joinRefresh r).settings = d.settings := rfl
@[simp] theorem Device.joinRefresh_layout (d : Device) (r : RecordName) : (d.joinRefresh r).layout = d.layout := rfl
@[simp] theorem Device.joinRefresh_identity (d : Device) (r : RecordName) :
    (d.joinRefresh r).identity = d.identity := rfl
@[simp] theorem Device.joinRefresh_engines (d : Device) (r : RecordName) : (d.joinRefresh r).engines = d.engines := rfl
@[simp] theorem Device.joinRefresh_maint (d : Device) (r : RecordName) : (d.joinRefresh r).maint = d.maint := rfl
@[simp] theorem Device.joinRefresh_purge (d : Device) (r : RecordName) : (d.joinRefresh r).purge = d.purge := rfl
@[simp] theorem Device.joinRefresh_scan (d : Device) (r : RecordName) : (d.joinRefresh r).scan = d.scan := rfl

/-! ### leaveRefresh -/

@[simp] theorem Device.leaveRefresh_power (d : Device) (r : RecordName) :
    (d.leaveRefresh r).power = d.power := by unfold Device.leaveRefresh; split <;> rfl
@[simp] theorem Device.leaveRefresh_resetLow (d : Device) (r : RecordName) :
    (d.leaveRefresh r).resetLow = d.resetLow := by unfold Device.leaveRefresh; split <;> rfl
@[simp] theorem Device.leaveRefresh_straps (d : Device) (r : RecordName) :
    (d.leaveRefresh r).straps = d.straps := by unfold Device.leaveRefresh; split <;> rfl
@[simp] theorem Device.leaveRefresh_serviceAddress (d : Device) (r : RecordName) :
    (d.leaveRefresh r).serviceAddress = d.serviceAddress := by unfold Device.leaveRefresh; split <;> rfl
@[simp] theorem Device.leaveRefresh_phase (d : Device) (r : RecordName) :
    (d.leaveRefresh r).phase = d.phase := by unfold Device.leaveRefresh; split <;> rfl
@[simp] theorem Device.leaveRefresh_primary (d : Device) (r : RecordName) :
    (d.leaveRefresh r).primary = d.primary := by unfold Device.leaveRefresh; split <;> rfl
@[simp] theorem Device.leaveRefresh_service (d : Device) (r : RecordName) :
    (d.leaveRefresh r).service = d.service := by unfold Device.leaveRefresh; split <;> rfl
@[simp] theorem Device.leaveRefresh_turn (d : Device) (r : RecordName) :
    (d.leaveRefresh r).turn = d.turn := by unfold Device.leaveRefresh; split <;> rfl
@[simp] theorem Device.leaveRefresh_flights (d : Device) (r : RecordName) :
    (d.leaveRefresh r).flights = d.flights := by unfold Device.leaveRefresh; split <;> rfl
@[simp] theorem Device.leaveRefresh_dir (d : Device) (r : RecordName) :
    (d.leaveRefresh r).dir = d.dir := by unfold Device.leaveRefresh; split <;> rfl
@[simp] theorem Device.leaveRefresh_slots (d : Device) (r : RecordName) :
    (d.leaveRefresh r).slots = d.slots := by unfold Device.leaveRefresh; split <;> rfl
@[simp] theorem Device.leaveRefresh_locks (d : Device) (r : RecordName) :
    (d.leaveRefresh r).locks = d.locks := by unfold Device.leaveRefresh; split <;> rfl
@[simp] theorem Device.leaveRefresh_retireCounter (d : Device) (r : RecordName) :
    (d.leaveRefresh r).retireCounter = d.retireCounter := by unfold Device.leaveRefresh; split <;> rfl
@[simp] theorem Device.leaveRefresh_settings (d : Device) (r : RecordName) :
    (d.leaveRefresh r).settings = d.settings := by unfold Device.leaveRefresh; split <;> rfl
@[simp] theorem Device.leaveRefresh_layout (d : Device) (r : RecordName) :
    (d.leaveRefresh r).layout = d.layout := by unfold Device.leaveRefresh; split <;> rfl
@[simp] theorem Device.leaveRefresh_identity (d : Device) (r : RecordName) :
    (d.leaveRefresh r).identity = d.identity := by unfold Device.leaveRefresh; split <;> rfl
@[simp] theorem Device.leaveRefresh_engines (d : Device) (r : RecordName) :
    (d.leaveRefresh r).engines = d.engines := by unfold Device.leaveRefresh; split <;> rfl
@[simp] theorem Device.leaveRefresh_purge (d : Device) (r : RecordName) :
    (d.leaveRefresh r).purge = d.purge := by unfold Device.leaveRefresh; split <;> rfl
@[simp] theorem Device.leaveRefresh_scan (d : Device) (r : RecordName) :
    (d.leaveRefresh r).scan = d.scan := by unfold Device.leaveRefresh; split <;> rfl

/-! ### loseMirrorZero -/

@[simp] theorem Device.loseMirrorZero_power (d : Device) (r : RecordName) : (d.loseMirrorZero r).power = d.power := rfl
@[simp] theorem Device.loseMirrorZero_resetLow (d : Device) (r : RecordName) :
    (d.loseMirrorZero r).resetLow = d.resetLow := rfl
@[simp] theorem Device.loseMirrorZero_straps (d : Device) (r : RecordName) :
    (d.loseMirrorZero r).straps = d.straps := rfl
@[simp] theorem Device.loseMirrorZero_serviceAddress (d : Device) (r : RecordName) :
    (d.loseMirrorZero r).serviceAddress = d.serviceAddress := rfl
@[simp] theorem Device.loseMirrorZero_phase (d : Device) (r : RecordName) : (d.loseMirrorZero r).phase = d.phase := rfl
@[simp] theorem Device.loseMirrorZero_primary (d : Device) (r : RecordName) :
    (d.loseMirrorZero r).primary = d.primary := rfl
@[simp] theorem Device.loseMirrorZero_service (d : Device) (r : RecordName) :
    (d.loseMirrorZero r).service = d.service := rfl
@[simp] theorem Device.loseMirrorZero_turn (d : Device) (r : RecordName) : (d.loseMirrorZero r).turn = d.turn := rfl
@[simp] theorem Device.loseMirrorZero_flights (d : Device) (r : RecordName) :
    (d.loseMirrorZero r).flights = d.flights := rfl
@[simp] theorem Device.loseMirrorZero_slots (d : Device) (r : RecordName) : (d.loseMirrorZero r).slots = d.slots := rfl
@[simp] theorem Device.loseMirrorZero_locks (d : Device) (r : RecordName) : (d.loseMirrorZero r).locks = d.locks := rfl
@[simp] theorem Device.loseMirrorZero_retireCounter (d : Device) (r : RecordName) :
    (d.loseMirrorZero r).retireCounter = d.retireCounter := rfl
@[simp] theorem Device.loseMirrorZero_settings (d : Device) (r : RecordName) :
    (d.loseMirrorZero r).settings = d.settings := rfl
@[simp] theorem Device.loseMirrorZero_layout (d : Device) (r : RecordName) :
    (d.loseMirrorZero r).layout = d.layout := rfl
@[simp] theorem Device.loseMirrorZero_identity (d : Device) (r : RecordName) :
    (d.loseMirrorZero r).identity = d.identity := rfl
@[simp] theorem Device.loseMirrorZero_engines (d : Device) (r : RecordName) :
    (d.loseMirrorZero r).engines = d.engines := rfl
@[simp] theorem Device.loseMirrorZero_maint (d : Device) (r : RecordName) : (d.loseMirrorZero r).maint = d.maint := rfl
@[simp] theorem Device.loseMirrorZero_purge (d : Device) (r : RecordName) : (d.loseMirrorZero r).purge = d.purge := rfl
@[simp] theorem Device.loseMirrorZero_scan (d : Device) (r : RecordName) : (d.loseMirrorZero r).scan = d.scan := rfl

/-! ### setCtx -/

@[simp] theorem Device.setCtx_power (d : Device) (i : SlotIndex) (c : Ctx) : (d.setCtx i c).power = d.power := rfl
@[simp] theorem Device.setCtx_resetLow (d : Device) (i : SlotIndex) (c : Ctx) :
    (d.setCtx i c).resetLow = d.resetLow := rfl
@[simp] theorem Device.setCtx_straps (d : Device) (i : SlotIndex) (c : Ctx) : (d.setCtx i c).straps = d.straps := rfl
@[simp] theorem Device.setCtx_serviceAddress (d : Device) (i : SlotIndex) (c : Ctx) :
    (d.setCtx i c).serviceAddress = d.serviceAddress := rfl
@[simp] theorem Device.setCtx_phase (d : Device) (i : SlotIndex) (c : Ctx) : (d.setCtx i c).phase = d.phase := rfl
@[simp] theorem Device.setCtx_primary (d : Device) (i : SlotIndex) (c : Ctx) : (d.setCtx i c).primary = d.primary := rfl
@[simp] theorem Device.setCtx_service (d : Device) (i : SlotIndex) (c : Ctx) : (d.setCtx i c).service = d.service := rfl
@[simp] theorem Device.setCtx_turn (d : Device) (i : SlotIndex) (c : Ctx) : (d.setCtx i c).turn = d.turn := rfl
@[simp] theorem Device.setCtx_flights (d : Device) (i : SlotIndex) (c : Ctx) : (d.setCtx i c).flights = d.flights := rfl
@[simp] theorem Device.setCtx_dir (d : Device) (i : SlotIndex) (c : Ctx) : (d.setCtx i c).dir = d.dir := rfl
@[simp] theorem Device.setCtx_locks (d : Device) (i : SlotIndex) (c : Ctx) : (d.setCtx i c).locks = d.locks := rfl
@[simp] theorem Device.setCtx_retireCounter (d : Device) (i : SlotIndex) (c : Ctx) :
    (d.setCtx i c).retireCounter = d.retireCounter := rfl
@[simp] theorem Device.setCtx_settings (d : Device) (i : SlotIndex) (c : Ctx) :
    (d.setCtx i c).settings = d.settings := rfl
@[simp] theorem Device.setCtx_layout (d : Device) (i : SlotIndex) (c : Ctx) : (d.setCtx i c).layout = d.layout := rfl
@[simp] theorem Device.setCtx_identity (d : Device) (i : SlotIndex) (c : Ctx) :
    (d.setCtx i c).identity = d.identity := rfl
@[simp] theorem Device.setCtx_pool (d : Device) (i : SlotIndex) (c : Ctx) : (d.setCtx i c).pool = d.pool := rfl
@[simp] theorem Device.setCtx_engines (d : Device) (i : SlotIndex) (c : Ctx) : (d.setCtx i c).engines = d.engines := rfl
@[simp] theorem Device.setCtx_maint (d : Device) (i : SlotIndex) (c : Ctx) : (d.setCtx i c).maint = d.maint := rfl
@[simp] theorem Device.setCtx_purge (d : Device) (i : SlotIndex) (c : Ctx) : (d.setCtx i c).purge = d.purge := rfl
@[simp] theorem Device.setCtx_scan (d : Device) (i : SlotIndex) (c : Ctx) : (d.setCtx i c).scan = d.scan := rfl

/-! ### freeSlot -/

@[simp] theorem Device.freeSlot_power (d : Device) (i : SlotIndex) : (d.freeSlot i).power = d.power := rfl
@[simp] theorem Device.freeSlot_resetLow (d : Device) (i : SlotIndex) : (d.freeSlot i).resetLow = d.resetLow := rfl
@[simp] theorem Device.freeSlot_straps (d : Device) (i : SlotIndex) : (d.freeSlot i).straps = d.straps := rfl
@[simp] theorem Device.freeSlot_serviceAddress (d : Device) (i : SlotIndex) :
    (d.freeSlot i).serviceAddress = d.serviceAddress := rfl
@[simp] theorem Device.freeSlot_phase (d : Device) (i : SlotIndex) : (d.freeSlot i).phase = d.phase := rfl
@[simp] theorem Device.freeSlot_primary (d : Device) (i : SlotIndex) : (d.freeSlot i).primary = d.primary := rfl
@[simp] theorem Device.freeSlot_service (d : Device) (i : SlotIndex) : (d.freeSlot i).service = d.service := rfl
@[simp] theorem Device.freeSlot_turn (d : Device) (i : SlotIndex) : (d.freeSlot i).turn = d.turn := rfl
@[simp] theorem Device.freeSlot_flights (d : Device) (i : SlotIndex) : (d.freeSlot i).flights = d.flights := rfl
@[simp] theorem Device.freeSlot_dir (d : Device) (i : SlotIndex) : (d.freeSlot i).dir = d.dir := rfl
@[simp] theorem Device.freeSlot_locks (d : Device) (i : SlotIndex) : (d.freeSlot i).locks = d.locks := rfl
@[simp] theorem Device.freeSlot_retireCounter (d : Device) (i : SlotIndex) :
    (d.freeSlot i).retireCounter = d.retireCounter := rfl
@[simp] theorem Device.freeSlot_settings (d : Device) (i : SlotIndex) : (d.freeSlot i).settings = d.settings := rfl
@[simp] theorem Device.freeSlot_layout (d : Device) (i : SlotIndex) : (d.freeSlot i).layout = d.layout := rfl
@[simp] theorem Device.freeSlot_identity (d : Device) (i : SlotIndex) : (d.freeSlot i).identity = d.identity := rfl
@[simp] theorem Device.freeSlot_pool (d : Device) (i : SlotIndex) : (d.freeSlot i).pool = d.pool := rfl
@[simp] theorem Device.freeSlot_engines (d : Device) (i : SlotIndex) : (d.freeSlot i).engines = d.engines := rfl
@[simp] theorem Device.freeSlot_maint (d : Device) (i : SlotIndex) : (d.freeSlot i).maint = d.maint := rfl
@[simp] theorem Device.freeSlot_purge (d : Device) (i : SlotIndex) : (d.freeSlot i).purge = d.purge := rfl
@[simp] theorem Device.freeSlot_scan (d : Device) (i : SlotIndex) : (d.freeSlot i).scan = d.scan := rfl

/-! ### modBlock -/

@[simp] theorem Device.modBlock_power (d : Device) (a : BlockAddr) (f : BlockEntry → BlockEntry) :
    (d.modBlock a f).power = d.power := rfl
@[simp] theorem Device.modBlock_resetLow (d : Device) (a : BlockAddr) (f : BlockEntry → BlockEntry) :
    (d.modBlock a f).resetLow = d.resetLow := rfl
@[simp] theorem Device.modBlock_straps (d : Device) (a : BlockAddr) (f : BlockEntry → BlockEntry) :
    (d.modBlock a f).straps = d.straps := rfl
@[simp] theorem Device.modBlock_serviceAddress (d : Device) (a : BlockAddr) (f : BlockEntry → BlockEntry) :
    (d.modBlock a f).serviceAddress = d.serviceAddress := rfl
@[simp] theorem Device.modBlock_phase (d : Device) (a : BlockAddr) (f : BlockEntry → BlockEntry) :
    (d.modBlock a f).phase = d.phase := rfl
@[simp] theorem Device.modBlock_primary (d : Device) (a : BlockAddr) (f : BlockEntry → BlockEntry) :
    (d.modBlock a f).primary = d.primary := rfl
@[simp] theorem Device.modBlock_service (d : Device) (a : BlockAddr) (f : BlockEntry → BlockEntry) :
    (d.modBlock a f).service = d.service := rfl
@[simp] theorem Device.modBlock_turn (d : Device) (a : BlockAddr) (f : BlockEntry → BlockEntry) :
    (d.modBlock a f).turn = d.turn := rfl
@[simp] theorem Device.modBlock_flights (d : Device) (a : BlockAddr) (f : BlockEntry → BlockEntry) :
    (d.modBlock a f).flights = d.flights := rfl
@[simp] theorem Device.modBlock_dir (d : Device) (a : BlockAddr) (f : BlockEntry → BlockEntry) :
    (d.modBlock a f).dir = d.dir := rfl
@[simp] theorem Device.modBlock_slots (d : Device) (a : BlockAddr) (f : BlockEntry → BlockEntry) :
    (d.modBlock a f).slots = d.slots := rfl
@[simp] theorem Device.modBlock_locks (d : Device) (a : BlockAddr) (f : BlockEntry → BlockEntry) :
    (d.modBlock a f).locks = d.locks := rfl
@[simp] theorem Device.modBlock_retireCounter (d : Device) (a : BlockAddr) (f : BlockEntry → BlockEntry) :
    (d.modBlock a f).retireCounter = d.retireCounter := rfl
@[simp] theorem Device.modBlock_settings (d : Device) (a : BlockAddr) (f : BlockEntry → BlockEntry) :
    (d.modBlock a f).settings = d.settings := rfl
@[simp] theorem Device.modBlock_layout (d : Device) (a : BlockAddr) (f : BlockEntry → BlockEntry) :
    (d.modBlock a f).layout = d.layout := rfl
@[simp] theorem Device.modBlock_identity (d : Device) (a : BlockAddr) (f : BlockEntry → BlockEntry) :
    (d.modBlock a f).identity = d.identity := rfl
@[simp] theorem Device.modBlock_engines (d : Device) (a : BlockAddr) (f : BlockEntry → BlockEntry) :
    (d.modBlock a f).engines = d.engines := rfl
@[simp] theorem Device.modBlock_maint (d : Device) (a : BlockAddr) (f : BlockEntry → BlockEntry) :
    (d.modBlock a f).maint = d.maint := rfl
@[simp] theorem Device.modBlock_purge (d : Device) (a : BlockAddr) (f : BlockEntry → BlockEntry) :
    (d.modBlock a f).purge = d.purge := rfl
@[simp] theorem Device.modBlock_scan (d : Device) (a : BlockAddr) (f : BlockEntry → BlockEntry) :
    (d.modBlock a f).scan = d.scan := rfl

/-! ### setBlock -/

@[simp] theorem Device.setBlock_power (d : Device) (a : BlockAddr) (e : BlockEntry) :
    (d.setBlock a e).power = d.power := by unfold Device.setBlock; split <;> rfl
@[simp] theorem Device.setBlock_resetLow (d : Device) (a : BlockAddr) (e : BlockEntry) :
    (d.setBlock a e).resetLow = d.resetLow := by unfold Device.setBlock; split <;> rfl
@[simp] theorem Device.setBlock_straps (d : Device) (a : BlockAddr) (e : BlockEntry) :
    (d.setBlock a e).straps = d.straps := by unfold Device.setBlock; split <;> rfl
@[simp] theorem Device.setBlock_serviceAddress (d : Device) (a : BlockAddr) (e : BlockEntry) :
    (d.setBlock a e).serviceAddress = d.serviceAddress := by unfold Device.setBlock; split <;> rfl
@[simp] theorem Device.setBlock_phase (d : Device) (a : BlockAddr) (e : BlockEntry) :
    (d.setBlock a e).phase = d.phase := by unfold Device.setBlock; split <;> rfl
@[simp] theorem Device.setBlock_primary (d : Device) (a : BlockAddr) (e : BlockEntry) :
    (d.setBlock a e).primary = d.primary := by unfold Device.setBlock; split <;> rfl
@[simp] theorem Device.setBlock_service (d : Device) (a : BlockAddr) (e : BlockEntry) :
    (d.setBlock a e).service = d.service := by unfold Device.setBlock; split <;> rfl
@[simp] theorem Device.setBlock_turn (d : Device) (a : BlockAddr) (e : BlockEntry) :
    (d.setBlock a e).turn = d.turn := by unfold Device.setBlock; split <;> rfl
@[simp] theorem Device.setBlock_flights (d : Device) (a : BlockAddr) (e : BlockEntry) :
    (d.setBlock a e).flights = d.flights := by unfold Device.setBlock; split <;> rfl
@[simp] theorem Device.setBlock_dir (d : Device) (a : BlockAddr) (e : BlockEntry) :
    (d.setBlock a e).dir = d.dir := by unfold Device.setBlock; split <;> rfl
@[simp] theorem Device.setBlock_slots (d : Device) (a : BlockAddr) (e : BlockEntry) :
    (d.setBlock a e).slots = d.slots := by unfold Device.setBlock; split <;> rfl
@[simp] theorem Device.setBlock_locks (d : Device) (a : BlockAddr) (e : BlockEntry) :
    (d.setBlock a e).locks = d.locks := by unfold Device.setBlock; split <;> rfl
@[simp] theorem Device.setBlock_retireCounter (d : Device) (a : BlockAddr) (e : BlockEntry) :
    (d.setBlock a e).retireCounter = d.retireCounter := by unfold Device.setBlock; split <;> rfl
@[simp] theorem Device.setBlock_settings (d : Device) (a : BlockAddr) (e : BlockEntry) :
    (d.setBlock a e).settings = d.settings := by unfold Device.setBlock; split <;> rfl
@[simp] theorem Device.setBlock_layout (d : Device) (a : BlockAddr) (e : BlockEntry) :
    (d.setBlock a e).layout = d.layout := by unfold Device.setBlock; split <;> rfl
@[simp] theorem Device.setBlock_identity (d : Device) (a : BlockAddr) (e : BlockEntry) :
    (d.setBlock a e).identity = d.identity := by unfold Device.setBlock; split <;> rfl
@[simp] theorem Device.setBlock_engines (d : Device) (a : BlockAddr) (e : BlockEntry) :
    (d.setBlock a e).engines = d.engines := by unfold Device.setBlock; split <;> rfl
@[simp] theorem Device.setBlock_maint (d : Device) (a : BlockAddr) (e : BlockEntry) :
    (d.setBlock a e).maint = d.maint := by unfold Device.setBlock; split <;> rfl
@[simp] theorem Device.setBlock_purge (d : Device) (a : BlockAddr) (e : BlockEntry) :
    (d.setBlock a e).purge = d.purge := by unfold Device.setBlock; split <;> rfl
@[simp] theorem Device.setBlock_scan (d : Device) (a : BlockAddr) (e : BlockEntry) :
    (d.setBlock a e).scan = d.scan := by unfold Device.setBlock; split <;> rfl

/-! ### queueJob -/

@[simp] theorem Device.queueJob_power (d : Device) (b : Bank) (j : Job) : (d.queueJob b j).power = d.power := rfl
@[simp] theorem Device.queueJob_resetLow (d : Device) (b : Bank) (j : Job) :
    (d.queueJob b j).resetLow = d.resetLow := rfl
@[simp] theorem Device.queueJob_straps (d : Device) (b : Bank) (j : Job) : (d.queueJob b j).straps = d.straps := rfl
@[simp] theorem Device.queueJob_serviceAddress (d : Device) (b : Bank) (j : Job) :
    (d.queueJob b j).serviceAddress = d.serviceAddress := rfl
@[simp] theorem Device.queueJob_phase (d : Device) (b : Bank) (j : Job) : (d.queueJob b j).phase = d.phase := rfl
@[simp] theorem Device.queueJob_primary (d : Device) (b : Bank) (j : Job) : (d.queueJob b j).primary = d.primary := rfl
@[simp] theorem Device.queueJob_service (d : Device) (b : Bank) (j : Job) : (d.queueJob b j).service = d.service := rfl
@[simp] theorem Device.queueJob_turn (d : Device) (b : Bank) (j : Job) : (d.queueJob b j).turn = d.turn := rfl
@[simp] theorem Device.queueJob_flights (d : Device) (b : Bank) (j : Job) : (d.queueJob b j).flights = d.flights := rfl
@[simp] theorem Device.queueJob_dir (d : Device) (b : Bank) (j : Job) : (d.queueJob b j).dir = d.dir := rfl
@[simp] theorem Device.queueJob_slots (d : Device) (b : Bank) (j : Job) : (d.queueJob b j).slots = d.slots := rfl
@[simp] theorem Device.queueJob_locks (d : Device) (b : Bank) (j : Job) : (d.queueJob b j).locks = d.locks := rfl
@[simp] theorem Device.queueJob_retireCounter (d : Device) (b : Bank) (j : Job) :
    (d.queueJob b j).retireCounter = d.retireCounter := rfl
@[simp] theorem Device.queueJob_settings (d : Device) (b : Bank) (j : Job) :
    (d.queueJob b j).settings = d.settings := rfl
@[simp] theorem Device.queueJob_layout (d : Device) (b : Bank) (j : Job) : (d.queueJob b j).layout = d.layout := rfl
@[simp] theorem Device.queueJob_identity (d : Device) (b : Bank) (j : Job) :
    (d.queueJob b j).identity = d.identity := rfl
@[simp] theorem Device.queueJob_pool (d : Device) (b : Bank) (j : Job) : (d.queueJob b j).pool = d.pool := rfl
@[simp] theorem Device.queueJob_maint (d : Device) (b : Bank) (j : Job) : (d.queueJob b j).maint = d.maint := rfl
@[simp] theorem Device.queueJob_purge (d : Device) (b : Bank) (j : Job) : (d.queueJob b j).purge = d.purge := rfl
@[simp] theorem Device.queueJob_scan (d : Device) (b : Bank) (j : Job) : (d.queueJob b j).scan = d.scan := rfl

/-! ### advance -/

@[simp] theorem Device.advance_power (d : Device) (b : Bank) : (d.advance b).power = d.power := rfl
@[simp] theorem Device.advance_resetLow (d : Device) (b : Bank) : (d.advance b).resetLow = d.resetLow := rfl
@[simp] theorem Device.advance_straps (d : Device) (b : Bank) : (d.advance b).straps = d.straps := rfl
@[simp] theorem Device.advance_serviceAddress (d : Device) (b : Bank) :
    (d.advance b).serviceAddress = d.serviceAddress := rfl
@[simp] theorem Device.advance_phase (d : Device) (b : Bank) : (d.advance b).phase = d.phase := rfl
@[simp] theorem Device.advance_primary (d : Device) (b : Bank) : (d.advance b).primary = d.primary := rfl
@[simp] theorem Device.advance_service (d : Device) (b : Bank) : (d.advance b).service = d.service := rfl
@[simp] theorem Device.advance_turn (d : Device) (b : Bank) : (d.advance b).turn = d.turn := rfl
@[simp] theorem Device.advance_flights (d : Device) (b : Bank) : (d.advance b).flights = d.flights := rfl
@[simp] theorem Device.advance_dir (d : Device) (b : Bank) : (d.advance b).dir = d.dir := rfl
@[simp] theorem Device.advance_slots (d : Device) (b : Bank) : (d.advance b).slots = d.slots := rfl
@[simp] theorem Device.advance_locks (d : Device) (b : Bank) : (d.advance b).locks = d.locks := rfl
@[simp] theorem Device.advance_retireCounter (d : Device) (b : Bank) :
    (d.advance b).retireCounter = d.retireCounter := rfl
@[simp] theorem Device.advance_settings (d : Device) (b : Bank) : (d.advance b).settings = d.settings := rfl
@[simp] theorem Device.advance_layout (d : Device) (b : Bank) : (d.advance b).layout = d.layout := rfl
@[simp] theorem Device.advance_identity (d : Device) (b : Bank) : (d.advance b).identity = d.identity := rfl
@[simp] theorem Device.advance_pool (d : Device) (b : Bank) : (d.advance b).pool = d.pool := rfl
@[simp] theorem Device.advance_maint (d : Device) (b : Bank) : (d.advance b).maint = d.maint := rfl
@[simp] theorem Device.advance_purge (d : Device) (b : Bank) : (d.advance b).purge = d.purge := rfl
@[simp] theorem Device.advance_scan (d : Device) (b : Bank) : (d.advance b).scan = d.scan := rfl

/-! ### askGrant -/

@[simp] theorem Device.askGrant_power (d : Device) (k : Asker) (rs : List BlockRequest) :
    (d.askGrant k rs).power = d.power := rfl
@[simp] theorem Device.askGrant_resetLow (d : Device) (k : Asker) (rs : List BlockRequest) :
    (d.askGrant k rs).resetLow = d.resetLow := rfl
@[simp] theorem Device.askGrant_straps (d : Device) (k : Asker) (rs : List BlockRequest) :
    (d.askGrant k rs).straps = d.straps := rfl
@[simp] theorem Device.askGrant_serviceAddress (d : Device) (k : Asker) (rs : List BlockRequest) :
    (d.askGrant k rs).serviceAddress = d.serviceAddress := rfl
@[simp] theorem Device.askGrant_phase (d : Device) (k : Asker) (rs : List BlockRequest) :
    (d.askGrant k rs).phase = d.phase := rfl
@[simp] theorem Device.askGrant_primary (d : Device) (k : Asker) (rs : List BlockRequest) :
    (d.askGrant k rs).primary = d.primary := rfl
@[simp] theorem Device.askGrant_service (d : Device) (k : Asker) (rs : List BlockRequest) :
    (d.askGrant k rs).service = d.service := rfl
@[simp] theorem Device.askGrant_turn (d : Device) (k : Asker) (rs : List BlockRequest) :
    (d.askGrant k rs).turn = d.turn := rfl
@[simp] theorem Device.askGrant_flights (d : Device) (k : Asker) (rs : List BlockRequest) :
    (d.askGrant k rs).flights = d.flights := rfl
@[simp] theorem Device.askGrant_dir (d : Device) (k : Asker) (rs : List BlockRequest) :
    (d.askGrant k rs).dir = d.dir := rfl
@[simp] theorem Device.askGrant_slots (d : Device) (k : Asker) (rs : List BlockRequest) :
    (d.askGrant k rs).slots = d.slots := rfl
@[simp] theorem Device.askGrant_locks (d : Device) (k : Asker) (rs : List BlockRequest) :
    (d.askGrant k rs).locks = d.locks := rfl
@[simp] theorem Device.askGrant_retireCounter (d : Device) (k : Asker) (rs : List BlockRequest) :
    (d.askGrant k rs).retireCounter = d.retireCounter := rfl
@[simp] theorem Device.askGrant_settings (d : Device) (k : Asker) (rs : List BlockRequest) :
    (d.askGrant k rs).settings = d.settings := rfl
@[simp] theorem Device.askGrant_layout (d : Device) (k : Asker) (rs : List BlockRequest) :
    (d.askGrant k rs).layout = d.layout := rfl
@[simp] theorem Device.askGrant_identity (d : Device) (k : Asker) (rs : List BlockRequest) :
    (d.askGrant k rs).identity = d.identity := rfl
@[simp] theorem Device.askGrant_engines (d : Device) (k : Asker) (rs : List BlockRequest) :
    (d.askGrant k rs).engines = d.engines := rfl
@[simp] theorem Device.askGrant_maint (d : Device) (k : Asker) (rs : List BlockRequest) :
    (d.askGrant k rs).maint = d.maint := rfl
@[simp] theorem Device.askGrant_purge (d : Device) (k : Asker) (rs : List BlockRequest) :
    (d.askGrant k rs).purge = d.purge := rfl
@[simp] theorem Device.askGrant_scan (d : Device) (k : Asker) (rs : List BlockRequest) :
    (d.askGrant k rs).scan = d.scan := rfl

/-! ### withdrawGrants -/

@[simp] theorem Device.withdrawGrants_power (d : Device) (f : Asker → Bool) :
    (d.withdrawGrants f).power = d.power := rfl
@[simp] theorem Device.withdrawGrants_resetLow (d : Device) (f : Asker → Bool) :
    (d.withdrawGrants f).resetLow = d.resetLow := rfl
@[simp] theorem Device.withdrawGrants_straps (d : Device) (f : Asker → Bool) :
    (d.withdrawGrants f).straps = d.straps := rfl
@[simp] theorem Device.withdrawGrants_serviceAddress (d : Device) (f : Asker → Bool) :
    (d.withdrawGrants f).serviceAddress = d.serviceAddress := rfl
@[simp] theorem Device.withdrawGrants_phase (d : Device) (f : Asker → Bool) :
    (d.withdrawGrants f).phase = d.phase := rfl
@[simp] theorem Device.withdrawGrants_primary (d : Device) (f : Asker → Bool) :
    (d.withdrawGrants f).primary = d.primary := rfl
@[simp] theorem Device.withdrawGrants_service (d : Device) (f : Asker → Bool) :
    (d.withdrawGrants f).service = d.service := rfl
@[simp] theorem Device.withdrawGrants_turn (d : Device) (f : Asker → Bool) : (d.withdrawGrants f).turn = d.turn := rfl
@[simp] theorem Device.withdrawGrants_flights (d : Device) (f : Asker → Bool) :
    (d.withdrawGrants f).flights = d.flights := rfl
@[simp] theorem Device.withdrawGrants_dir (d : Device) (f : Asker → Bool) : (d.withdrawGrants f).dir = d.dir := rfl
@[simp] theorem Device.withdrawGrants_slots (d : Device) (f : Asker → Bool) :
    (d.withdrawGrants f).slots = d.slots := rfl
@[simp] theorem Device.withdrawGrants_locks (d : Device) (f : Asker → Bool) :
    (d.withdrawGrants f).locks = d.locks := rfl
@[simp] theorem Device.withdrawGrants_retireCounter (d : Device) (f : Asker → Bool) :
    (d.withdrawGrants f).retireCounter = d.retireCounter := rfl
@[simp] theorem Device.withdrawGrants_settings (d : Device) (f : Asker → Bool) :
    (d.withdrawGrants f).settings = d.settings := rfl
@[simp] theorem Device.withdrawGrants_layout (d : Device) (f : Asker → Bool) :
    (d.withdrawGrants f).layout = d.layout := rfl
@[simp] theorem Device.withdrawGrants_identity (d : Device) (f : Asker → Bool) :
    (d.withdrawGrants f).identity = d.identity := rfl
@[simp] theorem Device.withdrawGrants_engines (d : Device) (f : Asker → Bool) :
    (d.withdrawGrants f).engines = d.engines := rfl
@[simp] theorem Device.withdrawGrants_maint (d : Device) (f : Asker → Bool) :
    (d.withdrawGrants f).maint = d.maint := rfl
@[simp] theorem Device.withdrawGrants_purge (d : Device) (f : Asker → Bool) :
    (d.withdrawGrants f).purge = d.purge := rfl
@[simp] theorem Device.withdrawGrants_scan (d : Device) (f : Asker → Bool) : (d.withdrawGrants f).scan = d.scan := rfl

/-! ### toExamine -/

@[simp] theorem Device.toExamine_power (d : Device) : d.toExamine.power = d.power := rfl
@[simp] theorem Device.toExamine_resetLow (d : Device) : d.toExamine.resetLow = d.resetLow := rfl
@[simp] theorem Device.toExamine_straps (d : Device) : d.toExamine.straps = d.straps := rfl
@[simp] theorem Device.toExamine_serviceAddress (d : Device) : d.toExamine.serviceAddress = d.serviceAddress := rfl
@[simp] theorem Device.toExamine_phase (d : Device) : d.toExamine.phase = d.phase := rfl
@[simp] theorem Device.toExamine_primary (d : Device) : d.toExamine.primary = d.primary := rfl
@[simp] theorem Device.toExamine_service (d : Device) : d.toExamine.service = d.service := rfl
@[simp] theorem Device.toExamine_turn (d : Device) : d.toExamine.turn = d.turn := rfl
@[simp] theorem Device.toExamine_flights (d : Device) : d.toExamine.flights = d.flights := rfl
@[simp] theorem Device.toExamine_dir (d : Device) : d.toExamine.dir = d.dir := rfl
@[simp] theorem Device.toExamine_slots (d : Device) : d.toExamine.slots = d.slots := rfl
@[simp] theorem Device.toExamine_locks (d : Device) : d.toExamine.locks = d.locks := rfl
@[simp] theorem Device.toExamine_retireCounter (d : Device) : d.toExamine.retireCounter = d.retireCounter := rfl
@[simp] theorem Device.toExamine_settings (d : Device) : d.toExamine.settings = d.settings := rfl
@[simp] theorem Device.toExamine_layout (d : Device) : d.toExamine.layout = d.layout := rfl
@[simp] theorem Device.toExamine_identity (d : Device) : d.toExamine.identity = d.identity := rfl
@[simp] theorem Device.toExamine_engines (d : Device) : d.toExamine.engines = d.engines := rfl
@[simp] theorem Device.toExamine_maint (d : Device) : d.toExamine.maint = d.maint := rfl
@[simp] theorem Device.toExamine_purge (d : Device) : d.toExamine.purge = d.purge := rfl
@[simp] theorem Device.toExamine_scan (d : Device) : d.toExamine.scan = d.scan := rfl

/-! ### toRecheck -/

@[simp] theorem Device.toRecheck_power (d : Device) : d.toRecheck.power = d.power := rfl
@[simp] theorem Device.toRecheck_resetLow (d : Device) : d.toRecheck.resetLow = d.resetLow := rfl
@[simp] theorem Device.toRecheck_straps (d : Device) : d.toRecheck.straps = d.straps := rfl
@[simp] theorem Device.toRecheck_serviceAddress (d : Device) : d.toRecheck.serviceAddress = d.serviceAddress := rfl
@[simp] theorem Device.toRecheck_phase (d : Device) : d.toRecheck.phase = d.phase := rfl
@[simp] theorem Device.toRecheck_primary (d : Device) : d.toRecheck.primary = d.primary := rfl
@[simp] theorem Device.toRecheck_service (d : Device) : d.toRecheck.service = d.service := rfl
@[simp] theorem Device.toRecheck_turn (d : Device) : d.toRecheck.turn = d.turn := rfl
@[simp] theorem Device.toRecheck_flights (d : Device) : d.toRecheck.flights = d.flights := rfl
@[simp] theorem Device.toRecheck_dir (d : Device) : d.toRecheck.dir = d.dir := rfl
@[simp] theorem Device.toRecheck_slots (d : Device) : d.toRecheck.slots = d.slots := rfl
@[simp] theorem Device.toRecheck_locks (d : Device) : d.toRecheck.locks = d.locks := rfl
@[simp] theorem Device.toRecheck_retireCounter (d : Device) : d.toRecheck.retireCounter = d.retireCounter := rfl
@[simp] theorem Device.toRecheck_settings (d : Device) : d.toRecheck.settings = d.settings := rfl
@[simp] theorem Device.toRecheck_layout (d : Device) : d.toRecheck.layout = d.layout := rfl
@[simp] theorem Device.toRecheck_identity (d : Device) : d.toRecheck.identity = d.identity := rfl
@[simp] theorem Device.toRecheck_engines (d : Device) : d.toRecheck.engines = d.engines := rfl
@[simp] theorem Device.toRecheck_maint (d : Device) : d.toRecheck.maint = d.maint := rfl
@[simp] theorem Device.toRecheck_purge (d : Device) : d.toRecheck.purge = d.purge := rfl
@[simp] theorem Device.toRecheck_scan (d : Device) : d.toRecheck.scan = d.scan := rfl

/-! ### askDraw -/

@[simp] theorem Device.askDraw_power (d : Device) (k : Drawer) (n : Nat) : (d.askDraw k n).power = d.power := rfl
@[simp] theorem Device.askDraw_resetLow (d : Device) (k : Drawer) (n : Nat) :
    (d.askDraw k n).resetLow = d.resetLow := rfl
@[simp] theorem Device.askDraw_straps (d : Device) (k : Drawer) (n : Nat) : (d.askDraw k n).straps = d.straps := rfl
@[simp] theorem Device.askDraw_serviceAddress (d : Device) (k : Drawer) (n : Nat) :
    (d.askDraw k n).serviceAddress = d.serviceAddress := rfl
@[simp] theorem Device.askDraw_phase (d : Device) (k : Drawer) (n : Nat) : (d.askDraw k n).phase = d.phase := rfl
@[simp] theorem Device.askDraw_primary (d : Device) (k : Drawer) (n : Nat) : (d.askDraw k n).primary = d.primary := rfl
@[simp] theorem Device.askDraw_service (d : Device) (k : Drawer) (n : Nat) : (d.askDraw k n).service = d.service := rfl
@[simp] theorem Device.askDraw_turn (d : Device) (k : Drawer) (n : Nat) : (d.askDraw k n).turn = d.turn := rfl
@[simp] theorem Device.askDraw_flights (d : Device) (k : Drawer) (n : Nat) : (d.askDraw k n).flights = d.flights := rfl
@[simp] theorem Device.askDraw_dir (d : Device) (k : Drawer) (n : Nat) : (d.askDraw k n).dir = d.dir := rfl
@[simp] theorem Device.askDraw_slots (d : Device) (k : Drawer) (n : Nat) : (d.askDraw k n).slots = d.slots := rfl
@[simp] theorem Device.askDraw_locks (d : Device) (k : Drawer) (n : Nat) : (d.askDraw k n).locks = d.locks := rfl
@[simp] theorem Device.askDraw_retireCounter (d : Device) (k : Drawer) (n : Nat) :
    (d.askDraw k n).retireCounter = d.retireCounter := rfl
@[simp] theorem Device.askDraw_settings (d : Device) (k : Drawer) (n : Nat) :
    (d.askDraw k n).settings = d.settings := rfl
@[simp] theorem Device.askDraw_layout (d : Device) (k : Drawer) (n : Nat) : (d.askDraw k n).layout = d.layout := rfl
@[simp] theorem Device.askDraw_identity (d : Device) (k : Drawer) (n : Nat) :
    (d.askDraw k n).identity = d.identity := rfl
@[simp] theorem Device.askDraw_engines (d : Device) (k : Drawer) (n : Nat) : (d.askDraw k n).engines = d.engines := rfl
@[simp] theorem Device.askDraw_maint (d : Device) (k : Drawer) (n : Nat) : (d.askDraw k n).maint = d.maint := rfl
@[simp] theorem Device.askDraw_purge (d : Device) (k : Drawer) (n : Nat) : (d.askDraw k n).purge = d.purge := rfl
@[simp] theorem Device.askDraw_scan (d : Device) (k : Drawer) (n : Nat) : (d.askDraw k n).scan = d.scan := rfl

/-! ### withdrawDraws -/

@[simp] theorem Device.withdrawDraws_power (d : Device) (k : Drawer) : (d.withdrawDraws k).power = d.power := rfl
@[simp] theorem Device.withdrawDraws_resetLow (d : Device) (k : Drawer) :
    (d.withdrawDraws k).resetLow = d.resetLow := rfl
@[simp] theorem Device.withdrawDraws_straps (d : Device) (k : Drawer) : (d.withdrawDraws k).straps = d.straps := rfl
@[simp] theorem Device.withdrawDraws_serviceAddress (d : Device) (k : Drawer) :
    (d.withdrawDraws k).serviceAddress = d.serviceAddress := rfl
@[simp] theorem Device.withdrawDraws_phase (d : Device) (k : Drawer) : (d.withdrawDraws k).phase = d.phase := rfl
@[simp] theorem Device.withdrawDraws_primary (d : Device) (k : Drawer) : (d.withdrawDraws k).primary = d.primary := rfl
@[simp] theorem Device.withdrawDraws_service (d : Device) (k : Drawer) : (d.withdrawDraws k).service = d.service := rfl
@[simp] theorem Device.withdrawDraws_turn (d : Device) (k : Drawer) : (d.withdrawDraws k).turn = d.turn := rfl
@[simp] theorem Device.withdrawDraws_flights (d : Device) (k : Drawer) : (d.withdrawDraws k).flights = d.flights := rfl
@[simp] theorem Device.withdrawDraws_dir (d : Device) (k : Drawer) : (d.withdrawDraws k).dir = d.dir := rfl
@[simp] theorem Device.withdrawDraws_slots (d : Device) (k : Drawer) : (d.withdrawDraws k).slots = d.slots := rfl
@[simp] theorem Device.withdrawDraws_locks (d : Device) (k : Drawer) : (d.withdrawDraws k).locks = d.locks := rfl
@[simp] theorem Device.withdrawDraws_retireCounter (d : Device) (k : Drawer) :
    (d.withdrawDraws k).retireCounter = d.retireCounter := rfl
@[simp] theorem Device.withdrawDraws_settings (d : Device) (k : Drawer) :
    (d.withdrawDraws k).settings = d.settings := rfl
@[simp] theorem Device.withdrawDraws_layout (d : Device) (k : Drawer) : (d.withdrawDraws k).layout = d.layout := rfl
@[simp] theorem Device.withdrawDraws_identity (d : Device) (k : Drawer) :
    (d.withdrawDraws k).identity = d.identity := rfl
@[simp] theorem Device.withdrawDraws_engines (d : Device) (k : Drawer) : (d.withdrawDraws k).engines = d.engines := rfl
@[simp] theorem Device.withdrawDraws_maint (d : Device) (k : Drawer) : (d.withdrawDraws k).maint = d.maint := rfl
@[simp] theorem Device.withdrawDraws_purge (d : Device) (k : Drawer) : (d.withdrawDraws k).purge = d.purge := rfl
@[simp] theorem Device.withdrawDraws_scan (d : Device) (k : Drawer) : (d.withdrawDraws k).scan = d.scan := rfl

/-! ### Ports -/

/-- The port that was set. -/
@[simp] theorem Device.setPort_port_self (d : Device) (p : Port) (x : PortState) : (d.setPort p x).port p = x := by
  cases p <;> rfl

/-- The other port stays. -/
@[simp] theorem Device.setPort_port_other (d : Device) (p : Port) (x : PortState) :
    (d.setPort p x).port p.other = d.port p.other := by
  cases p <;> rfl

/-- A port after either was set. -/
theorem Device.setPort_port (d : Device) (p q : Port) (x : PortState) :
    (d.setPort p x).port q = if q = p then x else d.port q := by
  cases p <;> cases q <;> rfl

/-- Setting a port to what it is changes nothing. -/
@[simp] theorem Device.setPort_self (d : Device) (p : Port) : d.setPort p (d.port p) = d := by
  cases p <;> rfl

/-- Of two settings of one port the last one stands. -/
@[simp] theorem Device.setPort_setPort (d : Device) (p : Port) (x y : PortState) :
    (d.setPort p x).setPort p y = d.setPort p y := by
  cases p <;> rfl

end Sys2Proof.Machine
end

