-- ==== Sys2Proof/Laws/Quiet.lean ====
section
/-!
SUPPORT. What a step's own effect and everything that comes about within the step can do to the parts of the device that
`Device.Quiet` speaks of: one lemma for each shared operation.
-/

namespace Sys2Proof.Machine

variable {d₀ d d' : Device}

/-! ### The relation -/

/-- Nothing done is quiet. -/
theorem Device.Quiet.refl (d : Device) : d.Quiet d :=
  ⟨rfl, fun _ => List.prefix_refl _, fun _ => le_refl _, .refl _, .refl _, id⟩

/-- One quiet change after another is quiet. -/
theorem Device.Quiet.trans (h : d₀.Quiet d) (h' : d.Quiet d') : d₀.Quiet d' :=
  ⟨h'.face.trans h.face, fun p => (h.posted p).trans (h'.posted p), fun p => (h'.load p).trans (h.load p),
   h'.flights.trans h.flights, h'.entries.trans h.entries, fun o => h'.table (h.table o)⟩

/-- A quiet change keeps the order of the directory (R11). -/
theorem Device.Quiet.dir (h : d.Quiet d') (o : d.DirOrdered) : d'.DirOrdered := by
  have names : ∀ x : Device, (x.dir.map fun e => e.name.num) = (x.dir.map (·.name)).map RecordName.num := fun x => by
    rw [List.map_map]; rfl
  unfold Device.DirOrdered at *
  rw [names] at *
  exact o.sublist (h.entries.map _)

/-- A quiet change keeps the directory within its bounds (R11). -/
theorem Device.Quiet.bounded (h : d.Quiet d') (o : d.DirBounded) : d'.DirBounded := by
  have counts : ∀ (x : Device) (n : NsIndex),
      x.recordCount n = (x.dir.map (·.name)).countP fun r => decide (r.ns = n) := fun x n => by
    unfold Device.recordCount
    rw [List.countP_map]; rfl
  have same : d'.layout = d.layout := by
    have := h.face
    unfold Device.face at this
    injection this
  refine ⟨le_trans (by simpa using h.entries.length_le) o.1, fun n => ?_⟩
  have desc : d'.desc n = d.desc n := by
    unfold Device.desc
    rw [same]
  rw [desc, counts]
  exact le_trans h.entries.countP_le (counts d n ▸ o.2 n)

/-- A quiet change keeps the names of the requests in flight apart. -/
theorem Device.Quiet.named (h : d.Quiet d') (o : d.FlightsNamed) : d'.FlightsNamed := o.sublist h.flights

/-- The completions of a port, from those of the two port fields. -/
theorem Device.port_completions (hp : d'.primary.completions = d.primary.completions)
    (hs : d'.service.completions = d.service.completions) (p : Port) :
    (d'.port p).completions = (d.port p).completions := by
  cases p
  · exact hp
  · exact hs

/-- A change of other parts is quiet. -/
theorem Device.Quiet.keep (h : d₀.Quiet d) (hf : d'.face = d.face)
    (hp : d'.primary.completions = d.primary.completions) (hs : d'.service.completions = d.service.completions)
    (hr : ∀ p, d'.reserved p ≤ d.reserved p) (hi : (d'.flights.map (·.id)).Sublist (d.flights.map (·.id)))
    (hd : (d'.dir.map (·.name)).Sublist (d.dir.map (·.name))) (ht : d.TableOrdered → d'.TableOrdered) : d₀.Quiet d' := by
  refine h.trans ⟨hf, fun p => ?_, fun p => ?_, hi, hd, ht⟩
  · rw [Device.port_completions hp hs p]
  · have := hr p
    unfold Device.load
    rw [Device.port_completions hp hs p]
    omega

/-- A change of what `Quiet` does not speak of: the phase, the contexts, the retire counter, the pool but for its table,
the engines, the Maintenance Unit and the purge. -/
@[simp] theorem Device.Quiet.inner {ph : Phase} {sl : Vector Slot 8} {rc : BitVec 64} {po : Pool} {en : Vector Engine 4}
    {ma : Maint} {pu : Option PurgeWork} (h : d₀.Quiet d) (ht : po.table = d.pool.table) :
    d₀.Quiet { d with phase := ph, slots := sl, retireCounter := rc, pool := po, engines := en, maint := ma, purge := pu } :=
  h.keep rfl rfl rfl (fun _ => le_refl _) (.refl _) (.refl _) fun o => by
    have : (po.table.map fun l => l.addr.num).Pairwise (· < ·) := by rw [ht]; exact o
    exact this

/-- One quiet operation after another along a list. -/
@[simp] theorem Device.Quiet.foldl {α : Type} {f : Device → α → Device} (hf : ∀ d x, d₀.Quiet d → d₀.Quiet (f d x))
    (xs : List α) (h : d₀.Quiet d) : d₀.Quiet (xs.foldl f d) := by
  induction xs generalizing d with
  | nil => exact h
  | cons x xs ih => exact ih (hf d x h)

/-- The same for a device carried with other work. -/
theorem Device.Quiet.foldlFst {α β : Type} {f : Device × β → α → Device × β}
    (hf : ∀ y x, d₀.Quiet y.1 → d₀.Quiet (f y x).1) (xs : List α) {y : Device × β} (h : d₀.Quiet y.1) :
    d₀.Quiet (xs.foldl f y).1 := by
  induction xs generalizing y with
  | nil => exact h
  | cons x xs ih => exact ih (hf y x h)

/-! ### Orders -/

/-- A name's place tells the name. -/
theorem recordNum_inj {r s : RecordName} (h : r.num = s.num) : r = s := by
  obtain ⟨⟨a, ha⟩, k⟩ := r
  obtain ⟨⟨b, hb⟩, l⟩ := s
  have hk := k.isLt
  have hl := l.isLt
  simp only [RecordName.num] at h
  simp only [RecordName.mk.injEq, Fin.mk.injEq]
  refine ⟨by omega, BitVec.eq_of_toNat_eq (by omega)⟩

/-- A block's place tells the block. -/
theorem blockPlace_inj {a b : BlockAddr} (h : a.num = b.num) : a = b := by
  have h1 := a.block.isLt
  have h2 := b.block.isLt
  obtain ⟨⟨x, hx⟩, ⟨y, hy⟩⟩ := a
  obtain ⟨⟨z, hz⟩, ⟨w, hw⟩⟩ := b
  simp only [BlockAddr.num] at *
  simp only [BlockAddr.mk.injEq, Fin.mk.injEq]
  omega

/-- The names in a directory after an insertion. -/
theorem insertEntry_mem {e x : Entry} {es : List Entry} (h : x ∈ insertEntry e es) : x = e ∨ x ∈ es := by
  induction es with
  | nil => simpa [insertEntry] using h
  | cons y es ih =>
    simp only [insertEntry] at h
    split at h
    · simpa using h
    · split at h
      · rcases List.mem_cons.1 h with h | h
        · exact .inl h
        · exact .inr (List.mem_cons_of_mem _ h)
      · rcases List.mem_cons.1 h with h | h
        · exact .inr (by simp [h])
        · rcases ih h with h | h
          · exact .inl h
          · exact .inr (List.mem_cons_of_mem _ h)

/-- An insertion keeps the order of the directory (R11). -/
theorem insertEntry_ordered (e : Entry) {es : List Entry} (h : (es.map fun e => e.name.num).Pairwise (· < ·)) :
    ((insertEntry e es).map fun e => e.name.num).Pairwise (· < ·) := by
  induction es with
  | nil => simp [insertEntry]
  | cons y es ih =>
    rw [List.map_cons, List.pairwise_cons] at h
    obtain ⟨hy, hp⟩ := h
    simp only [insertEntry]
    split
    · rename_i hlt
      rw [List.map_cons, List.map_cons, List.pairwise_cons, List.pairwise_cons]
      refine ⟨fun n hn => ?_, hy, hp⟩
      rcases List.mem_cons.1 hn with rfl | hn
      · exact hlt
      · exact lt_trans hlt (hy n hn)
    · rename_i hlt
      split
      · rename_i heq
        rw [List.map_cons, List.pairwise_cons]
        exact ⟨by rw [heq]; exact hy, hp⟩
      · rename_i hne
        rw [List.map_cons, List.pairwise_cons]
        refine ⟨fun n hn => ?_, ih hp⟩
        obtain ⟨x, hx, rfl⟩ := List.mem_map.1 hn
        rcases insertEntry_mem hx with rfl | hx
        · have : x.name.num ≠ y.name.num := fun e => hne (recordNum_inj e)
          omega
        · exact hy _ (List.mem_map_of_mem hx)

/-- The lines in a table after an insertion. -/
theorem insertLine_mem {l x : BlockLine} {ls : List BlockLine} (h : x ∈ insertLine l ls) : x = l ∨ x ∈ ls := by
  induction ls with
  | nil => simpa [insertLine] using h
  | cons y ls ih =>
    simp only [insertLine] at h
    split at h
    · simpa using h
    · split at h
      · rcases List.mem_cons.1 h with h | h
        · exact .inl h
        · exact .inr (List.mem_cons_of_mem _ h)
      · rcases List.mem_cons.1 h with h | h
        · exact .inr (by simp [h])
        · rcases ih h with h | h
          · exact .inl h
          · exact .inr (List.mem_cons_of_mem _ h)

/-- An insertion keeps the order of the Block State Table. -/
theorem insertLine_ordered (l : BlockLine) {ls : List BlockLine} (h : (ls.map fun l => l.addr.num).Pairwise (· < ·)) :
    ((insertLine l ls).map fun l => l.addr.num).Pairwise (· < ·) := by
  induction ls with
  | nil => simp [insertLine]
  | cons y ls ih =>
    rw [List.map_cons, List.pairwise_cons] at h
    obtain ⟨hy, hp⟩ := h
    simp only [insertLine]
    split
    · rename_i hlt
      rw [List.map_cons, List.map_cons, List.pairwise_cons, List.pairwise_cons]
      refine ⟨fun n hn => ?_, hy, hp⟩
      rcases List.mem_cons.1 hn with rfl | hn
      · exact hlt
      · exact lt_trans hlt (hy n hn)
    · rename_i hlt
      split
      · rename_i heq
        rw [List.map_cons, List.pairwise_cons]
        exact ⟨by rw [heq]; exact hy, hp⟩
      · rename_i hne
        rw [List.map_cons, List.pairwise_cons]
        refine ⟨fun n hn => ?_, ih hp⟩
        obtain ⟨x, hx, rfl⟩ := List.mem_map.1 hn
        rcases insertLine_mem hx with rfl | hx
        · have : x.addr.num ≠ y.addr.num := fun e => hne (blockPlace_inj e)
          omega
        · exact hy _ (List.mem_map_of_mem hx)

/-! ### Ports and the in-flight set -/

/-- A change of a port but for its face and completions. -/
theorem Device.setPort_quiet {p : Port} {x : PortState} (h : d₀.Quiet d) (hf : x.face = (d.port p).face)
    (hc : x.completions = (d.port p).completions) : d₀.Quiet (d.setPort p x) := by
  cases p <;>
  · refine h.keep ?_ ?_ ?_ (fun _ => le_refl _) (.refl _) (.refl _) id
    · simp only [Device.face, Device.setPort, hf, Device.port]
    · first | exact hc | rfl
    · first | exact hc | rfl

/-- Posting a notice is quiet (R177). -/
@[simp] theorem Device.post_quiet {p : Port} {n : Notices} (h : d₀.Quiet d) : d₀.Quiet (d.post p n) :=
  Device.setPort_quiet h rfl rfl

/-- Posting a notice to both ports is quiet (R177). -/
@[simp] theorem Device.postBoth_quiet {n : Notices} (h : d₀.Quiet d) : d₀.Quiet (d.postBoth n) :=
  Device.post_quiet (Device.post_quiet h)

/-- A change of work takes no slot. -/
theorem Device.setWork_reserved (d : Device) (id : Nat) (w : Work) (p : Port) :
    (d.setWork id w).reserved p = d.reserved p := by
  unfold Device.reserved Device.setWork
  rw [List.countP_map]
  congr 1
  funext f
  simp only [Function.comp]
  split <;> rfl

/-- A change of work renames no request. -/
theorem Device.setWork_ids (d : Device) (id : Nat) (w : Work) :
    (d.setWork id w).flights.map (·.id) = d.flights.map (·.id) := by
  unfold Device.setWork
  rw [List.map_map]
  apply List.map_congr_left
  intro f _
  simp only [Function.comp]
  split <;> rfl

/-- A change of work is quiet. -/
@[simp] theorem Device.setWork_quiet {id : Nat} {w : Work} (h : d₀.Quiet d) : d₀.Quiet (d.setWork id w) :=
  h.keep rfl rfl rfl (fun p => le_of_eq (Device.setWork_reserved d id w p))
    (by rw [Device.setWork_ids]) (.refl _) fun o => o

/-- A completion takes the slot that its request held (R175). -/
@[simp] theorem Device.complete_quiet {id : Nat} {r : Result} {reply : List Byte} (h : d₀.Quiet d) :
    d₀.Quiet (d.complete id r reply) := by
  unfold Device.complete
  split
  · exact h
  · rename_i f hf
    have hmem : f ∈ d.flights := List.mem_of_find?_eq_some hf
    have hid : f.id = id := by simpa using List.find?_some hf
    have less : ∀ p, (List.countP (fun g => decide (g.port = p) && !g.discard)
        (d.flights.filter fun g => decide (g.id ≠ id))) ≤ d.reserved p :=
      fun p => List.Sublist.countP_le List.filter_sublist
    have gone : f.discard = false → (List.countP (fun g => decide (g.port = f.port) && !g.discard)
        (d.flights.filter fun g => decide (g.id ≠ id))) + 1 ≤ d.reserved f.port := by
      intro hd
      unfold Device.reserved
      rw [List.countP_filter, ← Nat.succ_le_iff.symm.eq]
      revert hmem
      generalize d.flights = fs
      intro hmem
      induction fs with
      | nil => simp at hmem
      | cons g gs ih =>
        rw [List.countP_cons, List.countP_cons]
        rcases List.mem_cons.1 hmem with rfl | hm
        · have le : List.countP (fun a => (decide (a.port = f.port) && !a.discard) && decide (a.id ≠ id)) gs
              ≤ List.countP (fun a => decide (a.port = f.port) && !a.discard) gs :=
            List.countP_mono_left fun x _ hx => by
              simp only [Bool.and_eq_true] at hx ⊢
              exact hx.1
          simp [hd, hid]
          simpa using Nat.lt_succ_of_le le
        · have := ih hm
          split <;> rename_i h1 <;> split <;> rename_i h2
          all_goals simp_all
          all_goals omega
    dsimp only
    split
    · exact h.keep rfl rfl rfl less (List.filter_sublist.map _) (.refl _) fun o => o
    · rename_i hd
      have hd : f.discard = false := by simpa using hd
      have hg := gone hd
      refine h.trans ⟨?_, fun p => ?_, fun p => ?_, ?_, ?_, ?_⟩
      · cases f.port <;> rfl
      · rw [Device.setPort_port]
        split
        · rename_i e; subst e; exact ⟨_, rfl⟩
        · cases p <;> exact List.prefix_refl _
      · have := less p
        unfold Device.load
        rw [Device.setPort_port]
        have hres : (Device.setPort { d with flights := d.flights.filter fun g => decide (g.id ≠ id) } f.port
            { (Device.port { d with flights := d.flights.filter fun g => decide (g.id ≠ id) } f.port) with
              completions := (Device.port { d with flights := d.flights.filter fun g => decide (g.id ≠ id) } f.port).completions
                ++ [{ tag := f.tag, kind := f.kind, result := r, reply := reply }] }).reserved p
            = List.countP (fun g => decide (g.port = p) && !g.discard) (d.flights.filter fun g => decide (g.id ≠ id)) := by
          cases f.port <;> rfl
        rw [hres]
        split
        · rename_i e
          subst e
          have e2 : (Device.port { d with flights := d.flights.filter fun g => decide (g.id ≠ id) } f.port).completions
              = (d.port f.port).completions := by cases f.port <;> rfl
          simp only [e2, List.length_append, List.length_cons, List.length_nil]
          omega
        · have e2 : (Device.port { d with flights := d.flights.filter fun g => decide (g.id ≠ id) } p).completions
              = (d.port p).completions := by cases p <;> rfl
          simp only [e2]
          omega
      · cases f.port <;> exact List.filter_sublist.map _
      · cases f.port <;> exact .refl _
      · cases f.port <;> exact fun o => o

end Sys2Proof.Machine
end

