-- ==== Sys2Proof/Laws/QuietOps.lean ====
section
/-!
SUPPORT. That the operations of a step are quiet (`Device.Quiet`), one lemma for each, from the shared operations to the
end of a step.
-/

namespace Sys2Proof.Machine

variable {d₀ d d' : Device}

/-! ### Shared operations -/

/-- `removeRecord` is quiet (R13). -/
@[simp] theorem Device.removeRecord_quiet {r : RecordName} (h : d₀.Quiet d) :
    d₀.Quiet (d.removeRecord r) := h.keep rfl rfl rfl (fun _ => le_refl _) (.refl _)
    (List.filter_sublist.map _) fun o => o

/-- `modEntry` is quiet. -/
@[simp] theorem Device.modEntry_quiet {r : RecordName} {f : Entry → Entry} (h : d₀.Quiet d) :
    d₀.Quiet (d.modEntry r f) := by
  refine h.keep rfl rfl rfl (fun _ => le_refl _) (.refl _) ?_ fun o => o
  have e : (d.modEntry r f).dir.map (·.name) = d.dir.map (·.name) := by
    simp only [Device.modEntry, List.map_map]
    apply List.map_congr_left
    intro e _
    simp only [Function.comp]
    split <;> rfl
  rw [e]

/-- `joinRefresh` is quiet (R111). -/
@[simp] theorem Device.joinRefresh_quiet {r : RecordName} (h : d₀.Quiet d) :
    d₀.Quiet (d.joinRefresh r) := by
  unfold Device.joinRefresh
  try dsimp only
  repeat' split
  all_goals first | exact h | simp (maxDischargeDepth := 50) (contextual := true) [h]

/-- `leaveRefresh` is quiet (R111). -/
@[simp] theorem Device.leaveRefresh_quiet {r : RecordName} (h : d₀.Quiet d) :
    d₀.Quiet (d.leaveRefresh r) := by
  unfold Device.leaveRefresh
  try dsimp only
  repeat' split
  all_goals first | exact h | simp (maxDischargeDepth := 50) (contextual := true) [h]

/-- `loseMirrorZero` is quiet (R3, R38, R66). -/
@[simp] theorem Device.loseMirrorZero_quiet {r : RecordName} (h : d₀.Quiet d) :
    d₀.Quiet (d.loseMirrorZero r) := by
  unfold Device.loseMirrorZero
  try dsimp only
  repeat' split
  all_goals first | exact h | simp (maxDischargeDepth := 50) (contextual := true) [h]

/-- `setCtx` is quiet. -/
@[simp] theorem Device.setCtx_quiet {i : SlotIndex} {c : Ctx} (h : d₀.Quiet d) :
    d₀.Quiet (d.setCtx i c) := by
  unfold Device.setCtx
  try dsimp only
  repeat' split
  all_goals first | exact h | simp (maxDischargeDepth := 50) (contextual := true) [h]

/-- `freeSlot` is quiet (R24). -/
@[simp] theorem Device.freeSlot_quiet {i : SlotIndex} (h : d₀.Quiet d) :
    d₀.Quiet (d.freeSlot i) := by
  unfold Device.freeSlot
  try dsimp only
  repeat' split
  all_goals first | exact h | simp (maxDischargeDepth := 50) (contextual := true) [h]

/-- `leaveContext` is quiet (R43). -/
@[simp] theorem Device.leaveContext_quiet {i : SlotIndex} (h : d₀.Quiet d) :
    d₀.Quiet (d.leaveContext i) := by
  unfold Device.leaveContext
  try dsimp only
  repeat' split
  all_goals first | exact h | simp (maxDischargeDepth := 50) (contextual := true) [h]

/-- `setBlock` is quiet (R154). -/
@[simp] theorem Device.setBlock_quiet {a : BlockAddr} {e : BlockEntry} (h : d₀.Quiet d) :
    d₀.Quiet (d.setBlock a e) := by
  unfold Device.setBlock
  split
  · exact h
  · exact h.keep rfl rfl rfl (fun _ => le_refl _) (.refl _) (.refl _) fun o => insertLine_ordered _ o

/-- `modBlock` is quiet. -/
@[simp] theorem Device.modBlock_quiet {a : BlockAddr} {f : BlockEntry → BlockEntry} (h : d₀.Quiet d) :
    d₀.Quiet (d.modBlock a f) := by
  refine h.keep rfl rfl rfl (fun _ => le_refl _) (.refl _) (.refl _) fun o => ?_
  have e : (d.modBlock a f).pool.table.map (fun l => l.addr.num) = d.pool.table.map fun l => l.addr.num := by
    simp only [Device.modBlock, List.map_map]
    apply List.map_congr_left
    intro l _
    simp only [Function.comp]
    split <;> rfl
  unfold Device.TableOrdered
  rw [e]
  exact o

/-- `pin` is quiet (R52, R98). -/
@[simp] theorem Device.pin_quiet {as : List BlockAddr} (h : d₀.Quiet d) :
    d₀.Quiet (d.pin as) := by
  unfold Device.pin
  try dsimp only
  repeat' split
  all_goals first | exact h | simp (maxDischargeDepth := 50) (contextual := true) [h]

/-- `toExamine` is quiet (R104). -/
@[simp] theorem Device.toExamine_quiet (h : d₀.Quiet d) : d₀.Quiet d.toExamine := Device.Quiet.inner h rfl

/-- `toRecheck` is quiet (R103). -/
@[simp] theorem Device.toRecheck_quiet (h : d₀.Quiet d) : d₀.Quiet d.toRecheck := Device.Quiet.inner h rfl

/-- `eraseOver` is quiet (R104). -/
@[simp] theorem Device.eraseOver_quiet {j : Job} (h : d₀.Quiet d) : d₀.Quiet (d.eraseOver j) := by
  unfold Device.eraseOver
  split
  · exact Device.toExamine_quiet h
  · exact h

/-- `unpin` is quiet (R53, R98). -/
@[simp] theorem Device.unpin_quiet {as : List BlockAddr} (h : d₀.Quiet d) :
    d₀.Quiet (d.unpin as) := by
  have folded : d₀.Quiet (as.foldl (fun d a => d.modBlock a fun e => { e with pins := e.pins - 1 }) d) :=
    Device.Quiet.foldl (fun _ _ h => Device.modBlock_quiet h) _ h
  unfold Device.unpin
  dsimp only
  split
  · exact Device.toExamine_quiet folded
  · exact folded

/-- `toStale` is quiet (R8, R41, R105). -/
@[simp] theorem Device.toStale_quiet {as : List BlockAddr} (h : d₀.Quiet d) : d₀.Quiet (d.toStale as) :=
  Device.Quiet.inner (Device.Quiet.foldl (fun _ _ h => Device.modBlock_quiet h) _ h) rfl

/-- `queueJob` is quiet. -/
@[simp] theorem Device.queueJob_quiet {b : Bank} {j : Job} (h : d₀.Quiet d) :
    d₀.Quiet (d.queueJob b j) := by
  unfold Device.queueJob
  try dsimp only
  repeat' split
  all_goals first | exact h | simp (maxDischargeDepth := 50) (contextual := true) [h]

/-- `advance` is quiet (R123). -/
@[simp] theorem Device.advance_quiet {b : Bank} (h : d₀.Quiet d) :
    d₀.Quiet (d.advance b) := by
  unfold Device.advance
  try dsimp only
  repeat' split
  all_goals first | exact h | simp (maxDischargeDepth := 50) (contextual := true) [h]

/-- `queueRead` is quiet. -/
@[simp] theorem Device.queueRead_quiet {a : BlockAddr} {page : Nat} {q : Queuer} (h : d₀.Quiet d) :
    d₀.Quiet (d.queueRead a page q) := by
  unfold Device.queueRead
  try dsimp only
  repeat' split
  all_goals first | exact h | simp (maxDischargeDepth := 50) (contextual := true) [h]

/-- `queueCommitRecord` is quiet (R36). -/
@[simp] theorem Device.queueCommitRecord_quiet {a : BlockAddr} {record : List Byte} {q : Queuer} (h : d₀.Quiet d) :
    d₀.Quiet (d.queueCommitRecord a record q) := by
  unfold Device.queueCommitRecord
  try dsimp only
  repeat' split
  all_goals first | exact h | simp (maxDischargeDepth := 50) (contextual := true) [h]

/-- `queueMark` is quiet (R66, R76). -/
@[simp] theorem Device.queueMark_quiet {a : BlockAddr} {kind : MarkKind} {k generation : Nat}
    {q : Queuer} (h : d₀.Quiet d) :
    d₀.Quiet (d.queueMark a kind k generation q) := by
  unfold Device.queueMark
  try dsimp only
  repeat' split
  all_goals first | exact h | simp (maxDischargeDepth := 50) (contextual := true) [h]

/-- `queueGrownBad` is quiet (R110). -/
@[simp] theorem Device.queueGrownBad_quiet {a : BlockAddr} {cause : BadCause} {page seg : Nat} (h : d₀.Quiet d) :
    d₀.Quiet (d.queueGrownBad a cause page seg) := by
  unfold Device.queueGrownBad
  try dsimp only
  repeat' split
  all_goals first | exact h | simp (maxDischargeDepth := 50) (contextual := true) [h]

/-- `makeBad` is quiet (R109). -/
@[simp] theorem Device.makeBad_quiet {a : BlockAddr} {cause : BadCause} {page seg : Nat} (h : d₀.Quiet d) :
    d₀.Quiet (d.makeBad a cause page seg) := by
  unfold Device.makeBad
  split
  · exact h
  · split
    · exact h
    · exact Device.queueGrownBad_quiet (Device.toRecheck_quiet (Device.Quiet.inner (Device.modBlock_quiet h) rfl))

/-- `programFailed` is quiet (R109, R124). -/
@[simp] theorem Device.programFailed_quiet {b : Bank} {j : Job} (h : d₀.Quiet d) :
    d₀.Quiet (d.programFailed b j) := by
  unfold Device.programFailed
  try dsimp only
  repeat' split
  all_goals first | exact h | simp (maxDischargeDepth := 50) (contextual := true) [h]

/-- `takeVersion` is quiet (R8). -/
@[simp] theorem Device.takeVersion_quiet {r : RecordName} {v : Version} (h : d₀.Quiet d) :
    d₀.Quiet (d.takeVersion r v) := by
  unfold Device.takeVersion
  try dsimp only
  repeat' split
  all_goals first | exact h | simp (maxDischargeDepth := 50) (contextual := true) [h]

/-! ### The block pool -/

/-- `allocate` is quiet (R101). -/
@[simp] theorem Device.allocate_quiet {rs : List BlockRequest} {as : List BlockAddr} (h : d₀.Quiet d) :
    d₀.Quiet (d.allocate rs as) := by
  unfold Device.allocate
  try dsimp only
  repeat' split
  all_goals first | exact h | simp (maxDischargeDepth := 50) (contextual := true) [h]

/-- `askGrant` is quiet (R103). -/
@[simp] theorem Device.askGrant_quiet {asker : Asker} {rs : List BlockRequest} (h : d₀.Quiet d) :
    d₀.Quiet (d.askGrant asker rs) := by
  unfold Device.askGrant
  try dsimp only
  repeat' split
  all_goals first | exact h | simp (maxDischargeDepth := 50) (contextual := true) [h]

/-- `withdrawGrants` is quiet (R103). -/
@[simp] theorem Device.withdrawGrants_quiet {p : Asker → Bool} (h : d₀.Quiet d) :
    d₀.Quiet (d.withdrawGrants p) := by
  unfold Device.withdrawGrants
  try dsimp only
  repeat' split
  all_goals first | exact h | simp (maxDischargeDepth := 50) (contextual := true) [h]

/-- `askDraw` is quiet (R107). -/
@[simp] theorem Device.askDraw_quiet {who : Drawer} {places : Nat} (h : d₀.Quiet d) :
    d₀.Quiet (d.askDraw who places) := by
  unfold Device.askDraw
  try dsimp only
  repeat' split
  all_goals first | exact h | simp (maxDischargeDepth := 50) (contextual := true) [h]

/-- `withdrawDraws` is quiet (R107). -/
@[simp] theorem Device.withdrawDraws_quiet {who : Drawer} (h : d₀.Quiet d) :
    d₀.Quiet (d.withdrawDraws who) := by
  unfold Device.withdrawDraws
  try dsimp only
  repeat' split
  all_goals first | exact h | simp (maxDischargeDepth := 50) (contextual := true) [h]

/-- `beginScrubErase` is quiet (R104, R105, R137). -/
@[simp] theorem Device.beginScrubErase_quiet {a : BlockAddr} {who : Eraser} (h : d₀.Quiet d) :
    d₀.Quiet (d.beginScrubErase a who) := by
  unfold Device.beginScrubErase
  try dsimp only
  repeat' split
  all_goals first | exact h | simp (maxDischargeDepth := 50) (contextual := true) [h]

/-- `eraseCounted` is quiet (R106). -/
@[simp] theorem Device.eraseCounted_quiet {a : BlockAddr} (h : d₀.Quiet d) :
    d₀.Quiet (d.eraseCounted a) := by
  unfold Device.eraseCounted
  try dsimp only
  repeat' split
  all_goals first | exact h | simp (maxDischargeDepth := 50) (contextual := true) [h]

/-- `blockFreed` is quiet (R106). -/
@[simp] theorem Device.blockFreed_quiet {a : BlockAddr} (h : d₀.Quiet d) :
    d₀.Quiet (d.blockFreed a) := by
  unfold Device.blockFreed
  dsimp only
  split
  · exact Device.Quiet.inner (Device.toRecheck_quiet (Device.modBlock_quiet h)) rfl
  · exact Device.toRecheck_quiet (Device.modBlock_quiet h)

/-- `reportRefresh` is quiet (R56). -/
@[simp] theorem Device.reportRefresh_quiet {r : RecordName} {generation : Nat} (h : d₀.Quiet d) :
    d₀.Quiet (d.reportRefresh r generation) := by
  unfold Device.reportRefresh
  try dsimp only
  repeat' split
  all_goals first | exact h | simp (maxDischargeDepth := 50) (contextual := true) [h]

/-- `reportPage` is quiet (R56, R57). -/
@[simp] theorem Device.reportPage_quiet {r : RecordName} {generation : Nat} {copy : Copy}
    {o : ReadOutcome} (h : d₀.Quiet d) :
    d₀.Quiet (d.reportPage r generation copy o) := by
  unfold Device.reportPage
  try dsimp only
  repeat' split
  all_goals first | exact h | simp (maxDischargeDepth := 50) (contextual := true) [h]

/-! ### Lookups -/

/-- `workFind` is quiet (R19, R20). -/
@[simp] theorem Device.workFind_quiet {p : Port} {id : Nat} {ns : Byte} {key : Key} (h : d₀.Quiet d) :
    d₀.Quiet (d.workFind p id ns key) := by
  unfold Device.workFind
  try dsimp only
  repeat' split
  all_goals first | exact h | simp (maxDischargeDepth := 50) (contextual := true) [h]

/-- `workList` is quiet (R19, R21). -/
@[simp] theorem Device.workList_quiet {p : Port} {id : Nat} {ns : Byte} {start : Key}
    {count : Byte} (h : d₀.Quiet d) :
    d₀.Quiet (d.workList p id ns start count) := by
  unfold Device.workList
  try dsimp only
  repeat' split
  all_goals first | exact h | simp (maxDischargeDepth := 50) (contextual := true) [h]

/-! ### READ and CHECK -/

/-- `modDamaged` is quiet (R59). -/
@[simp] theorem Device.modDamaged_quiet {r : RecordName} {generation : Nat}
    {f : List Nat → List Nat} (h : d₀.Quiet d) :
    d₀.Quiet (d.modDamaged r generation f) := by
  unfold Device.modDamaged
  try dsimp only
  repeat' split
  all_goals first | exact h | simp (maxDischargeDepth := 50) (contextual := true) [h]

/-- `readChunk` is quiet (R54). -/
@[simp] theorem Device.readChunk_quiet {id : Nat} {w : ReadWork} (h : d₀.Quiet d) :
    d₀.Quiet (d.readChunk id w).1 := by
  unfold Device.readChunk
  split
  · exact h
  · exact Device.Quiet.foldl (fun _ _ hd => Device.queueRead_quiet hd) _ h

/-- `endRead` is quiet (R53, R58, R59). -/
@[simp] theorem Device.endRead_quiet {id : Nat} {w : ReadWork} (h : d₀.Quiet d) :
    d₀.Quiet (d.endRead id w) := by
  unfold Device.endRead
  try dsimp only
  repeat' split
  all_goals first | exact h | simp (maxDischargeDepth := 50) (contextual := true) [h]

/-- `readOn` is quiet (R54, R58). -/
@[simp] theorem Device.readOn_quiet {id : Nat} {w : ReadWork} (h : d₀.Quiet d) :
    d₀.Quiet (d.readOn id w) := by
  unfold Device.readOn
  try dsimp only
  repeat' split
  all_goals first | exact h | simp (maxDischargeDepth := 50) (contextual := true) [h]

/-- `startRead` is quiet (R51, R52, R54). -/
@[simp] theorem Device.startRead_quiet {id : Nat} {e : Entry} {offset length : Nat} (h : d₀.Quiet d) :
    d₀.Quiet (d.startRead id e offset length) := by
  unfold Device.startRead
  try dsimp only
  repeat' split
  all_goals first | exact h | simp (maxDischargeDepth := 50) (contextual := true) [h]

/-- `workRead` is quiet (R49, R51, R52, R54). -/
@[simp] theorem Device.workRead_quiet {p : Port} {id : Nat} {ns : Byte} {key : Key}
    {offset length : BitVec 16} (h : d₀.Quiet d) :
    d₀.Quiet (d.workRead p id ns key offset length) := by
  unfold Device.workRead
  try dsimp only
  repeat' split
  all_goals first | exact h | simp (maxDischargeDepth := 50) (contextual := true) [h]

/-- `readPageDone` is quiet (R54, R56 to R58). -/
@[simp] theorem Device.readPageDone_quiet {id chunk page : Nat} {copy : Copy} {o : ReadOutcome}
    {data : List Byte} (h : d₀.Quiet d) :
    d₀.Quiet (d.readPageDone id chunk page copy o data) := by
  unfold Device.readPageDone
  try dsimp only
  repeat' split
  all_goals first | exact h | simp (maxDischargeDepth := 50) (contextual := true) [h]

/-- `checkChunk` is quiet (R55). -/
theorem Device.checkChunk_quiet {id : Nat} {pages : List Nat} {x : Device × CheckWork} {i : Nat} (h : d₀.Quiet x.1) :
    d₀.Quiet (Device.checkChunk id pages x i).1 := by
  unfold Device.checkChunk
  dsimp only
  split
  · exact h
  · split
    · exact h
    · exact Device.Quiet.foldl (fun _ _ hd => Device.queueRead_quiet hd) _ h

/-- `checkOn` is quiet (R53, R55, R58, R59). -/
@[simp] theorem Device.checkOn_quiet {id : Nat} {w : CheckWork} (h : d₀.Quiet d) :
    d₀.Quiet (d.checkOn id w) := by
  unfold Device.checkOn
  try dsimp only
  repeat' split
  all_goals first | exact h | simp (maxDischargeDepth := 50) (contextual := true) [h]

/-- `startCheck` is quiet (R51, R52, R55). -/
@[simp] theorem Device.startCheck_quiet {id : Nat} {e : Entry} (h : d₀.Quiet d) :
    d₀.Quiet (d.startCheck id e) := by
  unfold Device.startCheck
  dsimp only
  exact Device.checkOn_quiet (Device.Quiet.foldlFst (fun _ _ hy => Device.checkChunk_quiet hy) _
    (Device.checkChunk_quiet (Device.pin_quiet h)))

/-- `workCheck` is quiet (R50 to R52, R55). -/
@[simp] theorem Device.workCheck_quiet {p : Port} {id : Nat} {ns : Byte} {key : Key} (h : d₀.Quiet d) :
    d₀.Quiet (d.workCheck p id ns key) := by
  unfold Device.workCheck
  try dsimp only
  repeat' split
  all_goals first | exact h | simp (maxDischargeDepth := 50) (contextual := true) [h]

/-- `checkPageDone` is quiet (R55 to R58). -/
@[simp] theorem Device.checkPageDone_quiet {id chunk page : Nat} {copy : Copy} {o : ReadOutcome}
    {data : List Byte} (h : d₀.Quiet d) :
    d₀.Quiet (d.checkPageDone id chunk page copy o data) := by
  unfold Device.checkPageDone
  try dsimp only
  repeat' split
  all_goals first | exact h | simp (maxDischargeDepth := 50) (contextual := true) [h]

/-! ### Update contexts -/

/-- `enterContext` is quiet (R43). -/
@[simp] theorem Device.enterContext_quiet {i : SlotIndex} (h : d₀.Quiet d) :
    d₀.Quiet (d.enterContext i) := by
  unfold Device.enterContext
  try dsimp only
  repeat' split
  all_goals first | exact h | simp (maxDischargeDepth := 50) (contextual := true) [h]

/-- `completeNaming` is quiet (R43). -/
@[simp] theorem Device.completeNaming_quiet {i : SlotIndex} {id : Nat} {r : Result}
    {reply : List Byte} (h : d₀.Quiet d) :
    d₀.Quiet (d.completeNaming i id r reply) := by
  unfold Device.completeNaming
  try dsimp only
  repeat' split
  all_goals first | exact h | simp (maxDischargeDepth := 50) (contextual := true) [h]

/-- Checks that all pass fail in none of their parts. -/
theorem firstFailure_append {xs ys : List (Bool × Result)} (h : firstFailure (xs ++ ys) = none) :
    firstFailure xs = none ∧ firstFailure ys = none := by
  induction xs with
  | nil => exact ⟨rfl, h⟩
  | cons x xs ih =>
    obtain ⟨failed, r⟩ := x
    cases failed
    · exact ih h
    · cases h

/-- What `workOpen` can do (R26 to R29): it is quiet, or quiet but for a new entry that its checks made room for. -/
theorem Device.workOpen_room {p : Port} {id : Nat} {ns : Byte} {key : Key} {length : BitVec 16} {mode : Byte}
    (h : d₀.Quiet d) :
    d₀.Quiet (d.workOpen p id ns key length mode)
    ∨ ∃ d₁ e, d₀.Quiet d₁ ∧ d₁.entry? e.name = none ∧ d₁.dir.length < 1024
        ∧ d₁.recordCount e.name.ns < (d₁.desc e.name.ns).recordLimit
        ∧ (d₁.insertRecord e).Quiet (d.workOpen p id ns key length mode) := by
  unfold Device.workOpen
  split
  · exact .inl (Device.complete_quiet h)
  · rename_i checks
    split
    · rename_i n i hn hi
      dsimp only
      cases he : d.entry? { ns := n, key := key } with
      | none =>
        obtain ⟨-, rest⟩ := firstFailure_append checks
        rw [hn] at rest
        obtain ⟨room, -⟩ := firstFailure_append rest
        simp only [Device.modeChecks, he, firstFailure] at room
        split at room
        · cases room
        split at room
        · cases room
        split at room
        · cases room
        rename_i full limit
        refine .inr ⟨d.setCtx i (d.newContext p { ns := n, key := key } length.toNat none),
          reservedEntry { ns := n, key := key } (d.handle i), Device.setCtx_quiet h, he, ?_, ?_, ?_⟩
        · exact Nat.lt_of_not_le (mt (decide_eq_true (p := 1024 ≤ d.dir.length)) full)
        · exact Nat.lt_of_not_le (mt (decide_eq_true (p := (d.desc n).recordLimit ≤ d.recordCount n)) limit)
        · simp only [Device.openContext, he]
          exact Device.complete_quiet (.refl _)
      | some e =>
        refine .inl (Device.complete_quiet ?_)
        simp only [Device.openContext, he]
        exact Device.modEntry_quiet (Device.setCtx_quiet h)
    · exact .inl (Device.complete_quiet h)

/-- `reavoidPut` is quiet (R34, log 11). -/
@[simp] theorem Device.reavoidPut_quiet {id : Nat} {r : ChunkRecord} (h : d₀.Quiet d) :
    d₀.Quiet (d.reavoidPut id r) := by
  unfold Device.reavoidPut
  try dsimp only
  repeat' split
  all_goals first | exact h | simp (maxDischargeDepth := 50) (contextual := true) [h]

/-- `beginPut` is quiet (R30, R31). -/
@[simp] theorem Device.beginPut_quiet {i : SlotIndex} {c : Ctx} {id : Nat} {k : Nat}
    {data : List Byte} (h : d₀.Quiet d) :
    d₀.Quiet (d.beginPut i c id k data) := by
  unfold Device.beginPut
  try dsimp only
  repeat' split
  all_goals first | exact h | simp (maxDischargeDepth := 50) (contextual := true) [h]

/-- `workPut` is quiet (R25, R30, R31). -/
@[simp] theorem Device.workPut_quiet {p : Port} {id : Nat} {handle : BitVec 16} {index : Byte}
    {data : List Byte} (h : d₀.Quiet d) :
    d₀.Quiet (d.workPut p id handle index data) := by
  unfold Device.workPut
  try dsimp only
  repeat' split
  all_goals first | exact h | simp (maxDischargeDepth := 50) (contextual := true) [h]

/-- `placeCopy` is quiet (R31, R32). -/
@[simp] theorem Device.placeCopy_quiet {id : Nat} {w : PutWork} {copy : Copy} {a : BlockAddr} (h : d₀.Quiet d) :
    d₀.Quiet (d.placeCopy id w copy a).1 := by
  unfold Device.placeCopy
  split
  · simp (maxDischargeDepth := 50) [h]
  · exact h

/-- `putGranted` is quiet (R31, R34). -/
@[simp] theorem Device.putGranted_quiet {id : Nat} {again : Option Copy} {as : List BlockAddr} (h : d₀.Quiet d) :
    d₀.Quiet (d.putGranted id again as) := by
  unfold Device.putGranted
  try dsimp only
  repeat' split
  all_goals first | exact h | simp (maxDischargeDepth := 50) (contextual := true) [h]

/-- `tryFinishAbandon` is quiet (R41). -/
@[simp] theorem Device.tryFinishAbandon_quiet {i : SlotIndex} (h : d₀.Quiet d) :
    d₀.Quiet (d.tryFinishAbandon i) := by
  unfold Device.tryFinishAbandon
  try dsimp only
  repeat' split
  all_goals first | exact h | simp (maxDischargeDepth := 50) (contextual := true) [h]

/-- `putEnd` is quiet (R34, R42, log 11). -/
@[simp] theorem Device.putEnd_quiet {id : Nat} {w : PutWork} (h : d₀.Quiet d) :
    d₀.Quiet (d.putEnd id w) := by
  unfold Device.putEnd
  try dsimp only
  repeat' split
  all_goals first | exact h | simp (maxDischargeDepth := 50) (contextual := true) [h]

/-- `cutPut` is quiet (R42). -/
@[simp] theorem Device.cutPut_quiet {id : Nat} (h : d₀.Quiet d) :
    d₀.Quiet (d.cutPut id) := by
  unfold Device.cutPut
  try dsimp only
  repeat' split
  all_goals first | exact h | simp (maxDischargeDepth := 50) (contextual := true) [h]

/-- `beginAbandon` is quiet (R41). -/
@[simp] theorem Device.beginAbandon_quiet {i : SlotIndex} (h : d₀.Quiet d) :
    d₀.Quiet (d.beginAbandon i) := by
  unfold Device.beginAbandon
  try dsimp only
  repeat' split
  all_goals first | exact h | simp (maxDischargeDepth := 50) (contextual := true) [h]

/-- `putRefused` is quiet (R31, R34). -/
@[simp] theorem Device.putRefused_quiet {id : Nat} (h : d₀.Quiet d) :
    d₀.Quiet (d.putRefused id) := by
  unfold Device.putRefused
  try dsimp only
  repeat' split
  all_goals first | exact h | simp (maxDischargeDepth := 50) (contextual := true) [h]

/-- `putPresent` is quiet (R35). -/
@[simp] theorem Device.putPresent_quiet {id : Nat} {w : PutWork} (h : d₀.Quiet d) :
    d₀.Quiet (d.putPresent id w) := by
  unfold Device.putPresent
  try dsimp only
  repeat' split
  all_goals first | exact h | simp (maxDischargeDepth := 50) (contextual := true) [h]

/-- `putJobOk` is quiet (R32, R35). -/
@[simp] theorem Device.putJobOk_quiet {id : Nat} {w : PutWork} {copy : Copy} {r : CopyRun} (h : d₀.Quiet d) :
    d₀.Quiet (d.putJobOk id w copy r) := by
  unfold Device.putJobOk
  try dsimp only
  repeat' split
  all_goals first | exact h | simp (maxDischargeDepth := 50) (contextual := true) [h]

/-- `putBlockLost` is quiet (R33, R34). -/
@[simp] theorem Device.putBlockLost_quiet {id : Nat} {w : PutWork} {copy : Copy} (h : d₀.Quiet d) :
    d₀.Quiet (d.putBlockLost id w copy) := by
  unfold Device.putBlockLost
  try dsimp only
  repeat' split
  all_goals first | exact h | simp (maxDischargeDepth := 50) (contextual := true) [h]

/-- `putJobFailed` is quiet (R34). -/
@[simp] theorem Device.putJobFailed_quiet {id : Nat} {w : PutWork} {copy : Copy} {r : CopyRun} (h : d₀.Quiet d) :
    d₀.Quiet (d.putJobFailed id w copy r) := by
  unfold Device.putJobFailed
  try dsimp only
  repeat' split
  all_goals first | exact h | simp (maxDischargeDepth := 50) (contextual := true) [h]

/-- `putProgramDone` is quiet (R32, R34, R35). -/
@[simp] theorem Device.putProgramDone_quiet {b : Bank} {j : Job} {id : Nat} {copy : Copy}
    {o : OkFail} (h : d₀.Quiet d) :
    d₀.Quiet (d.putProgramDone b j id copy o) := by
  unfold Device.putProgramDone
  try dsimp only
  repeat' split
  all_goals first | exact h | simp (maxDischargeDepth := 50) (contextual := true) [h]

/-- `beginCommit` is quiet (R36). -/
@[simp] theorem Device.beginCommit_quiet {i : SlotIndex} {c : Ctx} {id : Nat} (h : d₀.Quiet d) :
    d₀.Quiet (d.beginCommit i c id) := by
  unfold Device.beginCommit
  try dsimp only
  repeat' split
  all_goals first | exact h | simp (maxDischargeDepth := 50) (contextual := true) [h]

/-- `workCommit` is quiet (R25, R36). -/
@[simp] theorem Device.workCommit_quiet {p : Port} {id : Nat} {handle : BitVec 16} (h : d₀.Quiet d) :
    d₀.Quiet (d.workCommit p id handle) := by
  unfold Device.workCommit
  try dsimp only
  repeat' split
  all_goals first | exact h | simp (maxDischargeDepth := 50) (contextual := true) [h]

/-- `workAbandon` is quiet (R25, R42). -/
@[simp] theorem Device.workAbandon_quiet {p : Port} {id : Nat} {handle : BitVec 16} (h : d₀.Quiet d) :
    d₀.Quiet (d.workAbandon p id handle) := by
  unfold Device.workAbandon
  try dsimp only
  repeat' split
  all_goals first | exact h | simp (maxDischargeDepth := 50) (contextual := true) [h]

/-- `timerExpired` is quiet (R44). -/
@[simp] theorem Device.timerExpired_quiet {i : SlotIndex} (h : d₀.Quiet d) :
    d₀.Quiet (d.timerExpired i) := by
  unfold Device.timerExpired
  try dsimp only
  repeat' split
  all_goals first | exact h | simp (maxDischargeDepth := 50) (contextual := true) [h]

/-- `commitDone` is quiet (R37, R38). -/
@[simp] theorem Device.commitDone_quiet {i : SlotIndex} {c : Ctx} (h : d₀.Quiet d) :
    d₀.Quiet (d.commitDone i c) := by
  unfold Device.commitDone
  try dsimp only
  repeat' split
  all_goals first | exact h | simp (maxDischargeDepth := 50) (contextual := true) [h]

/-- `commitPoint` is quiet (R37). -/
@[simp] theorem Device.commitPoint_quiet {i : SlotIndex} (h : d₀.Quiet d) :
    d₀.Quiet (d.commitPoint i) := by
  unfold Device.commitPoint
  try dsimp only
  repeat' split
  all_goals first | exact h | simp (maxDischargeDepth := 50) (contextual := true) [h]

/-- `commitFailed` is quiet (R40). -/
@[simp] theorem Device.commitFailed_quiet {i : SlotIndex} (h : d₀.Quiet d) :
    d₀.Quiet (d.commitFailed i) := by
  unfold Device.commitFailed
  try dsimp only
  repeat' split
  all_goals first | exact h | simp (maxDischargeDepth := 50) (contextual := true) [h]

/-- `commitRecordDone` is quiet (R37, R39). -/
@[simp] theorem Device.commitRecordDone_quiet {b : Bank} {j : Job} {i : SlotIndex} {o : OkFail} (h : d₀.Quiet d) :
    d₀.Quiet (d.commitRecordDone b j i o) := by
  unfold Device.commitRecordDone
  try dsimp only
  repeat' split
  all_goals first | exact h | simp (maxDischargeDepth := 50) (contextual := true) [h]

/-- `mirrorCommitRecordDone` is quiet (R37, R38). -/
@[simp] theorem Device.mirrorCommitRecordDone_quiet {b : Bank} {j : Job} {i : SlotIndex}
    {o : OkFail} (h : d₀.Quiet d) :
    d₀.Quiet (d.mirrorCommitRecordDone b j i o) := by
  unfold Device.mirrorCommitRecordDone
  try dsimp only
  repeat' split
  all_goals first | exact h | simp (maxDischargeDepth := 50) (contextual := true) [h]

/-- `commitDrawn` is quiet (R39). -/
@[simp] theorem Device.commitDrawn_quiet {i : SlotIndex} (h : d₀.Quiet d) :
    d₀.Quiet (d.commitDrawn i) := by
  unfold Device.commitDrawn
  try dsimp only
  repeat' split
  all_goals first | exact h | simp (maxDischargeDepth := 50) (contextual := true) [h]

/-- `commitGranted` is quiet (R39). -/
@[simp] theorem Device.commitGranted_quiet {i : SlotIndex} {as : List BlockAddr} (h : d₀.Quiet d) :
    d₀.Quiet (d.commitGranted i as) := by
  unfold Device.commitGranted
  try dsimp only
  repeat' split
  all_goals first | exact h | simp (maxDischargeDepth := 50) (contextual := true) [h]

/-- `commitRefused` is quiet. -/
@[simp] theorem Device.commitRefused_quiet {i : SlotIndex} (h : d₀.Quiet d) :
    d₀.Quiet (d.commitRefused i) := by
  unfold Device.commitRefused
  try dsimp only
  repeat' split
  all_goals first | exact h | simp (maxDischargeDepth := 50) (contextual := true) [h]

/-- `commitCopyReadDone` is quiet (R39, R40, log 13). -/
@[simp] theorem Device.commitCopyReadDone_quiet {i : SlotIndex} {copy : Copy} {o : ReadOutcome}
    {data : List Byte} (h : d₀.Quiet d) :
    d₀.Quiet (d.commitCopyReadDone i copy o data) := by
  unfold Device.commitCopyReadDone
  try dsimp only
  repeat' split
  all_goals first | exact h | simp (maxDischargeDepth := 50) (contextual := true) [h]

/-- `commitCopyProgramDone` is quiet (R39, R40). -/
@[simp] theorem Device.commitCopyProgramDone_quiet {b : Bank} {j : Job} {i : SlotIndex}
    {o : OkFail} (h : d₀.Quiet d) :
    d₀.Quiet (d.commitCopyProgramDone b j i o) := by
  unfold Device.commitCopyProgramDone
  try dsimp only
  repeat' split
  all_goals first | exact h | simp (maxDischargeDepth := 50) (contextual := true) [h]

/-! ### Relocations -/

/-- `setReloc` is quiet. -/
@[simp] theorem Device.setReloc_quiet {id : RelocId} {r : Reloc} (h : d₀.Quiet d) :
    d₀.Quiet (d.setReloc id r) := by
  unfold Device.setReloc
  split
  · exact Device.Quiet.inner h rfl
  · split
    · exact Device.setWork_quiet h
    · exact h

/-- `startReloc` is quiet (R68, R140). -/
@[simp] theorem Device.startReloc_quiet {id : RelocId} {r : Reloc} (h : d₀.Quiet d) :
    d₀.Quiet (d.startReloc id r) := by
  unfold Device.startReloc
  try dsimp only
  repeat' split
  all_goals first | exact h | simp (maxDischargeDepth := 50) (contextual := true) [h]

/-- `finishReloc` is quiet (R69, R143). -/
@[simp] theorem Device.finishReloc_quiet {id : RelocId} {r : Reloc} {cause : RelocEnd} (h : d₀.Quiet d) :
    d₀.Quiet (d.finishReloc id r cause) := by
  unfold Device.finishReloc
  dsimp only
  split <;> split <;>
  first
  | exact Device.complete_quiet (by simp (maxDischargeDepth := 50) [h])
  | exact Device.Quiet.inner (by simp (maxDischargeDepth := 50) [h]) rfl

/-- `relocWait` is quiet (R143, log 15). -/
@[simp] theorem Device.relocWait_quiet {id : RelocId} {r : Reloc} (h : d₀.Quiet d) :
    d₀.Quiet (d.relocWait id r) := by
  unfold Device.relocWait
  repeat' split
  all_goals simp (maxDischargeDepth := 50) [h]

/-- `endReloc` is quiet (R69, R143). -/
@[simp] theorem Device.endReloc_quiet {id : RelocId} {r : Reloc} {cause : RelocEnd} (h : d₀.Quiet d) :
    d₀.Quiet (d.endReloc id r cause) := by
  unfold Device.endReloc
  try dsimp only
  repeat' split
  all_goals first | exact h | simp (maxDischargeDepth := 50) (contextual := true) [h]

/-- `relocChunk` is quiet. -/
@[simp] theorem Device.relocChunk_quiet {id : RelocId} {r : Reloc} (h : d₀.Quiet d) :
    d₀.Quiet (d.relocChunk id r) := by
  unfold Device.relocChunk
  try dsimp only
  repeat' split
  all_goals first | exact h | simp (maxDischargeDepth := 50) (contextual := true) [h]

/-- `reavoidReloc` is quiet (R101). -/
@[simp] theorem Device.reavoidReloc_quiet {id : RelocId} {r : Reloc} (h : d₀.Quiet d) :
    d₀.Quiet (d.reavoidReloc id r) := by
  unfold Device.reavoidReloc
  try dsimp only
  repeat' split
  all_goals first | exact h | simp (maxDischargeDepth := 50) (contextual := true) [h]

/-- `relocCopyInto` is quiet. -/
@[simp] theorem Device.relocCopyInto_quiet {id : RelocId} {x : Device × Reloc} {copy : Copy} {a : BlockAddr}
    (h : d₀.Quiet x.1) : d₀.Quiet (Device.relocCopyInto id x copy a).1 := by
  unfold Device.relocCopyInto
  split
  · exact h
  · exact Device.queueJob_quiet h

/-- `relocPrograms` is quiet (R69, R142). -/
@[simp] theorem Device.relocPrograms_quiet {id : RelocId} {r : Reloc} {free : BitVec 32} (h : d₀.Quiet d) :
    d₀.Quiet (d.relocPrograms id r free) := by
  unfold Device.relocPrograms
  try dsimp only
  repeat' split
  all_goals first | exact h | simp (maxDischargeDepth := 50) (contextual := true) [h]

/-- `relocReadDone` is quiet (R69, R141). -/
@[simp] theorem Device.relocReadDone_quiet {id : RelocId} {chunk page : Nat} {copy : Copy} {o : ReadOutcome}
    {data : List Byte} {free : BitVec 32} (h : d₀.Quiet d) :
    d₀.Quiet (d.relocReadDone id chunk page copy o data free) := by
  unfold Device.relocReadDone
  try dsimp only
  repeat' split
  all_goals first | exact h | simp (maxDischargeDepth := 50) (contextual := true) [h]

/-- `relocChunkDone` is quiet (R69, R142). -/
@[simp] theorem Device.relocChunkDone_quiet {id : RelocId} {r : Reloc} (h : d₀.Quiet d) :
    d₀.Quiet (d.relocChunkDone id r) := by
  unfold Device.relocChunkDone
  try dsimp only
  repeat' split
  all_goals first | exact h | simp (maxDischargeDepth := 50) (contextual := true) [h]

/-- `relocJobOk` is quiet. -/
@[simp] theorem Device.relocJobOk_quiet {id : RelocId} {r : Reloc} {copy : Copy} {x : CopyRun} (h : d₀.Quiet d) :
    d₀.Quiet (d.relocJobOk id r copy x) := by
  unfold Device.relocJobOk
  try dsimp only
  repeat' split
  all_goals first | exact h | simp (maxDischargeDepth := 50) (contextual := true) [h]

/-- `relocJobFailed` is quiet (R69, R141). -/
@[simp] theorem Device.relocJobFailed_quiet {id : RelocId} {r : Reloc} {copy : Copy} {x : CopyRun} (h : d₀.Quiet d) :
    d₀.Quiet (d.relocJobFailed id r copy x) := by
  unfold Device.relocJobFailed
  try dsimp only
  repeat' split
  all_goals first | exact h | simp (maxDischargeDepth := 50) (contextual := true) [h]

/-- `relocProgramDone` is quiet (R69, R141). -/
@[simp] theorem Device.relocProgramDone_quiet {b : Bank} {j : Job} {id : RelocId} {copy : Copy}
    {o : OkFail} (h : d₀.Quiet d) :
    d₀.Quiet (d.relocProgramDone b j id copy o) := by
  unfold Device.relocProgramDone
  try dsimp only
  repeat' split
  all_goals first | exact h | simp (maxDischargeDepth := 50) (contextual := true) [h]

/-- `relocDrawn` is quiet (R68, R140). -/
@[simp] theorem Device.relocDrawn_quiet {id : RelocId} (h : d₀.Quiet d) :
    d₀.Quiet (d.relocDrawn id) := by
  unfold Device.relocDrawn
  try dsimp only
  repeat' split
  all_goals first | exact h | simp (maxDischargeDepth := 50) (contextual := true) [h]

/-- `relocGranted` is quiet (R68, R69, R140, R141). -/
@[simp] theorem Device.relocGranted_quiet {id : RelocId} {again : Option Copy}
    {as : List BlockAddr} (h : d₀.Quiet d) :
    d₀.Quiet (d.relocGranted id again as) := by
  unfold Device.relocGranted
  try dsimp only
  repeat' split
  all_goals first | exact h | simp (maxDischargeDepth := 50) (contextual := true) [h]

/-- `relocRefused` is quiet (R68, R69, R140, R141). -/
@[simp] theorem Device.relocRefused_quiet {id : RelocId} {again : Option Copy} (h : d₀.Quiet d) :
    d₀.Quiet (d.relocRefused id again) := by
  unfold Device.relocRefused
  try dsimp only
  repeat' split
  all_goals first | exact h | simp (maxDischargeDepth := 50) (contextual := true) [h]

/-- `markEffect` is quiet (R66). -/
@[simp] theorem Device.markEffect_quiet {kind : MarkKind} {r : RecordName} (h : d₀.Quiet d) :
    d₀.Quiet (d.markEffect kind r) := by
  unfold Device.markEffect
  split
  · exact Device.modEntry_quiet h
  · exact Device.Quiet.inner (Device.modEntry_quiet h) rfl
  · exact Device.modEntry_quiet h
  · exact h

/-- `relocEffect` is quiet (R8, R69). -/
@[simp] theorem Device.relocEffect_quiet {r : Reloc} (h : d₀.Quiet d) :
    d₀.Quiet (d.relocEffect r) := by
  unfold Device.relocEffect
  split
  · exact Device.Quiet.inner (Device.markEffect_quiet h) rfl
  · exact h
  · exact h

/-- `relocDone` is quiet (R69). -/
@[simp] theorem Device.relocDone_quiet {id : RelocId} {r : Reloc} (h : d₀.Quiet d) :
    d₀.Quiet (d.relocDone id r) := by
  unfold Device.relocDone
  dsimp only
  split
  · exact Device.complete_quiet (Device.modEntry_quiet h)
  · exact Device.Quiet.inner (Device.modEntry_quiet h) rfl

/-- `relocCommitDone` is quiet (R69, R142). -/
@[simp] theorem Device.relocCommitDone_quiet {b : Bank} {j : Job} {id : RelocId} {o : OkFail} (h : d₀.Quiet d) :
    d₀.Quiet (d.relocCommitDone b j id o) := by
  unfold Device.relocCommitDone
  try dsimp only
  repeat' split
  all_goals first | exact h | simp (maxDischargeDepth := 50) (contextual := true) [h]

/-- `relocMirrorCommitDone` is quiet (R38, R69, R142). -/
@[simp] theorem Device.relocMirrorCommitDone_quiet {b : Bank} {j : Job} {id : RelocId} {o : OkFail} (h : d₀.Quiet d) :
    d₀.Quiet (d.relocMirrorCommitDone b j id o) := by
  unfold Device.relocMirrorCommitDone
  try dsimp only
  repeat' split
  all_goals first | exact h | simp (maxDischargeDepth := 50) (contextual := true) [h]

/-! ### Marks -/

/-- `startMarkReloc` is quiet (R65, R68). -/
@[simp] theorem Device.startMarkReloc_quiet {id : Nat} {kind : MarkKind} {e : Entry} (h : d₀.Quiet d) :
    d₀.Quiet (d.startMarkReloc id kind e) := by
  unfold Device.startMarkReloc
  try dsimp only
  repeat' split
  all_goals first | exact h | simp (maxDischargeDepth := 50) (contextual := true) [h]

/-- `beginMark` is quiet (R65, R66). -/
@[simp] theorem Device.beginMark_quiet {id : Nat} {kind : MarkKind} {e : Entry} (h : d₀.Quiet d) :
    d₀.Quiet (d.beginMark id kind e) := by
  unfold Device.beginMark
  try dsimp only
  repeat' split
  all_goals first | exact h | simp (maxDischargeDepth := 50) (contextual := true) [h]

/-- `markDone` is quiet (R65, R66). -/
@[simp] theorem Device.markDone_quiet {id : Nat} {r : RecordName} (h : d₀.Quiet d) :
    d₀.Quiet (d.markDone id r) := by
  unfold Device.markDone
  try dsimp only
  repeat' split
  all_goals first | exact h | simp (maxDischargeDepth := 50) (contextual := true) [h]

/-- `markPoint` is quiet (R66). -/
@[simp] theorem Device.markPoint_quiet {kind : MarkKind} {slot : Nat} {r : RecordName} (h : d₀.Quiet d) :
    d₀.Quiet (d.markPoint kind slot r) := by
  unfold Device.markPoint
  try dsimp only
  repeat' split
  all_goals first | exact h | simp (maxDischargeDepth := 50) (contextual := true) [h]

/-- `markProgramDone` is quiet (R66, R67). -/
@[simp] theorem Device.markProgramDone_quiet {b : Bank} {j : Job} {id : Nat} {o : OkFail} (h : d₀.Quiet d) :
    d₀.Quiet (d.markProgramDone b j id o) := by
  unfold Device.markProgramDone
  try dsimp only
  repeat' split
  all_goals first | exact h | simp (maxDischargeDepth := 50) (contextual := true) [h]

/-- `mirrorMarkDone` is quiet (R66). -/
@[simp] theorem Device.mirrorMarkDone_quiet {b : Bank} {j : Job} {id : Nat} {o : OkFail} (h : d₀.Quiet d) :
    d₀.Quiet (d.mirrorMarkDone b j id o) := by
  unfold Device.mirrorMarkDone
  try dsimp only
  repeat' split
  all_goals first | exact h | simp (maxDischargeDepth := 50) (contextual := true) [h]

/-- `workRetire` is quiet (R71). -/
@[simp] theorem Device.workRetire_quiet {p : Port} {id : Nat} {ns : Byte} {key : Key} (h : d₀.Quiet d) :
    d₀.Quiet (d.workRetire p id ns key) := by
  unfold Device.workRetire
  try dsimp only
  repeat' split
  all_goals first | exact h | simp (maxDischargeDepth := 50) (contextual := true) [h]

/-- `workRestore` is quiet (R73). -/
@[simp] theorem Device.workRestore_quiet {p : Port} {id : Nat} {ns : Byte} {key : Key} (h : d₀.Quiet d) :
    d₀.Quiet (d.workRestore p id ns key) := by
  unfold Device.workRestore
  try dsimp only
  repeat' split
  all_goals first | exact h | simp (maxDischargeDepth := 50) (contextual := true) [h]

/-! ### Holds and freezes -/

/-- `workHold` is quiet (R85). -/
@[simp] theorem Device.workHold_quiet {p : Port} {id : Nat} {ns : Byte} {key : Key} (h : d₀.Quiet d) :
    d₀.Quiet (d.workHold p id ns key) := by
  unfold Device.workHold
  try dsimp only
  repeat' split
  all_goals first | exact h | simp (maxDischargeDepth := 50) (contextual := true) [h]

/-- `workRelease` is quiet (R86). -/
@[simp] theorem Device.workRelease_quiet {p : Port} {id : Nat} {ns : Byte} {key : Key} (h : d₀.Quiet d) :
    d₀.Quiet (d.workRelease p id ns key) := by
  unfold Device.workRelease
  try dsimp only
  repeat' split
  all_goals first | exact h | simp (maxDischargeDepth := 50) (contextual := true) [h]

/-- `workFreeze` is quiet (R88). -/
@[simp] theorem Device.workFreeze_quiet {p : Port} {id : Nat} {ns : Byte} {key : Key} (h : d₀.Quiet d) :
    d₀.Quiet (d.workFreeze p id ns key) := by
  unfold Device.workFreeze
  try dsimp only
  repeat' split
  all_goals first | exact h | simp (maxDischargeDepth := 50) (contextual := true) [h]

/-! ### Purge -/

/-- `queueOverwrite` is quiet (R78, R125). -/
@[simp] theorem Device.queueOverwrite_quiet {a : BlockAddr} {page : Nat} (h : d₀.Quiet d) :
    d₀.Quiet (d.queueOverwrite a page) := by
  unfold Device.queueOverwrite
  try dsimp only
  repeat' split
  all_goals first | exact h | simp (maxDischargeDepth := 50) (contextual := true) [h]

/-- `workMember` is quiet (R77, R78). -/
@[simp] theorem Device.workMember_quiet {w : PurgeWork} {set : List PurgeMember} {m : PurgeMember} (h : d₀.Quiet d) :
    d₀.Quiet (d.workMember w set m) := by
  unfold Device.workMember
  dsimp only
  split
  · exact Device.queueJob_quiet (Device.Quiet.inner h rfl)
  · split
    · exact Device.queueOverwrite_quiet (Device.Quiet.inner h rfl)
    · exact Device.queueJob_quiet (Device.Quiet.inner (Device.modBlock_quiet (Device.Quiet.inner h rfl)) rfl)
  · exact Device.queueOverwrite_quiet (Device.Quiet.inner h rfl)

/-- `beginErase` is quiet (R77). -/
@[simp] theorem Device.beginErase_quiet {w : PurgeWork} (h : d₀.Quiet d) :
    d₀.Quiet (d.beginErase w) := by
  unfold Device.beginErase
  try dsimp only
  repeat' split
  all_goals first | exact h | simp (maxDischargeDepth := 50) (contextual := true) [h]

/-- `purgeMirrorMark` is quiet (R76). -/
@[simp] theorem Device.purgeMirrorMark_quiet {w : PurgeWork} (h : d₀.Quiet d) :
    d₀.Quiet (d.purgeMirrorMark w) := by
  unfold Device.purgeMirrorMark
  try dsimp only
  repeat' split
  all_goals first | exact h | simp (maxDischargeDepth := 50) (contextual := true) [h]

/-- `beginPurgeRecord` is quiet (R76). -/
@[simp] theorem Device.beginPurgeRecord_quiet {w : PurgeWork} (h : d₀.Quiet d) :
    d₀.Quiet (d.beginPurgeRecord w) := by
  unfold Device.beginPurgeRecord
  try dsimp only
  repeat' split
  all_goals first | exact h | simp (maxDischargeDepth := 50) (contextual := true) [h]

/-- `finishPurgeRecord` is quiet (R79). -/
@[simp] theorem Device.finishPurgeRecord_quiet {w : PurgeWork} (h : d₀.Quiet d) :
    d₀.Quiet (d.finishPurgeRecord w) := by
  have disowned : d₀.Quiet { d with pool := { d.pool with table := d.pool.table.map (BlockLine.disown w.current) } } := by
    refine h.keep rfl rfl rfl (fun _ => le_refl _) (.refl _) (.refl _) fun o => ?_
    have e : (d.pool.table.map (BlockLine.disown w.current)).map (fun l => l.addr.num)
        = d.pool.table.map fun l => l.addr.num := by
      rw [List.map_map]
      apply List.map_congr_left
      intro l _
      simp only [Function.comp, BlockLine.disown]
      split <;> rfl
    unfold Device.TableOrdered
    rw [e]
    exact o
  unfold Device.finishPurgeRecord
  dsimp only
  split
  · exact Device.beginPurgeRecord_quiet (Device.removeRecord_quiet disowned)
  · exact Device.complete_quiet (Device.Quiet.inner (Device.removeRecord_quiet disowned) rfl)
  · exact Device.Quiet.inner (Device.removeRecord_quiet disowned) rfl

/-- `startPurge` is quiet (R75, R76). -/
@[simp] theorem Device.startPurge_quiet {id : Nat} {first : RecordName} {rest : List RecordName}
    {skipped : Nat} (h : d₀.Quiet d) :
    d₀.Quiet (d.startPurge id first rest skipped) := by
  unfold Device.startPurge
  try dsimp only
  repeat' split
  all_goals first | exact h | simp (maxDischargeDepth := 50) (contextual := true) [h]

/-- `workPurge` is quiet (R75). -/
@[simp] theorem Device.workPurge_quiet {p : Port} {id : Nat} (h : d₀.Quiet d) :
    d₀.Quiet (d.workPurge p id) := by
  unfold Device.workPurge
  try dsimp only
  repeat' split
  all_goals first | exact h | simp (maxDischargeDepth := 50) (contextual := true) [h]

/-- `purgeMarkDone` is quiet (R76). -/
@[simp] theorem Device.purgeMarkDone_quiet {b : Bank} {j : Job} {o : OkFail} (h : d₀.Quiet d) :
    d₀.Quiet (d.purgeMarkDone b j o) := by
  unfold Device.purgeMarkDone
  try dsimp only
  repeat' split
  all_goals first | exact h | simp (maxDischargeDepth := 50) (contextual := true) [h]

/-- `memberTo` is quiet. -/
@[simp] theorem Device.memberTo_quiet {a : BlockAddr} {s : MemberStep} (h : d₀.Quiet d) :
    d₀.Quiet (d.memberTo a s) := by
  unfold Device.memberTo
  try dsimp only
  repeat' split
  all_goals first | exact h | simp (maxDischargeDepth := 50) (contextual := true) [h]

/-- `memberGone` is quiet. -/
@[simp] theorem Device.memberGone_quiet {a : BlockAddr} (h : d₀.Quiet d) :
    d₀.Quiet (d.memberGone a) := by
  unfold Device.memberGone
  try dsimp only
  repeat' split
  all_goals first | exact h | simp (maxDischargeDepth := 50) (contextual := true) [h]

/-- `purgeErased` is quiet (R77, R78, R124). -/
@[simp] theorem Device.purgeErased_quiet {a : BlockAddr} {o : OkFail} (h : d₀.Quiet d) :
    d₀.Quiet (d.purgeErased a o) := by
  unfold Device.purgeErased
  try dsimp only
  repeat' split
  all_goals first | exact h | simp (maxDischargeDepth := 50) (contextual := true) [h]

/-- `purgeEraseDone` is quiet (R78). -/
@[simp] theorem Device.purgeEraseDone_quiet {b : Bank} {j : Job} {o : OkFail} (h : d₀.Quiet d) :
    d₀.Quiet (d.purgeEraseDone b j o) := by
  unfold Device.purgeEraseDone
  try dsimp only
  repeat' split
  all_goals first | exact h | simp (maxDischargeDepth := 50) (contextual := true) [h]

/-- `purgeVerifyDone` is quiet (R77, R78). -/
@[simp] theorem Device.purgeVerifyDone_quiet {b : Bank} {j : Job} {clean : Bool} (h : d₀.Quiet d) :
    d₀.Quiet (d.purgeVerifyDone b j clean) := by
  unfold Device.purgeVerifyDone
  try dsimp only
  repeat' split
  all_goals first | exact h | simp (maxDischargeDepth := 50) (contextual := true) [h]

/-- `purgeOverwriteDone` is quiet (R78, R125). -/
@[simp] theorem Device.purgeOverwriteDone_quiet {b : Bank} {j : Job} (h : d₀.Quiet d) :
    d₀.Quiet (d.purgeOverwriteDone b j) := by
  unfold Device.purgeOverwriteDone
  try dsimp only
  repeat' split
  all_goals first | exact h | simp (maxDischargeDepth := 50) (contextual := true) [h]

/-- `scrubEraseDone` is quiet (R106). -/
@[simp] theorem Device.scrubEraseDone_quiet {b : Bank} {j : Job} {o : OkFail} (h : d₀.Quiet d) :
    d₀.Quiet (d.scrubEraseDone b j o) := by
  unfold Device.scrubEraseDone
  try dsimp only
  repeat' split
  all_goals first | exact h | simp (maxDischargeDepth := 50) (contextual := true) [h]

/-- `wearStampDone` is quiet (R106). -/
@[simp] theorem Device.wearStampDone_quiet {b : Bank} {j : Job} {o : OkFail} (h : d₀.Quiet d) :
    d₀.Quiet (d.wearStampDone b j o) := by
  unfold Device.wearStampDone
  try dsimp only
  repeat' split
  all_goals first | exact h | simp (maxDischargeDepth := 50) (contextual := true) [h]

/-! ### Maintenance -/

/-- `startRun` is quiet (R131, R134, R135, R138, R146). -/
@[simp] theorem Device.startRun_quiet {o : RunOrigin} (h : d₀.Quiet d) :
    d₀.Quiet (d.startRun o) := by
  unfold Device.startRun
  try dsimp only
  repeat' split
  all_goals first | exact h | simp (maxDischargeDepth := 50) (contextual := true) [h]

/-- `endRun` is quiet (R135, R136, R144). -/
@[simp] theorem Device.endRun_quiet (h : d₀.Quiet d) :
    d₀.Quiet (d.endRun) := by
  unfold Device.endRun
  try dsimp only
  repeat' split
  all_goals first | exact h | simp (maxDischargeDepth := 50) (contextual := true) [h]

/-- `beginMaintReloc` is quiet (R140). -/
@[simp] theorem Device.beginMaintReloc_quiet {e : Entry} {kind : RelocKind} (h : d₀.Quiet d) :
    d₀.Quiet (d.beginMaintReloc e kind) := by
  unfold Device.beginMaintReloc
  try dsimp only
  repeat' split
  all_goals first | exact h | simp (maxDischargeDepth := 50) (contextual := true) [h]

/-- `tryRefresh` is quiet (R138, R140). -/
@[simp] theorem Device.tryRefresh_quiet {r : RecordName} (h : d₀.Quiet d) :
    d₀.Quiet (d.tryRefresh r) := by
  unfold Device.tryRefresh
  try dsimp only
  repeat' split
  all_goals first | exact h | simp (maxDischargeDepth := 50) (contextual := true) [h]

/-- `tryWear` is quiet (R139, R140, log 30). -/
@[simp] theorem Device.tryWear_quiet {r : RecordName} (h : d₀.Quiet d) :
    d₀.Quiet (d.tryWear r) := by
  unfold Device.tryWear
  try dsimp only
  repeat' split
  all_goals first | exact h | simp (maxDischargeDepth := 50) (contextual := true) [h]

/-- `abandonMaintReloc` is quiet (R143, R144, R146). -/
@[simp] theorem Device.abandonMaintReloc_quiet {cause : RelocEnd} (h : d₀.Quiet d) :
    d₀.Quiet (d.abandonMaintReloc cause) := by
  unfold Device.abandonMaintReloc
  try dsimp only
  repeat' split
  all_goals first | exact h | simp (maxDischargeDepth := 50) (contextual := true) [h]

/-- `interruptRun` is quiet (R144, R145). -/
@[simp] theorem Device.interruptRun_quiet (h : d₀.Quiet d) :
    d₀.Quiet (d.interruptRun) := by
  unfold Device.interruptRun
  try dsimp only
  repeat' split
  all_goals first | exact h | simp (maxDischargeDepth := 50) (contextual := true) [h]

/-- `enterWorn` is quiet (R112, R146). -/
@[simp] theorem Device.enterWorn_quiet (h : d₀.Quiet d) :
    d₀.Quiet (d.enterWorn) := by
  unfold Device.enterWorn
  try dsimp only
  repeat' split
  all_goals first | exact h | simp (maxDischargeDepth := 50) (contextual := true) [h]

/-- `workMaintain` is quiet (R135). -/
@[simp] theorem Device.workMaintain_quiet {p : Port} {id : Nat} (h : d₀.Quiet d) :
    d₀.Quiet (d.workMaintain p id) := by
  unfold Device.workMaintain
  try dsimp only
  repeat' split
  all_goals first | exact h | simp (maxDischargeDepth := 50) (contextual := true) [h]

/-! ### Device requests -/

/-- `workHealth` is quiet (R168). -/
@[simp] theorem Device.workHealth_quiet {id : Nat} (h : d₀.Quiet d) :
    d₀.Quiet (d.workHealth id) := by
  unfold Device.workHealth
  try dsimp only
  repeat' split
  all_goals first | exact h | simp (maxDischargeDepth := 50) (contextual := true) [h]

/-- `workIdentify` is quiet (R169). -/
@[simp] theorem Device.workIdentify_quiet {id : Nat} (h : d₀.Quiet d) :
    d₀.Quiet (d.workIdentify id) := by
  unfold Device.workIdentify
  try dsimp only
  repeat' split
  all_goals first | exact h | simp (maxDischargeDepth := 50) (contextual := true) [h]

/-- `queueLayoutPage` is quiet (R167). -/
@[simp] theorem Device.queueLayoutPage_quiet {b : Bank} {id v : Nat} (h : d₀.Quiet d) :
    d₀.Quiet (d.queueLayoutPage b id v) := by
  unfold Device.queueLayoutPage
  try dsimp only
  repeat' split
  all_goals first | exact h | simp (maxDischargeDepth := 50) (contextual := true) [h]

/-- `layoutPageDone` is quiet (R167). -/
@[simp] theorem Device.layoutPageDone_quiet {id : Nat} {o : OkFail} (h : d₀.Quiet d) :
    d₀.Quiet (d.layoutPageDone id o) := by
  unfold Device.layoutPageDone
  try dsimp only
  repeat' split
  all_goals first | exact h | simp (maxDischargeDepth := 50) (contextual := true) [h]

/-! ### What comes about within a step -/

/-- `grantMade` is quiet (R101). -/
@[simp] theorem Device.grantMade_quiet {g : Grant} {as : List BlockAddr} (h : d₀.Quiet d) :
    d₀.Quiet (d.grantMade g as) := by
  unfold Device.grantMade
  try dsimp only
  repeat' split
  all_goals first | exact h | simp (maxDischargeDepth := 50) (contextual := true) [h]

/-- `grantRefused` is quiet (R103). -/
@[simp] theorem Device.grantRefused_quiet {g : Grant} (h : d₀.Quiet d) :
    d₀.Quiet (d.grantRefused g) := by
  unfold Device.grantRefused
  try dsimp only
  repeat' split
  all_goals first | exact h | simp (maxDischargeDepth := 50) (contextual := true) [h]

/-- A draw that is granted to its drawer is quiet (R107). -/
@[simp] theorem Device.drawGranted_quiet {k : Drawer} (h : d₀.Quiet d) : d₀.Quiet (d.drawGranted k) := by
  unfold Device.drawGranted
  split
  · exact Device.commitDrawn_quiet h
  · exact Device.relocDrawn_quiet h

/-- The end of RESUMING is quiet (R163). -/
@[simp] theorem Device.endResuming_quiet (h : d₀.Quiet d) : d₀.Quiet d.endResuming :=
  Device.postBoth_quiet (Device.Quiet.inner h rfl)

/-- A draw that is granted is quiet (R107). -/
theorem Device.drawStep_quiet (h : d₀.Quiet d) (hs : d.drawStep = some d') : d₀.Quiet d' := by
  unfold Device.drawStep at hs
  split at hs
  · contradiction
  · split at hs
    · cases hs
      exact Device.drawGranted_quiet (Device.Quiet.inner h rfl)
    · contradiction

/-- The handling of the wait list's head is quiet (R101, R103). -/
theorem Device.waitStep_quiet (h : d₀.Quiet d) (hs : d.waitStep = some d') : d₀.Quiet d' := by
  unfold Device.waitStep at hs
  split at hs
  · split at hs
    · contradiction
    · dsimp only at hs
      split at hs
      · cases hs
        exact Device.grantMade_quiet (Device.allocate_quiet (Device.Quiet.inner h rfl))
      · cases hs
        split
        · exact Device.Quiet.inner h rfl
        · exact Device.grantRefused_quiet (Device.Quiet.inner h rfl)
  · contradiction

/-- What the purge does next is quiet (R77, R79). -/
theorem Device.purgeStep_quiet (h : d₀.Quiet d) (hs : d.purgeStep = some d') : d₀.Quiet d' := by
  unfold Device.purgeStep at hs
  split at hs
  · contradiction
  · split at hs
    · contradiction
    · cases hs
      exact Device.finishPurgeRecord_quiet h
    · obtain ⟨m, _, rfl⟩ := Option.map_eq_some_iff.1 hs
      exact Device.workMember_quiet h

/-- The interruption of a run at level 3 is quiet (R145). -/
@[simp] theorem Device.levelReached_quiet (h : d₀.Quiet d) : d₀.Quiet d.levelReached := by
  unfold Device.levelReached
  split
  · exact Device.interruptRun_quiet h
  · exact h

/-- A change of the urgency level is quiet (R114). -/
theorem Device.urgencyStep_quiet (h : d₀.Quiet d) (hs : d.urgencyStep = some d') : d₀.Quiet d' := by
  unfold Device.urgencyStep at hs
  dsimp only at hs
  split at hs
  · cases hs
    split
    · exact Device.levelReached_quiet (Device.postBoth_quiet (Device.Quiet.inner h rfl))
    · exact Device.Quiet.inner h rfl
  · contradiction

/-- A demand erase is quiet (R104). -/
theorem Device.demandStep_quiet (h : d₀.Quiet d) (hs : d.demandStep = some d') : d₀.Quiet d' := by
  unfold Device.demandStep at hs
  split at hs
  · obtain ⟨a, _, rfl⟩ := Option.map_eq_some_iff.1 hs
    exact Device.beginScrubErase_quiet h
  · contradiction

/-- The resuming of purges is quiet (R162, R163). -/
theorem Device.resumeStep_quiet (h : d₀.Quiet d) (hs : d.resumeStep = some d') : d₀.Quiet d' := by
  unfold Device.resumeStep at hs
  split at hs
  · split at hs
    · cases hs
      exact Device.endResuming_quiet h
    · cases hs
      exact Device.beginPurgeRecord_quiet h
  · contradiction

/-- What a run in RUNNING does next is quiet (R136). -/
theorem Device.runningStep_quiet (h : d₀.Quiet d) (hs : d.runningStep = some d') : d₀.Quiet d' := by
  unfold Device.runningStep at hs
  split at hs
  · cases hs
    exact Device.beginScrubErase_quiet h
  · split at hs
    · contradiction
    · split at hs
      · cases hs
        exact Device.endRun_quiet h
      · split at hs
        · cases hs
          exact Device.tryRefresh_quiet h
        · split at hs
          · cases hs
            exact Device.tryWear_quiet h
          · cases hs
            exact Device.endRun_quiet h

/-- What a run in FOREGROUND does next is quiet (R145). -/
theorem Device.foregroundStep_quiet (h : d₀.Quiet d) (hs : d.foregroundStep = some d') : d₀.Quiet d' := by
  unfold Device.foregroundStep at hs
  split at hs
  · cases hs
    exact Device.Quiet.inner h rfl
  · split at hs
    · cases hs
      exact Device.beginScrubErase_quiet h
    · split at hs
      · contradiction
      · cases hs
        exact Device.endRun_quiet h

/-- What the Maintenance Unit does next is quiet (R134, R136, R144, R145). -/
theorem Device.maintStep_quiet (h : d₀.Quiet d) (hs : d.maintStep = some d') : d₀.Quiet d' := by
  unfold Device.maintStep at hs
  split at hs
  · split at hs
    · split at hs
      · cases hs
        exact Device.startRun_quiet h
      · split at hs
        · cases hs
          exact Device.startRun_quiet h
        · contradiction
    · exact Device.runningStep_quiet h hs
    · exact Device.foregroundStep_quiet h hs
    · split at hs
      · contradiction
      · cases hs
        exact Device.endRun_quiet h
  · contradiction

/-- The next thing that comes about within a step is quiet. -/
theorem Device.standing_quiet (h : d₀.Quiet d) (hs : d.standing = some d') : d₀.Quiet d' := by
  unfold Device.standing at hs
  simp only [Option.orElse_eq_orElse, Option.orElse_eq_or, Option.or_eq_some_iff] at hs
  rcases hs with hs | ⟨_, hs | ⟨_, hs | ⟨_, hs | ⟨_, hs | ⟨_, hs | ⟨_, hs⟩⟩⟩⟩⟩⟩
  · exact Device.drawStep_quiet h hs
  · exact Device.waitStep_quiet h hs
  · exact Device.purgeStep_quiet h hs
  · exact Device.urgencyStep_quiet h hs
  · exact Device.demandStep_quiet h hs
  · exact Device.resumeStep_quiet h hs
  · exact Device.maintStep_quiet h hs

/-- Everything that comes about within a step is quiet. -/
theorem Device.settle_quiet (n : Nat) (h : d₀.Quiet d) : d₀.Quiet (Device.settle n d) := by
  induction n generalizing d with
  | zero => exact h
  | succ n ih =>
    unfold Device.settle
    split
    · exact h
    · rename_i d' hs
      exact ih (Device.standing_quiet h hs)

/-- The WORN test is quiet (R112). -/
@[simp] theorem Device.wornTest_quiet (h : d₀.Quiet d) : d₀.Quiet d.wornTest := by
  unfold Device.wornTest
  split
  · exact Device.enterWorn_quiet h
  · exact h

/-- The end of a step is quiet. -/
@[simp] theorem Device.finishStep_quiet (h : d₀.Quiet d) : d₀.Quiet d.finishStep :=
  Device.Quiet.inner (Device.settle_quiet _ (Device.wornTest_quiet h)) rfl

/-- The end of a step that has taken a request is quiet (R144). -/
@[simp] theorem Device.takeEnd_quiet {e : Device} (h : d₀.Quiet d) : d₀.Quiet (e.takeEnd d) := by
  unfold Device.takeEnd
  split
  · exact Device.finishStep_quiet h
  · exact Device.finishStep_quiet (Device.interruptRun_quiet h)

/-- The end of a step in which a bank's job has completed is quiet (R123). -/
@[simp] theorem Device.jobOver_quiet {b : Bank} (h : d₀.Quiet d) : d₀.Quiet (d.jobOver b) :=
  Device.advance_quiet (Device.finishStep_quiet h)

end Sys2Proof.Machine
end

