-- ==== Sys2Proof/Laws/Takes.lean ====
section
/-!
SUPPORT. What the taking of a request does (R174), and what an answer given in the step of the take comes to (R175).
-/

namespace Sys2Proof.Machine

/-! ### The take -/

/-- The name a taken request gets is the name of no request in flight. -/
theorem Device.newFlightId_fresh (d : Device) : ∀ f ∈ d.flights, f.id ≠ d.newFlightId := by
  have some_free : ∃ n ∈ List.range (d.flights.length + 1), ∀ f ∈ d.flights, f.id ≠ n := by
    by_contra hall
    push Not at hall
    have sub : List.range (d.flights.length + 1) ⊆ d.flights.map (·.id) := fun n hn => by
      obtain ⟨f, hf, e⟩ := hall n hn
      exact List.mem_map.2 ⟨f, hf, e⟩
    have := (List.nodup_range (n := d.flights.length + 1)).subperm sub |>.length_le
    simp at this
  obtain ⟨n, hn, hfree⟩ := some_free
  unfold Device.newFlightId
  cases hfind : (List.range (d.flights.length + 1)).find? fun n => d.flights.all fun f => decide (f.id ≠ n) with
  | none =>
    have := List.find?_eq_none.1 hfind n hn
    exact absurd (by simpa using hfree) (by simpa using this)
  | some m =>
    have := List.find?_some hfind
    intro f hf
    have := (List.all_eq_true.1 this) f hf
    simpa using this

/-- The request taken is in flight under its new name. -/
theorem Device.flight_takeIn (d : Device) (p : Port) (r : Request) :
    (d.takeIn p r).flight? d.newFlightId
      = some { id := d.newFlightId, port := p, tag := r.tag, kind := r.body.kind, discard := false, work := .taken } := by
  unfold Device.flight? Device.takeIn
  dsimp only
  rw [List.find?_append, List.find?_eq_none.2 fun f hf => by simpa using d.newFlightId_fresh f hf]
  simp

/-- A request answered in the step of its take leaves the in-flight set as it was before the take, and its completion
stands at the end of its port's queue (R174, R175). -/
theorem Device.complete_takeIn (d : Device) (p : Port) (r : Request) (res : Result) (reply : List Byte) :
    (d.takeIn p r).complete d.newFlightId res reply = d.answered p r res reply := by
  have gone : (d.takeIn p r).flights.filter (fun g => decide (g.id ≠ d.newFlightId)) = d.flights := by
    unfold Device.takeIn
    dsimp only
    rw [List.filter_append, List.filter_eq_self.2 fun f hf => by simpa using d.newFlightId_fresh f hf]
    simp
  unfold Device.complete
  rw [Device.flight_takeIn]
  dsimp only
  rw [gone]
  cases p <;> simp [Device.takeIn, Device.answered, Device.setPort, Device.port]

/-- The fields a take leaves alone. -/
@[simp] theorem Device.takeIn_phase (d : Device) (p : Port) (r : Request) : (d.takeIn p r).phase = d.phase := by
  cases p <;> rfl
@[simp] theorem Device.takeIn_dir (d : Device) (p : Port) (r : Request) : (d.takeIn p r).dir = d.dir := by
  cases p <;> rfl
@[simp] theorem Device.takeIn_slots (d : Device) (p : Port) (r : Request) : (d.takeIn p r).slots = d.slots := by
  cases p <;> rfl
@[simp] theorem Device.takeIn_locks (d : Device) (p : Port) (r : Request) : (d.takeIn p r).locks = d.locks := by
  cases p <;> rfl
@[simp] theorem Device.takeIn_settings (d : Device) (p : Port) (r : Request) :
    (d.takeIn p r).settings = d.settings := by
  cases p <;> rfl
@[simp] theorem Device.takeIn_layout (d : Device) (p : Port) (r : Request) : (d.takeIn p r).layout = d.layout := by
  cases p <;> rfl
@[simp] theorem Device.takeIn_identity (d : Device) (p : Port) (r : Request) :
    (d.takeIn p r).identity = d.identity := by
  cases p <;> rfl
@[simp] theorem Device.takeIn_pool (d : Device) (p : Port) (r : Request) : (d.takeIn p r).pool = d.pool := by
  cases p <;> rfl
@[simp] theorem Device.takeIn_engines (d : Device) (p : Port) (r : Request) : (d.takeIn p r).engines = d.engines := by
  cases p <;> rfl
@[simp] theorem Device.takeIn_maint (d : Device) (p : Port) (r : Request) : (d.takeIn p r).maint = d.maint := by
  cases p <;> rfl
@[simp] theorem Device.takeIn_purge (d : Device) (p : Port) (r : Request) : (d.takeIn p r).purge = d.purge := by
  cases p <;> rfl
@[simp] theorem Device.takeIn_retireCounter (d : Device) (p : Port) (r : Request) :
    (d.takeIn p r).retireCounter = d.retireCounter := by
  cases p <;> rfl
@[simp] theorem Device.takeIn_power (d : Device) (p : Port) (r : Request) : (d.takeIn p r).power = d.power := by
  cases p <;> rfl

/-! ### What a take leaves alone, as the checks and the works read it -/

@[simp] theorem Device.takeIn_nsOf (d : Device) (p : Port) (r : Request) (n) : (d.takeIn p r).nsOf n = d.nsOf n := by
  cases p <;> rfl
@[simp] theorem Device.takeIn_desc (d : Device) (p : Port) (r : Request) (n) : (d.takeIn p r).desc n = d.desc n := by
  cases p <;> rfl
@[simp] theorem Device.takeIn_rightOn (d : Device) (p : Port) (r : Request) (q n) :
    (d.takeIn p r).rightOn q n = d.rightOn q n := by
  cases p <;> rfl
@[simp] theorem Device.takeIn_earlyNs (d : Device) (p : Port) (r : Request) : (d.takeIn p r).earlyNs = d.earlyNs := by
  cases p <;> rfl
@[simp] theorem Device.takeIn_entryOf (d : Device) (p : Port) (r : Request) (n k) :
    (d.takeIn p r).entryOf n k = d.entryOf n k := by
  cases p <;> rfl
@[simp] theorem Device.takeIn_entry (d : Device) (p : Port) (r : Request) (n) :
    (d.takeIn p r).entry? n = d.entry? n := by
  cases p <;> rfl
@[simp] theorem Device.takeIn_ctx (d : Device) (p : Port) (r : Request) (n) : (d.takeIn p r).ctx? n = d.ctx? n := by
  cases p <;> rfl
@[simp] theorem Device.takeIn_handle (d : Device) (p : Port) (r : Request) (n) :
    (d.takeIn p r).handle n = d.handle n := by
  cases p <;> rfl
@[simp] theorem Device.takeIn_slotOf (d : Device) (p : Port) (r : Request) (n) :
    (d.takeIn p r).slotOf n = d.slotOf n := by
  cases p <;> rfl
@[simp] theorem Device.takeIn_firstFree (d : Device) (p : Port) (r : Request) :
    (d.takeIn p r).firstFree = d.firstFree := by
  cases p <;> rfl
@[simp] theorem Device.takeIn_lockedOn (d : Device) (p : Port) (r : Request) (n) :
    (d.takeIn p r).lockedOn n = d.lockedOn n := by
  cases p <;> rfl
@[simp] theorem Device.takeIn_copiesOf (d : Device) (p : Port) (r : Request) (n) :
    (d.takeIn p r).copiesOf n = d.copiesOf n := by
  cases p <;> rfl
@[simp] theorem Device.takeIn_held (d : Device) (p : Port) (r : Request) (n) : (d.takeIn p r).held n = d.held n := by
  cases p <;> rfl
@[simp] theorem Device.takeIn_recordCount (d : Device) (p : Port) (r : Request) (n) :
    (d.takeIn p r).recordCount n = d.recordCount n := by
  cases p <;> rfl
@[simp] theorem Device.takeIn_timerStart (d : Device) (p : Port) (r : Request) :
    (d.takeIn p r).timerStart = d.timerStart := by
  cases p <;> rfl
@[simp] theorem Device.takeIn_reservedBlocks (d : Device) (p : Port) (r : Request) (n) :
    (d.takeIn p r).reservedBlocks n = d.reservedBlocks n := by
  have h : (d.takeIn p r).relocs = d.relocs := by
    unfold Device.relocs Device.takeIn
    cases p <;> simp [Device.setPort, List.filterMap_append, Work.reloc?]
  unfold Device.reservedBlocks
  rw [h]
  cases p <;> rfl
@[simp] theorem Device.takeIn_walk (d : Device) (p : Port) (r : Request) (n k) :
    (d.takeIn p r).walk n k = d.walk n k := by
  cases p <;> rfl

/-! ### A step that takes -/

/-- A step that finds a request of its kind next takes it, works it, and ends. -/
theorem Device.takes_next {d : Device} {p : Port} {tag : Byte} {body : Req} (h : d.Takes p tag body)
    (work : Device → Port → Nat → Req → Device) :
    d.takes body.kind work
      = d.takeEnd (work (d.takeIn p { tag := tag, body := body }) p d.newFlightId body) := by
  unfold Device.takes
  rw [h]
  simp

/-- A step whose kind is not that of the next request, or that finds none to take, changes nothing (log 1). -/
theorem Device.takes_other {d : Device} {k : RequestKind} (h : ∀ p r, d.nextTake = some (p, r) → r.body.kind ≠ k)
    (work : Device → Port → Nat → Req → Device) : d.takes k work = d := by
  unfold Device.takes
  split
  · rfl
  · rename_i p r e
    rw [if_neg (h p r e)]

/-! ### An answer and other effects of the same step -/

/-- An answer and a change of an entry do not meet. -/
theorem Device.complete_modEntry (d : Device) (r : RecordName) (f : Entry → Entry) (id : Nat) (res : Result)
    (reply : List Byte) : (d.modEntry r f).complete id res reply = (d.complete id res reply).modEntry r f := by
  unfold Device.complete Device.modEntry Device.flight?
  dsimp only
  split
  · rfl
  · rename_i g _
    split
    · rfl
    · cases g.port <;> rfl

/-- A request that is worked on keeps its place, port, tag and kind in the in-flight set. -/
theorem Device.setWork_flights (d : Device) (id : Nat) (w : Work) :
    (d.setWork id w).flights.map (fun f => (f.id, f.port, f.tag, f.kind, f.discard))
      = d.flights.map fun f => (f.id, f.port, f.tag, f.kind, f.discard) := by
  unfold Device.setWork
  rw [List.map_map]
  apply List.map_congr_left
  intro f _
  simp only [Function.comp]
  split <;> rfl

/-- What the meaning of a row that takes a request answers when that request is the next one (R174). -/
theorem State.takes_next {s : State} {p : Port} {tag : Byte} {body : Req} (h : s.Takes p tag body)
    (w : Device → Port → Nat → Req → Device) :
    (Host.Outcome.next { s with toDevice := s.toDevice.takes body.kind w } : Host.Outcome State Fault Refusal)
      = .next { s with toDevice := s.takeEnd (w (s.takeIn p { tag := tag, body := body }) p s.newFlightId body) } := by
  rw [show s.toDevice.takes body.kind w = _ from Device.takes_next h w]

/-- An answer and a change of the update contexts and the directory do not meet. -/
theorem Device.complete_slots_dir (d : Device) (sl dr id r x) :
    ({ d with slots := sl, dir := dr } : Device).complete id r x
      = { d.complete id r x with slots := sl, dir := dr } := by
  unfold Device.complete Device.flight?
  dsimp only
  split
  · rfl
  · split
    · rfl
    · rename_i f _ _; cases f.port <;> rfl

/-- The update contexts and the directory after an answer. -/
@[simp] theorem Device.answered_slots (d : Device) (p : Port) (r : Request) (res : Result) (reply : List Byte) :
    (d.answered p r res reply).slots = d.slots := by
  cases p <;> rfl
@[simp] theorem Device.answered_dir (d : Device) (p : Port) (r : Request) (res : Result) (reply : List Byte) :
    (d.answered p r res reply).dir = d.dir := by
  cases p <;> rfl

end Sys2Proof.Machine
end

