-- ==== Sys2Proof/Laws/Records.lean ====
section
/-!
SUPPORT. What the operations over the directory, the contexts and the Block State Table do to one entry, one slot and
one block: each lemma says what the entry, slot or block of a given name is after the operation. Also what a new
committed version, a failed COMMIT and the wait list's handling do.
-/

namespace Sys2Proof.Machine

/-! ### Entries -/

/-- Changing the entry of one name in a list of entries. -/
theorem find_map_entry (es : List Entry) (r q : RecordName) (f : Entry → Entry) :
    (es.map fun e => if e.name = r then { f e with name := e.name } else e).find? (fun e => decide (e.name = q))
      = (es.find? fun e => decide (e.name = q)).map fun e => if q = r then { f e with name := e.name } else e := by
  induction es with
  | nil => rfl
  | cons e es ih =>
    rw [List.map_cons, List.find?_cons, List.find?_cons]
    by_cases hq : e.name = q
    · by_cases hr : e.name = r
      · simp [hr, show q = r from hq.symm.trans hr]
      · have : q ≠ r := fun h => hr (hq.trans h)
        simp [hq, this]
    · by_cases hr : e.name = r
      · have : r ≠ q := fun h => hq (hr.trans h)
        simp [hr, this, ih]
      · simp [hr, hq, ih]

/-- The entry of a record after a change of an entry in place. -/
theorem Device.entry?_modEntry (d : Device) (r q : RecordName) (f : Entry → Entry) :
    (d.modEntry r f).entry? q = (d.entry? q).map fun e => if q = r then { f e with name := e.name } else e :=
  find_map_entry d.dir r q f

/-- The entry found for a record has its name. -/
theorem Device.entry?_name {d : Device} {r : RecordName} {e : Entry} (h : d.entry? r = some e) : e.name = r := by
  simpa using List.find?_some h

/-- The entry of the record that is changed. -/
theorem Device.entry?_modEntry_self {d : Device} {r : RecordName} {e : Entry} (h : d.entry? r = some e)
    (f : Entry → Entry) : (d.modEntry r f).entry? r = some { f e with name := r } := by
  rw [Device.entry?_modEntry, h]
  simp [Device.entry?_name h]

/-- The entries of other records stay. -/
theorem Device.entry?_modEntry_other (d : Device) {r q : RecordName} (h : q ≠ r) (f : Entry → Entry) :
    (d.modEntry r f).entry? q = d.entry? q := by
  rw [Device.entry?_modEntry]
  simp [h]

/-- An entry that is inserted is found. -/
theorem Device.entry?_insertRecord_self (d : Device) (e : Entry) : (d.insertRecord e).entry? e.name = some e := by
  unfold Device.insertRecord Device.entry?
  dsimp only
  induction d.dir with
  | nil => simp [insertEntry]
  | cons x es ih =>
    unfold insertEntry
    split
    · simp
    · split
      · simp
      · rename_i hx
        rw [List.find?_cons, ih]
        simp [show x.name ≠ e.name from fun h => hx h.symm]

/-- The other entries stay when one is inserted. -/
theorem Device.entry?_insertRecord_other (d : Device) (e : Entry) {q : RecordName} (h : q ≠ e.name) :
    (d.insertRecord e).entry? q = d.entry? q := by
  unfold Device.insertRecord Device.entry?
  dsimp only
  induction d.dir with
  | nil => simp [insertEntry, h.symm]
  | cons x es ih =>
    unfold insertEntry
    split
    · simp [h.symm]
    · split
      · rename_i hx
        simp [h.symm, show x.name ≠ q from fun k => h (k.symm.trans hx.symm)]
      · rw [List.find?_cons, List.find?_cons, ih]

/-- The entry that is removed is not found. -/
theorem Device.entry?_removeRecord_self (d : Device) (r : RecordName) : (d.removeRecord r).entry? r = none := by
  unfold Device.removeRecord Device.entry?
  simp

/-- The other entries stay when one is removed. -/
theorem Device.entry?_removeRecord_other (d : Device) {r q : RecordName} (h : q ≠ r) :
    (d.removeRecord r).entry? q = d.entry? q := by
  unfold Device.removeRecord Device.entry?
  dsimp only
  induction d.dir with
  | nil => rfl
  | cons x es ih =>
    rw [List.filter_cons]
    split
    · rw [List.find?_cons, List.find?_cons, ih]
    · rename_i hx
      have : x.name = r := by simpa using hx
      rw [ih, List.find?_cons]
      simp [show x.name ≠ q from fun k => h (k.symm.trans this)]

/-- The operations that leave the directory alone leave every entry alone. -/
theorem Device.entry?_congr {d d' : Device} (h : d'.dir = d.dir) (r : RecordName) : d'.entry? r = d.entry? r := by
  unfold Device.entry?
  rw [h]

/-! ### Blocks -/

/-- A block after a change of a block's entry in place. -/
theorem Device.block?_modBlock (d : Device) (a x : BlockAddr) (f : BlockEntry → BlockEntry) :
    (d.modBlock a f).pool.block? x
      = if x.block = 0 then some .descriptor
        else if x = a then (d.pool.block? x).map f else d.pool.block? x := by
  unfold Pool.block? Device.modBlock
  dsimp only
  by_cases hz : x.block = 0
  · simp [hz]
  · rw [if_neg hz, if_neg hz, if_neg hz]
    induction d.pool.table with
    | nil => simp
    | cons l ls ih =>
      rw [List.map_cons, List.find?_cons, List.find?_cons]
      by_cases hl : l.addr = a
      · by_cases hx : x = a
        · simp [hl, hx]
        · have hax : a ≠ x := fun h => hx h.symm
          rw [if_pos hl]
          simp only [hl, hax, decide_false]
          rw [if_neg hx] at ih ⊢
          exact ih
      · rw [if_neg hl]
        by_cases hx : l.addr = x
        · have hxa : x ≠ a := fun h => hl (hx.trans h)
          simp [hx, hxa]
        · simp only [hx, decide_false]
          exact ih

/-- The state of a block after a change of a block's entry in place. -/
theorem Device.blockState_modBlock (d : Device) (a x : BlockAddr) (f : BlockEntry → BlockEntry) :
    (d.modBlock a f).blockState x
      = if x.block = 0 then some .descriptor
        else if x = a then (d.pool.block? x).map fun e => (f e).state else d.blockState x := by
  unfold Device.blockState
  rw [Device.block?_modBlock]
  split
  · rfl
  · split
    · rw [Option.map_map]
      rfl
    · rfl

/-- A change of a block's entry that keeps its state keeps the state of every block. -/
theorem Device.blockState_modBlock_same (d : Device) (a x : BlockAddr) (f : BlockEntry → BlockEntry)
    (h : ∀ e, (f e).state = e.state) : (d.modBlock a f).blockState x = d.blockState x := by
  rw [Device.blockState_modBlock]
  split
  · rename_i hz
    unfold Device.blockState Pool.block?
    rw [if_pos hz]
    rfl
  · split
    · unfold Device.blockState
      congr 1
      funext e
      exact h e
    · rfl

/-- The state of a block depends on the table alone. -/
theorem Device.blockState_congr {d d' : Device} (h : d'.pool.table = d.pool.table) (x : BlockAddr) :
    d'.blockState x = d.blockState x := by
  unfold Device.blockState Pool.block?
  rw [h]

/-- A DESCRIPTOR block stays so. -/
theorem Device.blockState_descriptor (d : Device) {x : BlockAddr} (h : x.block = 0) :
    d.blockState x = some .descriptor := by
  unfold Device.blockState Pool.block?
  rw [if_pos h]
  rfl

/-- The blocks of a list after it is sorted. -/
theorem mem_sortBlocks (as : List BlockAddr) (x : BlockAddr) : x ∈ sortBlocks as ↔ x ∈ as := by
  have ins : ∀ (a : BlockAddr) (bs : List BlockAddr), x ∈ insertBlock a bs ↔ x = a ∨ x ∈ bs := by
    intro a bs
    induction bs with
    | nil => simp [insertBlock]
    | cons b bs ih =>
      unfold insertBlock
      split
      · simp
      · simp only [List.mem_cons, ih]
        tauto
  unfold sortBlocks
  induction as with
  | nil => simp
  | cons a as ih =>
    rw [List.foldr_cons, ins, List.mem_cons]
    exact or_congr Iff.rfl ih

/-- A block in some state is changed to a given state. -/
theorem Device.blockState_modBlock_state {d : Device} {a : BlockAddr} {s : BlockState} (h : d.blockState a = some s)
    (hs : s ≠ .descriptor) {f : BlockEntry → BlockEntry} {s' : BlockState} (hf : ∀ e, (f e).state = s')
    (x : BlockAddr) : (d.modBlock a f).blockState x = if x = a then some s' else d.blockState x := by
  have hz : a.block ≠ 0 := fun hz => by
    rw [Device.blockState_descriptor d hz] at h
    exact hs (Option.some.inj h).symm
  rw [Device.blockState_modBlock]
  by_cases hx : x = a
  · subst hx
    rw [if_neg hz, if_pos rfl, if_pos rfl]
    unfold Device.blockState at h
    cases hb : d.pool.block? x with
    | none => rw [hb] at h; cases h
    | some e => simp [hf]
  · rw [if_neg hx, if_neg hx]
    split
    · rename_i hxz
      rw [Device.blockState_descriptor d hxz]
    · rfl

/-- Making the blocks of a list STALE, one after another. -/
theorem Device.blockState_foldStale (as : List BlockAddr) (d : Device) (x : BlockAddr)
    (h : ∀ a ∈ as, d.blockState a = some .allocated ∨ d.blockState a = some .stale) :
    (as.foldl (fun d a => d.modBlock a fun e => { e with state := .stale }) d).blockState x
      = if x ∈ as then some .stale else d.blockState x := by
  induction as generalizing d with
  | nil => simp
  | cons a as ih =>
    have one : ∀ y, (d.modBlock a fun e => { e with state := .stale }).blockState y
        = if y = a then some .stale else d.blockState y := fun y => by
      rcases h a (by simp) with ha | ha
      · exact Device.blockState_modBlock_state (s' := .stale) ha (by decide) (fun _ => rfl) y
      · exact Device.blockState_modBlock_state (s' := .stale) ha (by decide) (fun _ => rfl) y
    rw [List.foldl_cons, ih]
    · rw [one]
      by_cases h1 : x ∈ as <;> by_cases h2 : x = a <;> simp [h1, h2]
    · intro b hb
      rw [one]
      split
      · exact .inr rfl
      · exact h b (by simp [hb])

/-- The blocks of a list that are ALLOCATED become STALE, and every other block keeps its state (R8, R41). -/
theorem Device.blockState_toStale (d : Device) (as : List BlockAddr) (x : BlockAddr) :
    (d.toStale as).blockState x
      = if x ∈ as ∧ d.blockState x = some .allocated then some .stale else d.blockState x := by
  unfold Device.toStale
  have key := Device.blockState_foldStale (sortBlocks (as.filter fun a => decide (d.blockState a = some .allocated))) d x
  refine Eq.trans (Device.blockState_congr rfl x) (Eq.trans (key ?_) ?_)
  case refine_2 => simp [mem_sortBlocks]
  · intro a ha
    rw [mem_sortBlocks, List.mem_filter] at ha
    exact .inl (by simpa using ha.2)

/-- What the operations over blocks leave alone. -/
theorem Device.foldModBlock_fields {α : Type} (g : α → BlockAddr) (f : α → BlockEntry → BlockEntry) (as : List α)
    (d : Device) : ∃ table, as.foldl (fun d a => d.modBlock (g a) (f a)) d
      = { d with pool := { d.pool with table := table } } := by
  induction as generalizing d with
  | nil => exact ⟨d.pool.table, rfl⟩
  | cons a as ih =>
    obtain ⟨table, h⟩ := ih (d.modBlock (g a) (f a))
    exact ⟨table, h⟩

/-- `toStale` changes the table and the scrub queue, with what has joined it in the step, alone (R105). -/
theorem Device.toStale_fields (d : Device) (as : List BlockAddr) : ∃ table scrub joined,
    d.toStale as = { d with pool := { d.pool with table := table, scrub := scrub, joined := joined } } := by
  unfold Device.toStale
  obtain ⟨table, h⟩ := Device.foldModBlock_fields id (fun _ e => { e with state := .stale })
    (sortBlocks (as.filter fun a => decide (d.blockState a = some .allocated))) d
  dsimp only [id] at h
  exact ⟨table, _, _, by dsimp only; rw [h]; rfl⟩

/-- `pin` changes the table alone (R52). -/
theorem Device.pin_fields (d : Device) (as : List BlockAddr) : ∃ table,
    d.pin as = { d with pool := { d.pool with table := table } } :=
  Device.foldModBlock_fields id (fun _ e => { e with pins := e.pins + 1 }) as d

/-- `unpin` changes the table (R53), and whether the demand erases are examined (R104), alone. -/
theorem Device.unpin_fields (d : Device) (as : List BlockAddr) : ∃ table examine,
    d.unpin as = { d with pool := { d.pool with table := table, examine := examine } } := by
  obtain ⟨table, h⟩ := Device.foldModBlock_fields id (fun _ e => { e with pins := e.pins - 1 }) as d
  unfold Device.unpin
  dsimp only [id] at h ⊢
  rw [h]
  split
  · exact ⟨table, true, rfl⟩
  · exact ⟨table, d.pool.examine, rfl⟩

/-- Which records the refresh set and the pass-over list hold once a record has left (R111, R138). -/
theorem Device.mem_leaveRefresh (d : Device) (r x : RecordName) :
    (x ∈ (d.leaveRefresh r).pool.refresh ↔ x ∈ d.pool.refresh ∧ x ≠ r)
    ∧ (x ∈ (d.leaveRefresh r).maint.passOver ↔ x ∈ d.maint.passOver ∧ (x = r → r ∉ d.pool.refresh)) := by
  unfold Device.leaveRefresh
  split
  · rename_i h
    refine ⟨by simp [List.mem_filter], ?_⟩
    simp only [List.mem_filter, decide_eq_true_eq]
    exact and_congr_right fun _ => ⟨fun k e => absurd e k, fun k e => k e h⟩
  · rename_i h
    exact ⟨⟨fun k => ⟨k, fun e => h (e ▸ k)⟩, And.left⟩, ⟨fun k => ⟨k, fun _ => h⟩, And.left⟩⟩

/-- `takeVersion` changes the directory, the table and the scrub queue, with what has joined it in the step, and lets
the record leave the refresh set (R8, R111). -/
theorem Device.takeVersion_fields {d : Device} {r : RecordName} {old : Entry} (v : Version) (h : d.entry? r = some old) :
    ∃ dir table scrub joined, d.takeVersion r v
      = ({ d with dir := dir, pool := { d.pool with table := table, scrub := scrub, joined := joined } } :
          Device).leaveRefresh r := by
  unfold Device.takeVersion
  rw [h]
  dsimp only
  set taken := d.modEntry r fun e =>
    { e with version := v, marks := 0, damaged := [], state := if e.state = .reserved then .live else e.state }
  obtain ⟨table, scrub, joined, h1⟩ := taken.toStale_fields old.version.blocks
  obtain ⟨table', h2⟩ :=
    Device.foldModBlock_fields id (fun _ e => { e with flag := false }) v.blocks (taken.toStale old.version.blocks)
  dsimp only [id] at h2
  rw [h2, h1]
  exact ⟨_, table', scrub, joined, rfl⟩

/-! ### Contexts -/

/-- Of two settings of one context the later counts. -/
theorem Device.setCtx_setCtx (d : Device) (i : SlotIndex) (c c' : Ctx) : (d.setCtx i c).setCtx i c' = d.setCtx i c' := by
  unfold Device.setCtx
  dsimp only
  congr 1
  apply Vector.ext
  intro k hk
  by_cases h : i.val = k <;> simp [h]

/-- A context that is set as it is. -/
theorem Device.setCtx_same {d : Device} {i : SlotIndex} {c : Ctx} (h : d.ctx? i = some c) : d.setCtx i c = d := by
  have : d.slots.set i { d.slots[i] with ctx := some c } = d.slots := by
    apply Vector.ext
    intro k hk
    by_cases hik : i.val = k
    · subst hik
      have : d.slots[i.val].ctx = some c := h
      simp [← this]
    · simp [hik]
  unfold Device.setCtx
  rw [this]

/-- A completion and the setting of a context may change places. -/
theorem Device.complete_setCtx (d : Device) (i : SlotIndex) (c : Ctx) (id : Nat) (r : Result) (reply : List Byte) :
    (d.setCtx i c).complete id r reply = (d.complete id r reply).setCtx i c := by
  have hf : (d.setCtx i c).flight? id = d.flight? id := rfl
  unfold Device.complete
  rw [hf]
  split
  · rfl
  · rename_i f _
    cases f.discard <;> cases hp : f.port <;> rfl

/-- The context of the slot that is set. -/
theorem Device.ctx?_setCtx_self (d : Device) (i : SlotIndex) (c : Ctx) : (d.setCtx i c).ctx? i = some c := by
  unfold Device.setCtx Device.ctx?
  simp

/-- The slot that is set keeps its sequence. -/
theorem Device.slots_setCtx_self (d : Device) (i : SlotIndex) (c : Ctx) :
    (d.setCtx i c).slots[i] = { d.slots[i] with ctx := some c } := by
  unfold Device.setCtx
  simp

/-- The other slots stay. -/
theorem Device.slots_setCtx_other (d : Device) {i k : SlotIndex} (h : k ≠ i) (c : Ctx) :
    (d.setCtx i c).slots[k] = d.slots[k] := by
  unfold Device.setCtx
  have : (i : Nat) ≠ k := fun e => h (Fin.ext e.symm)
  simp [Vector.getElem_set, this]

/-- A slot that is freed (R24). -/
theorem Device.slots_freeSlot_self (d : Device) (i : SlotIndex) :
    (d.freeSlot i).slots[i] = { seq := d.slots[i].seq + 1, ctx := none } := by
  unfold Device.freeSlot
  simp

/-- The other slots stay. -/
theorem Device.slots_freeSlot_other (d : Device) {i k : SlotIndex} (h : k ≠ i) :
    (d.freeSlot i).slots[k] = d.slots[k] := by
  unfold Device.freeSlot
  have : (i : Nat) ≠ k := fun e => h (Fin.ext e.symm)
  simp [Vector.getElem_set, this]

/-- A completion changes the ports and the in-flight set alone (R175). -/
theorem Device.complete_fields (d : Device) (id : Nat) (r : Result) (reply : List Byte) : ∃ fl pr se,
    d.complete id r reply = { d with flights := fl, primary := pr, service := se } := by
  unfold Device.complete
  split
  · exact ⟨_, _, _, rfl⟩
  · rename_i f _
    dsimp only
    split
    · exact ⟨_, _, _, rfl⟩
    · unfold Device.setPort
      cases f.port <;> exact ⟨_, _, _, rfl⟩

/-- A list of completions changes the ports and the in-flight set alone. -/
theorem Device.foldComplete_fields (ids : List Nat) (r : Result) (reply : List Byte) (d : Device) : ∃ fl pr se,
    ids.foldl (fun d id => d.complete id r reply) d = { d with flights := fl, primary := pr, service := se } := by
  induction ids generalizing d with
  | nil => exact ⟨_, _, _, rfl⟩
  | cons id ids ih =>
    obtain ⟨fl, pr, se, h⟩ := ih (d.complete id r reply)
    obtain ⟨fl', pr', se', h'⟩ := d.complete_fields id r reply
    rw [List.foldl_cons, h, h']
    exact ⟨_, _, _, rfl⟩

/-- A COMMIT that fails is answered, and its context is abandoned with the answered requests taken from its count (R40,
R43). -/
theorem Device.commitFailed_committing {d : Device} {i : SlotIndex} {c : Ctx} (hc : d.ctx? i = some c)
    (hs : c.state = .committing) :
    let ids := d.flightsWith (.commit i)
    d.commitFailed i = (ids.foldl (fun d id => d.complete id .commitFailed [])
      (d.setCtx i { c with requests := c.requests - ids.length })).beginAbandon i := by
  unfold Device.commitFailed
  dsimp only
  congr 1
  generalize d.flightsWith (.commit i) = ids
  induction ids generalizing d c with
  | nil => exact (Device.setCtx_same hc).symm
  | cons id ids ih =>
    have told : d.completeNaming i id .commitFailed []
        = (d.complete id .commitFailed []).setCtx i { c with requests := c.requests - 1 } := by
      unfold Device.completeNaming Device.leaveContext
      rw [hc]
      dsimp only
      rw [Device.complete_setCtx]
      congr 1
      simp [hs]
    rw [List.foldl_cons, List.foldl_cons, told,
      ih (c := { c with requests := c.requests - 1 }) (Device.ctx?_setCtx_self _ _ _) hs, Device.setCtx_setCtx,
      ← Device.complete_setCtx]
    congr 4
    show c.requests - 1 - ids.length = c.requests - (ids.length + 1)
    omega

/-! ### The wait list -/

/-- What the handling of the wait list can do (R103): under a cause to examine it, its head is made, keeps waiting and
ends the examination, or is refused. -/
theorem Device.waitStep_eq_some {d d' : Device} (h : d.waitStep = some d') :
    d.pool.recheck = true ∧ ∃ g rest, d.pool.waits = g :: rest
      ∧ let without : Device := { d with pool := { d.pool with waits := rest } }
        (∃ as, d.grantNow g = some as ∧ d' = (without.allocate g.requests as).grantMade g as)
        ∨ (d.grantNow g = none ∧ d.grantMayWait g = true ∧ d' = { d with pool := { d.pool with recheck := false } })
        ∨ (d.grantNow g = none ∧ d.grantMayWait g = false ∧ d' = without.grantRefused g) := by
  unfold Device.waitStep at h
  split at h
  · rename_i examined
    refine ⟨examined, ?_⟩
    split at h
    · contradiction
    · rename_i g rest _
      refine ⟨g, rest, by assumption, ?_⟩
      dsimp only at h ⊢
      split at h
      · rename_i as now
        exact .inl ⟨as, now, (Option.some.inj h).symm⟩
      · rename_i now
        refine .inr ?_
        split at h
        · rename_i may
          exact .inl ⟨now, may, (Option.some.inj h).symm⟩
        · rename_i may
          exact .inr ⟨now, by simpa using may, (Option.some.inj h).symm⟩
  · contradiction

end Sys2Proof.Machine
end

