-- ==== Sys2Proof/Tests/Slice0.lean ====
section
/-!
SUPPORT. The model's own tests: the ill-formed commands that the check refuses, a few single steps, and for each
statement of `Certificates/Slice0/Obligations.lean` that has hypotheses a state and operands that meet them, clause by
clause.
-/

namespace Sys2Proof.Tests

open Sys2Proof Sys2Proof.Machine

-- Each test is a kernel evaluation that needs the whole environment before it: elaborated all at once, they would
-- each hold
-- a waiting thread.
set_option Elab.async false

/-! ### Well-formed commands -/

theorem test_submitOfAnotherCodeIsIllFormed : (Instr.submit .primary [0xA2]).wellFormed = false := by decide
theorem test_emptySubmitIsIllFormed : (Instr.submit .service []).wellFormed = false := by decide
theorem test_portResetOfAnotherCodeIsIllFormed : (Instr.portReset .primary [0xA1, 0, 0]).wellFormed = false := by decide
theorem test_emptyPortResetIsIllFormed : (Instr.portReset .service []).wellFormed = false := by decide
theorem test_submitOfItsCodeIsWellFormed : (Instr.submit .primary [0xA1]).wellFormed = true := by decide

/-! ### The check values of the two CRCs and the published address (R129, section 11.9) -/

/-- The nine ASCII digits that CRC catalogues give check values for. -/
def digits : List Byte := [0x31, 0x32, 0x33, 0x34, 0x35, 0x36, 0x37, 0x38, 0x39]

theorem test_crc16OfTheDigits : crc16 digits = 0x29B1 := by decide +kernel
theorem test_crc32OfTheDigits : crc32 digits = 0xCBF43926 := by decide +kernel
theorem test_crc32OfTwoParts : crc32Join (crc32 (digits.take 4)) (crc32 (digits.drop 4)) 5 = crc32 digits := by
  decide +kernel
theorem test_strapAddresses : strapAddress 0 = 0x38 ∧ strapAddress 3 = 0x3B := by decide

/-! ### Small states -/

/-- A block. -/
def blk (b : Bank) (k : BlockNo) : BlockAddr := { bank := b, block := k }

/-- The record the tests use. -/
def rec0 : RecordName := { ns := 0, key := 5 }

/-- A mirrored namespace, FULL for the Primary Port and READ for the Service Port. -/
def desc0 : NsDesc :=
  { enabled := true, mirrored := true, early := false, primaryRight := .full, serviceRight := .read, recordLimit := 4,
    quota := 100 }

/-- A layout with that namespace alone. -/
def layout0 : Layout := (Vector.replicate 8 NsDesc.disabled).set 0 desc0

/-- A version of one chunk in both copies. -/
def version0 : Version :=
  { generation := 1, bodyLength := 1, frozen := false, retired := false
    chunks := [some { addr := blk 0 64, copy := .primary }], mirrors := [some (blk 1 64)] }

/-- A LIVE entry with that version. -/
def entry0 : Entry :=
  { name := rec0, state := .live, version := version0, hold := .none, marks := 0, busy := .none, damaged := []
    retireOrder := none }

/-- A line of the Block State Table. -/
def line (a : BlockAddr) (s : BlockState) (owner : Option Owner) : BlockLine :=
  { addr := a, entry := { BlockEntry.plain s 10 with owner := owner } }

/-- The owner of a copy of the version's chunk. -/
def owner0 (copy : Copy) : Owner := { name := rec0, generation := 1, chunk := 0, copy := copy }

/-- A device in phase READY with one record and a few blocks. -/
def ready : Device :=
  { Device.blank with
    power := .running, phase := .ready
    layout := { active := some layout0, version := 1, staged := layout0, pending := false, nextPage := 6 }
    dir := [entry0]
    pool := { Pool.cleared with
      table := [line (blk 0 64) .allocated (some (owner0 .primary)), line (blk 0 65) .free none,
        line (blk 1 64) .allocated (some (owner0 .mirror)), line (blk 1 65) .free none] }
    scan := { Scan.cleared with stage := .finished } }

/-- The whole state of a device. -/
def full (d : Device) : State := { State.reset with toDevice := d }

/-- A state in which a port's request of a body is the next one to take. -/
def asking (d : Device) (p : Port) (body : Req) : State :=
  full (d.setPort p { PortState.cleared with requests := [{ tag := 7, body := body }], tags := [7] })

/-- A state in which a job is in progress in a bank. -/
def working (d : Device) (b : Bank) (j : Job) : State :=
  full { d with engines := d.engines.set b { queue := [], waiting := [], current := some j } }

/-- A device with one request in flight. -/
def flying (d : Device) (kind : RequestKind) (work : Work) : Device :=
  { d with flights := [{ id := 0, port := .primary, tag := 7, kind := kind, discard := false, work := work }] }

/-- The ready device with the entry changed. -/
def readyWith (f : Entry → Entry) : Device := { ready with dir := [f entry0] }

/-- A context of one chunk for the record, as a REPLACE opens it. -/
def ctx0 : Ctx :=
  { owner := .primary, name := rec0, state := .open, mode := .replace, bodyLength := 1, chunkCount := 1, copies := 2
    newGen := 2, baseGen := some 1, present := [], inFlight := []
    chunks := [{ primary := none, mirror := none, crc := 0 }], reserved := 2, requests := 0, timer := some 30
    attempt := 0, copying := none }

/-- The ready device with a context in slot 0. -/
def opened (c : Ctx) : Device := (readyWith fun e => { e with busy := .update 0 }).setCtx 0 c

/-- The context with its chunk programmed. -/
def ctxFull : Ctx :=
  { ctx0 with
    present := [0], reserved := 0
    chunks := [{ primary := some (blk 0 65), mirror := some (blk 1 65), crc := crc32 [1] }] }

/-- The state a step leads to, when it goes on. -/
def after : Host.Outcome State Fault Refusal → Option State
  | .next t => some t
  | _ => none

/-- The tags and results of the completions of a port after a step. -/
def posted (p : Port) (o : Host.Outcome State Fault Refusal) : Option (List (Byte × Result)) :=
  (after o).map fun t => (t.port p).completions.map fun c => (c.tag, c.result)

/-! ### Steps, reset and invariants -/

theorem test_stepOfAnEmptyQueue : State.reset.pending = [] ∧ after (step State.reset) = some State.reset := by
  decide +kernel
theorem test_stepOfAFrame :
    after (step (State.reset.withPending [.submit .primary (submitFrame 7 .health [])]))
      = some { State.reset with toDevice := State.reset.setPort .primary { PortState.cleared with
          lastSubmit := .accepted, requests := [{ tag := 7, body := .health }], tags := [7] } } := by decide +kernel
theorem test_enterStartingGivesTheResetState : State.reset.enterStarting = State.reset.toDevice := by decide +kernel
theorem test_resetMeetsTheInvariants :
    Memory.wf State.reset.cells = true ∧ State.reset.primary.requests.length ≤ 8 ∧ State.reset.load .primary ≤ 8
      ∧ State.reset.load .service ≤ 4 ∧ State.reset.primary.tags.Nodup ∧ (State.reset.dir.map fun e => e.name.num) = []
      ∧ (State.reset.pool.table.map fun l => l.addr.num) = [] := by decide +kernel

/-! ### Frames -/

/-- Whether a port's request of a body, with tag 7, is the next one to take. -/
def next (s : State) (p : Port) (body : Req) : Bool := decide (s.nextTake = some (p, { tag := 7, body := body }))

/-- Whether a job is in progress in a bank while the part runs. -/
def works (s : State) (b : Bank) (j : Job) : Bool :=
  decide (s.power = .running) && decide (s.engines[b].current = some j)

/-- A port state with a number of accepted requests. -/
def holding (n : Nat) : PortState :=
  { PortState.cleared with
    requests := (List.range n).map fun i => { tag := BitVec.ofNat 8 i, body := .health }
    tags := (List.range n).map (BitVec.ofNat 8) }

/-- The frame the tests submit. -/
def frame0 : List Byte := submitFrame 200 .health []

theorem test_submitClauses :
    ready.linkUp = true ∧ frame0.head? = some submitCode ∧ parseSubmit frame0 = some { tag := 200, body := .health }
      ∧ [submitCode].head? = some submitCode ∧ parseSubmit [submitCode] = none
      ∧ (200 : Byte) ∈ (200 :: (holding 1).tags) ∧ (200 : Byte) ∉ (holding 8).tags
      ∧ Port.primary.depth ≤ (holding 8).requests.length ∧ (holding 7).requests.length < Port.primary.depth
      ∧ Port.service.depth ≤ (holding 4).requests.length ∧ (holding 3).requests.length < Port.service.depth := by
  decide +kernel
theorem test_submitFrameLengths :
    RequestKind.lengthOk .putChunk 4 = true ∧ RequestKind.lengthOk .putChunk 3331 = true
      ∧ RequestKind.lengthOk .putChunk 3332 = false ∧ RequestKind.lengthOk .health 0 = true
      ∧ parseSubmit (submitFrame 9 .find [0, 5, 0, 0, 0]) = some { tag := 9, body := .find 0 5 }
      ∧ 1 ≤ [(9 : Byte)].length ∧ RequestKind.lengthOk .putChunk 4 = true
      ∧ parseSubmit (withCrc16 [0xA1, 7, 0x03, 9, 0, 1, 0x78, 0x56, 0x34, 0x12, 0x02, 0x01, 0x04, 0x03])
          = some { tag := 7, body := .read 1 0x12345678 0x0102 0x0304 }
      ∧ parseSubmit (withCrc16 [0xA1, 7, 0x0F, 8, 0, 0x02, 0x01, 3, 4, 0x06, 0x05, 7, 8])
          = some { tag := 7, body := .configure 0x0102 3 4 0x0506 7 8 }
      ∧ parseSubmit (withCrc16 [0xA1, 7, 0x13, 10, 0, 1, 2, 0x04, 0x03, 0x06, 0x05, 7, 8, 9, 10])
          = some { tag := 7, body := .defineNamespace 1 2 0x0304 0x0506 7 8 9 10 } := by decide +kernel
theorem test_framesWhileTheLinkIsDown :
    Device.blank.linkUp = false ∧ ({ ready with resetLow := true } : Device).linkUp = false
      ∧ (full ready).nextTake = none ∧ next (asking ready .primary .health) .primary .health = true
      ∧ (full ready).engines[(0 : Bank)].current = none ∧ Device.blank.power ≠ .running := by decide +kernel
theorem test_collectClauses :
    (full ready).linkUp = true
      ∧ posted .primary (exec (.collect .primary .completes) (full (ready.setPort .primary { PortState.cleared with
          completions := [{ tag := 7, kind := .health, result := .ok, reply := [] }]
          transfer := .collect (some { tag := 7, kind := .health, result := .ok, reply := [] }) }))) = some []
      ∧ posted .primary (exec (.collect .primary .cut) (full (ready.setPort .primary { PortState.cleared with
          completions := [{ tag := 7, kind := .health, result := .ok, reply := [] }]
          transfer := .collect (some { tag := 7, kind := .health, result := .ok, reply := [] }) })))
            = some [(7, .ok)]
      ∧ (ready.collectBegins .service).service.transfer = .collect none := by decide +kernel
theorem test_statusClauses :
    (ready.statusBegins .service).service.transfer = .status Notices.empty
      ∧ (after (exec (.status .primary .completes) (full (ready.setPort .primary { PortState.cleared with
          notices := { Notices.empty with rebuildDone := true, urgencyRaised := true }
          transfer := .status { Notices.empty with rebuildDone := true } })))).map (·.primary.notices)
            = some { Notices.empty with urgencyRaised := true } := by decide +kernel
theorem test_portResetFrames :
    portResetOk [portResetCode] = false ∧ portResetOk (withCrc16 [portResetCode]) = true
      ∧ (after (exec (.portReset .primary (withCrc16 [portResetCode])) (full (opened ctx0)))).map
          (·.slots[(0 : SlotIndex)])
          = some { seq := 1, ctx := none } := by decide +kernel

/-! ### Taking requests -/

theorem test_takeClauses :
    Device.blank.power ≠ .running
      ∧ ({ ready with turn := .service, primary := holding 1, service := holding 1 } : Device).nextTake
          = some (.service, { tag := 0, body := .health })
      ∧ ({ ready with turn := .service, primary := holding 1 } : Device).nextTake
          = some (.primary, { tag := 0, body := .health })
      ∧ (∀ f ∈ (flying ready .maintain .maintain).flights, f.id ≠ (flying ready .maintain .maintain).newFlightId) := by
  decide +kernel

/-- The ready device with a run in progress. -/
def inRun (m : Maint → Maint) : Device := { ready with maint := m { Maint.cleared with run := .running } }

/-- A refresh of the record in progress. -/
def reloc0 : Reloc :=
  { newReloc entry0 .refresh 2 false false with
    stage := .copying, jobs := 1, blocks := [⟨blk 0 65, true⟩, ⟨blk 1 65, true⟩]
    primary := { attempt := 1, block := some (blk 0 65), job := some 13, done := false }
    mirror := some { attempt := 1, block := some (blk 1 65), job := none, done := true } }

/-- A block that the run is erasing. -/
def erasing (who : Eraser) : BlockLine :=
  { addr := blk 2 7, entry := { BlockEntry.plain .erasing 10 with erase := some { eraser := who, stamp := false } } }

theorem test_interruptClauses :
    ready.maint.run ≠ .running
      ∧ ({ inRun id with pool := { ready.pool with level := 3, table := [erasing .run] } } : Device).inScrubPart = true
      ∧ (inRun id).pool.level ≠ 3 ∧ (inRun id).maint.reloc = none
      ∧ (inRun fun m => { m with reloc := some { reloc0 with stage := .commitQueued } }).maint.reloc
          = some { reloc0 with stage := .commitQueued }
      ∧ reloc0.stage ≠ .commitQueued ∧ reloc0.stage ≠ .mirrorCommit ∧ reloc0.ending = none
      ∧ ((inRun fun m => { m with reloc := some reloc0 }).interruptRun.maint.reloc.map (·.ending))
          = some (some .interrupted) := by decide +kernel

/-- The checks of FIND pass in READY and fail in STARTING; the key has an entry or none. -/
theorem test_findClauses :
    next (asking ready .primary (.find 0 5)) .primary (.find 0 5) = true
      ∧ firstFailure ((asking ready .primary (.find 0 5)).lookupChecks .primary 0) = none
      ∧ (asking ready .primary (.find 0 5)).entryOf 0 5 = some entry0
      ∧ (asking ready .primary (.find 0 6)).entryOf 0 6 = none
      ∧ posted .primary (exec .find (asking ready .primary (.find 0 5))) = some [(7, .ok)]
      ∧ posted .primary (exec .find (asking ready .primary (.find 0 6))) = some [(7, .notFound)]
      ∧ posted .service (exec .find (asking { ready with phase := .starting } .service (.find 0 5)))
          = some [(7, .notReady)] := by decide +kernel
theorem test_listClauses :
    next (asking ready .service (.list 0 0 16)) .service (.list 0 0 16) = true
      ∧ (asking ready .service (.list 0 0 16)).nsOf 0 = some 0
      ∧ posted .service (exec .list (asking ready .service (.list 0 0 16))) = some [(7, .ok)]
      ∧ posted .service (exec .list (asking ready .service (.list 0 0 17))) = some [(7, .badParameter)]
      ∧ posted .primary (exec .list (asking ready .primary (.list 0 0 64))) = some [(7, .ok)]
      ∧ posted .primary (exec .list (asking ready .primary (.list 0 0 0))) = some [(7, .badParameter)] := by
  decide +kernel

/-- The ready device whose record has lost its PRIMARY chunk 0. -/
def missing : Device := readyWith fun e => { e with version := { e.version with chunks := [none] } }

theorem test_readClauses :
    next (asking ready .primary (.read 0 5 0 1)) .primary (.read 0 5 0 1) = true
      ∧ version0.chunkAt 0 = some { addr := blk 0 64, copy := .primary }
      ∧ posted .primary (exec .read (asking ready .primary (.read 0 5 0 1))) = some []
      ∧ posted .primary (exec .read (asking ready .primary (.read 0 5 1 1))) = some [(7, .badParameter)]
      ∧ ({ version0 with chunks := [none] } : Version).chunkAt 0 = none
      ∧ posted .primary (exec .read (asking missing .primary (.read 0 5 0 1))) = some [(7, .dataLost)] := by
  decide +kernel
theorem test_checkClauses :
    next (asking ready .service (.check 0 5)) .service (.check 0 5) = true
      ∧ (asking ready .service (.check 0 5)).entryOf 0 5 = some entry0
      ∧ posted .service (exec .check (asking ready .service (.check 0 5))) = some []
      ∧ (after (exec .check (asking ready .service (.check 0 5)))).map (·.engines[(0 : Bank)].queue.length) = some 14
      ∧ posted .service (exec .check (asking ready .service (.check 0 6))) = some [(7, .notFound)] := by decide +kernel
theorem test_openClauses :
    next (asking ready .primary (.openUpdate 0 6 3329 1)) .primary (.openUpdate 0 6 3329 1) = true
      ∧ firstFailure ((asking ready .primary (.openUpdate 0 6 3329 1)).openChecks .primary 0 6 3329 1) = none
      ∧ (asking ready .primary (.openUpdate 0 6 3329 1)).nsOf 0 = some 0
      ∧ (asking ready .primary (.openUpdate 0 6 3329 1)).firstFree = some 0
      ∧ ready.entry? { ns := 0, key := 6 } = none ∧ ready.entry? rec0 = some entry0
      ∧ firstFailure ((asking ready .primary (.openUpdate 0 5 53248 2)).openChecks .primary 0 5 53248 2) = none
      ∧ posted .primary (exec .openUpdate (asking ready .primary (.openUpdate 0 6 3329 1))) = some [(7, .ok)]
      ∧ posted .primary (exec .openUpdate (asking ready .primary (.openUpdate 0 5 53248 2))) = some [(7, .ok)]
      ∧ posted .primary (exec .openUpdate (asking ready .primary (.openUpdate 0 5 53249 2)))
          = some [(7, .badParameter)] := by decide +kernel
theorem test_handleClauses :
    next (asking { ready with phase := .halted } .primary (.commit 0)) .primary (.commit 0) = true
      ∧ (opened ctx0).ctx? 0 = some ctx0 ∧ (opened ctx0).handle 0 = 0
      ∧ posted .primary (exec .commit (asking { ready with phase := .halted } .primary (.commit 0)))
          = some [(7, .notReady)]
      ∧ posted .primary (exec .putChunk (asking (opened ctx0) .primary (.putChunk 1 0 [1]))) = some [(7, .handleStale)]
      ∧ posted .service (exec .abandon (asking (opened ctx0) .service (.abandon 0))) = some [(7, .denied)] := by
  decide +kernel
theorem test_putChunkClauses :
    next (asking (opened ctx0) .primary (.putChunk 0 0 [1])) .primary (.putChunk 0 0 [1]) = true
      ∧ firstFailure ((opened ctx0).putChecks ctx0 0 [1]) = none
      ∧ firstFailure ((opened ctx0).putChecks ctx0 1 [1]) = some .badParameter
      ∧ posted .primary (exec .putChunk (asking (opened ctx0) .primary (.putChunk 0 0 [1]))) = some []
      ∧ (after (exec .putChunk (asking (opened ctx0) .primary (.putChunk 0 0 [1])))).map
          (fun t => (t.blockState (blk 0 65), t.blockState (blk 1 65))) = some (some .allocated, some .allocated)
      ∧ posted .primary (exec .putChunk (asking (opened ctx0) .primary (.putChunk 0 0 [1, 2])))
          = some [(7, .chunkLength)] := by decide +kernel
theorem test_commitClauses :
    next (asking (opened ctxFull) .primary (.commit 0)) .primary (.commit 0) = true
      ∧ firstFailure ((opened ctxFull).commitChecks ctxFull) = none ∧ (ctxFull.chunkAt 0).primary = some (blk 0 65)
      ∧ posted .primary (exec .commit (asking (opened ctxFull) .primary (.commit 0))) = some []
      ∧ posted .primary (exec .commit (asking (opened ctx0) .primary (.commit 0))) = some [(7, .incomplete)]
      ∧ (ctxFull.chunkAt 0).crc = crc32 (sliceBytes [1] 0 3328) ∧ ctxFull.chunkCount = (1 + 3327) / 3328
      ∧ ctxFull.bodyCrc = crc32 [1] := by decide +kernel
theorem test_abandonClauses :
    next (asking (opened ctx0) .primary (.abandon 0)) .primary (.abandon 0) = true
      ∧ posted .primary (exec .abandon (asking (opened ctx0) .primary (.abandon 0))) = some [(7, .ok)]
      ∧ posted .primary (exec .abandon (asking (opened { ctx0 with state := .committing }) .primary (.abandon 0)))
          = some [(7, .recordBusy)]
      ∧ (opened ctxFull).putsOf 0 = [] ∧ ctxFull.mode = .replace
      ∧ ((opened ctxFull).beginAbandon 0).entry? rec0 = some entry0
      ∧ ((opened { ctxFull with mode := .create }).beginAbandon 0).entry? rec0 = none := by decide +kernel
theorem test_idleTimerClauses :
    (full (opened ctx0)).timerRuns 0 = true ∧ (full ready).timerRuns 0 = false
      ∧ (after (exec (.idleTimerExpiry 0) (full (opened ctx0)))).map
          (fun t => (t.slots[(0 : SlotIndex)].ctx, t.primary.notices.updateExpired)) = some (none, true) := by
  decide +kernel

/-! ### Marks, holds and locks -/

/-- The ready device with the record in a state and with a hold. -/
def readyAs (s : RecordState) (h : Hold) : Device := readyWith fun e => { e with state := s, hold := h }

theorem test_markRequestClauses :
    next (asking ready .primary (.retire 0 5)) .primary (.retire 0 5) = true
      ∧ posted .primary (exec .retire (asking ready .primary (.retire 0 5))) = some []
      ∧ posted .primary (exec .retire (asking (readyAs .live .frozen) .primary (.retire 0 5))) = some [(7, .holdFrozen)]
      ∧ posted .primary (exec .restore (asking ready .primary (.restore 0 5))) = some [(7, .ok)]
      ∧ posted .primary (exec .restore (asking (readyAs .retired .none) .primary (.restore 0 5))) = some []
      ∧ posted .service (exec .restore (asking ready .service (.restore 0 5))) = some [(7, .denied)]
      ∧ posted .primary (exec .freeze (asking (readyAs .live .frozen) .primary (.freeze 0 5))) = some [(7, .ok)]
      ∧ posted .primary (exec .freeze (asking (readyAs .live (.held .service)) .primary (.freeze 0 5)))
          = some [(7, .holdConflict)]
      ∧ posted .primary (exec .freeze (asking ready .primary (.freeze 0 5))) = some []
      ∧ posted .primary (exec .freeze (asking (readyAs .retired .none) .primary (.freeze 0 5)))
          = some [(7, .recordRetired)] := by decide +kernel
theorem test_markWorkClauses :
    ({ entry0 with marks := 2 } : Entry).version.chunkAt 0 = some { addr := blk 0 64, copy := .primary }
      ∧ firstFailure (ready.relocationChecks { entry0 with marks := 3 }) = none
      ∧ firstFailure (ready.relocationChecks { entry0 with version := { version0 with generation := 4294967294 } })
          = some .generationLimit := by decide +kernel

/-- The job of a mark of slot 1 in the PRIMARY or the MIRROR chunk 0. -/
def markJob (q : Queuer) : Job := segmentJob 64 14 0 (markRecord .retire 1 1) q

/-- A device whose retire of the record programs slot 1. -/
def marking (f : Version → Version) (copy : Copy) : Device :=
  flying (readyWith fun e => { e with version := f e.version, busy := .mark }) .retire
    (.mark { kind := .retire, name := rec0, stage := .slot 1 copy })

theorem test_markCompletionClauses :
    works (working (marking id .primary) 0 (markJob (.mark 0))) 0 (markJob (.mark 0)) = true
      ∧ (marking id .primary).work? 0 = some (.mark { kind := .retire, name := rec0, stage := .slot 1 .primary })
      ∧ version0.mirrorAt 0 = some (blk 1 64) ∧ ({ version0 with mirrors := [] } : Version).mirrorAt 0 = none
      ∧ posted .primary (exec (.markProgramDone 0 .ok) (working (marking id .primary) 0 (markJob (.mark 0)))) = some []
      ∧ posted .primary (exec (.markProgramDone 0 .ok)
          (working (marking (fun v => { v with mirrors := [] }) .primary) 0 (markJob (.mark 0)))) = some [(7, .ok)]
      ∧ posted .primary (exec (.markProgramDone 0 .fail) (working (marking id .primary) 0 (markJob (.mark 0))))
          = some []
      ∧ posted .primary (exec (.markProgramDone 0 .fail)
          (working (marking (fun v => { v with generation := 4294967294 }) .primary) 0 (markJob (.mark 0))))
          = some [(7, .generationLimit)]
      ∧ posted .primary (exec (.mirrorMarkProgramDone 1 .fail)
          (working (marking id .mirror) 1 (markJob (.mirrorMark 0)))) = some [(7, .ok)] := by decide +kernel
theorem test_holdClauses :
    next (asking ready .primary (.hold 0 5)) .primary (.hold 0 5) = true
      ∧ (after (exec .hold (asking ready .primary (.hold 0 5)))).map (fun t => (t.entry? rec0).map (·.hold))
          = some (some (.held .primary))
      ∧ posted .primary (exec .hold (asking (readyAs .reserved .none) .primary (.hold 0 5))) = some [(7, .recordBusy)]
      ∧ (after (exec .release (asking (readyAs .live (.held .primary)) .primary (.release 0 5)))).map
          (fun t => (t.entry? rec0).map (·.hold)) = some (some .none)
      ∧ posted .primary (exec .release (asking (readyAs .live (.held .service)) .primary (.release 0 5)))
          = some [(7, .holdConflict)] := by decide +kernel
theorem test_lockClauses :
    next (asking ready .primary (.lockNamespace 0)) .primary (.lockNamespace 0) = true
      ∧ firstFailure (ready.claimChecks .primary 0) = none ∧ firstFailure (ready.claimChecks .primary 7)
          = some .nsInvalid
      ∧ (after (exec .lockNamespace (asking ready .primary (.lockNamespace 0)))).map (·.locks[(0 : NsIndex)])
          = some true := by decide +kernel

/-! ### The device requests -/

theorem test_configureClauses :
    next (asking ready .primary (.configure 255 8 1 1024 1 0)) .primary (.configure 255 8 1 1024 1 0) = true
      ∧ configureOk 0 4 0 64 0 0 = true ∧ configureOk 0xFFFF 0xFF 0xFF 0xFFFF 0xFF 0xFF = true
      ∧ configureOk 256 8 1 1024 1 0 = false
      ∧ (after (exec .configure (asking ready .primary (.configure 255 8 1 1024 1 0)))).map
          (fun t => (t.settings, t.primary.alertEnable, t.service.alertEnable))
          = some ({ timeout := 255, threshold := 8, mode := .manual, wearSpread := 1024 }, true, false)
      ∧ posted .service (exec .configure (asking ready .service (.configure 0 4 0 64 0 1))) = some [(7, .denied)] := by
  decide +kernel
theorem test_maintainClauses :
    next (asking ready .service .maintain) .service .maintain = true ∧ ready.maint.run = .idle
      ∧ posted .service (exec .maintain (asking ready .service .maintain)) = some [(7, .ok)]
      ∧ posted .service (exec .maintain (asking (inRun id) .service .maintain)) = some [(7, .maintBusy)] := by
  decide +kernel
theorem test_healthAndIdentifyClauses :
    next (asking { ready with phase := .halted } .service .health) .service .health = true
      ∧ next (asking ready .primary .identify) .primary .identify = true
      ∧ posted .service (exec .health (asking { ready with phase := .halted } .service .health)) = some [(7, .ok)]
      ∧ posted .primary (exec .identify (asking ready .primary .identify)) = some [(7, .ok)] := by decide +kernel
theorem test_defineNamespaceClauses :
    next (asking ready .primary (.defineNamespace 7 1 1024 1792 1 1 2 2)) .primary
        (.defineNamespace 7 1 1024 1792 1 1 2 2) = true
      ∧ (after (exec .defineNamespace (asking ready .primary (.defineNamespace 7 1 1024 1792 1 1 2 2)))).map
          (·.layout.staged[(7 : NsIndex)].quota) = some 1792
      ∧ (after (exec .defineNamespace (asking ready .primary (.defineNamespace 0 0 5 5 1 1 2 2)))).map
          (·.layout.staged[(0 : NsIndex)]) = some NsDesc.disabled
      ∧ posted .primary (exec .defineNamespace (asking ready .primary (.defineNamespace 8 1 1024 1792 1 1 2 2)))
          = some [(7, .badParameter)] := by decide +kernel

/-- A device with nothing recorded whose staged layout fits: namespace 0 with a quota below the blocks it has. -/
def emptyPart (next : Nat) : Device :=
  { ready with
    dir := []
    pool := { Pool.cleared with
      table := (List.range 40).map fun i => line (blk 0 (Fin.ofNat 512 (i + 1))) .free none }
    layout := { ready.layout with staged := layout0.set 0 { desc0 with quota := 8 }, nextPage := next } }

theorem test_commitLayoutClauses :
    next (asking (emptyPart 15) .primary .commitLayout) .primary .commitLayout = true
      ∧ firstFailure ((emptyPart 15).layoutChecks .primary) = none
      ∧ firstFailure ((emptyPart 16).layoutChecks .primary) = some .layoutExhausted
      ∧ firstFailure (ready.layoutChecks .primary) = some .layoutNotEmpty := by decide +kernel

/-- A device whose COMMIT LAYOUT programs version 11. -/
def layingOut (bank0 : Option OkFail) : Device := flying (emptyPart 16) .commitLayout (.layout 11 bank0)

/-- The job of a layout page. -/
def layoutJob : Job := pageJob 0 15 (List.replicate 256 0) (.layoutPage 0)

theorem test_layoutPageClauses :
    works (working (layingOut none) 0 layoutJob) 0 layoutJob = true
      ∧ (layingOut none).work? 0 = some (.layout 11 none) ∧ (layingOut (some .fail)).work? 0
          = some (.layout 11 (some .fail))
      ∧ posted .primary (exec (.layoutPageProgramDone 0 .fail) (working (layingOut none) 0 layoutJob)) = some []
      ∧ posted .primary (exec (.layoutPageProgramDone 1 .ok) (working (layingOut (some .fail)) 1 layoutJob))
          = some [(7, .ok)]
      ∧ posted .primary (exec (.layoutPageProgramDone 1 .fail) (working (layingOut (some .fail)) 1 layoutJob))
          = some [(7, .mediaFailed)] := by decide +kernel

/-! ### Resets and power -/

/-- A part that drains one job. -/
def draining (low : Bool) : State := working { ready with power := .draining, resetLow := low } 3 layoutJob

theorem test_resetClauses :
    next (asking ready .primary .reset) .primary .reset = true ∧ ready.phase ≠ .halted
      ∧ posted .service (exec .reset (asking ready .service .reset)) = some [(7, .denied)]
      ∧ posted .primary (exec .reset (asking { ready with phase := .halted } .primary .reset)) = some [(7, .notReady)]
      ∧ (∀ b : Bank, ready.engines[b].current = none) ∧ ready.resetLow = false ∧ ready.power = .running
      ∧ after (exec .reset (asking ready .primary .reset)) = some State.reset
      ∧ (working ready 3 layoutJob).engines[(3 : Bank)].current ≠ none ∧ (draining true).resetLow = true
      ∧ (draining true).power = .draining := by decide +kernel
theorem test_powerClauses :
    Device.blank.power = .off ∧ Device.blank.resetLow = false ∧ ready.power ≠ .off
      ∧ after (exec .coldStart (full Device.blank)) = some State.reset
      ∧ (draining false).power = .draining ∧ (draining false).engines[(3 : Bank)].current = some layoutJob
      ∧ (∀ c : Bank, c ≠ 3 → (draining false).engines[c].current = none)
      ∧ (after (exec (.drainJobDone 3 .ok) (draining false))).map (·.toDevice) = some State.reset.toDevice
      ∧ (after (exec (.drainJobDone 3 .ok) (draining true))).map (·.power) = some .draining
      ∧ (after (exec .powerLoss (working ready 3 layoutJob))).map (·.weak.length) = some 16 := by decide +kernel

/-! ### Puts and commits -/

/-- A device whose put of chunk 0 works its PRIMARY copy. -/
def putting (r : CopyRun) (mirrorDone : Bool) : Device :=
  flying (opened { ctx0 with
      inFlight := [0], reserved := 0, requests := 1, timer := none
      chunks := [{ primary := some (blk 0 65), mirror := some (blk 1 65), crc := 0 }] })
    .putChunk
    (.put { slot := 0, chunk := 0, data := [1], primary := r
            mirror := some { attempt := 1, block := some (blk 1 65), job := if mirrorDone then none else some 3
                             done := mirrorDone }
            ending := none })

/-- The PRIMARY copy of that put at a job. -/
def runAt (attempt k : Nat) : CopyRun := { attempt := attempt, block := some (blk 0 65), job := some k, done := false }

/-- A page program of that put. -/
def putJob : Job := pageJob 65 13 (List.replicate 256 0) (.put 0 .primary)

theorem test_putProgramClauses :
    works (working (putting (runAt 1 13) true) 0 putJob) 0 putJob = true
      ∧ ((putting (runAt 1 13) true).ctx? 0).isSome = true
      ∧ posted .primary (exec (.putProgramDone 0 .ok) (working (putting (runAt 1 12) true) 0 putJob)) = some []
      ∧ posted .primary (exec (.putProgramDone 0 .ok) (working (putting (runAt 1 13) true) 0 putJob))
          = some [(7, .ok)]
      ∧ posted .primary (exec (.putProgramDone 0 .ok) (working (putting (runAt 1 13) false) 0 putJob)) = some []
      ∧ (after (exec (.putProgramDone 0 .fail) (working (putting (runAt 1 0) true) 0 putJob))).map
          (fun t => (t.blockState (blk 0 65), posted .primary (.next t))) = some (some .bad, some [(7, .noSpace)])
      ∧ posted .primary (exec (.putProgramDone 0 .fail) (working (putting (runAt 2 0) true) 0 putJob))
          = some [(7, .mediaFailed)] := by decide +kernel

/-- The context of a COMMIT in progress. -/
def committing (copying : Option CommitCopy) : Ctx :=
  { ctxFull with state := .committing, requests := 1, timer := none, attempt := 1, copying := copying }

/-- The device of a COMMIT in progress. -/
def commitAt (c : Ctx) : Device := flying (opened c) .commit (.commit 0)

/-- The jobs of a COMMIT: a commit record, a page, and page reads. -/
def recordJob (q : Queuer) : Job := segmentJob 65 15 0 ctxFull.commitRecord q

/-- Attempt 2 at a page. -/
def copyAt (page : Nat) : CommitCopy := { failed := blk 0 70, page := page, secured := 0 }

theorem test_commitPointClauses :
    (commitAt (committing none)).ctx? 0 = some (committing none) ∧ (committing none).copies = 2
      ∧ ((committing none).chunkAt 0).mirror ≠ none
      ∧ (commitAt (committing none)).entry? ctx0.name = some { entry0 with busy := .update 0 }
      ∧ ({ committing none with copies := 1 } : Ctx).copies ≠ 2 := by decide +kernel
theorem test_commitRecordClauses :
    works (working (commitAt (committing none)) 0 (recordJob (.commitRecord 0))) 0 (recordJob (.commitRecord 0)) = true
      ∧ posted .primary (exec (.commitRecordDone 0 .ok)
          (working (commitAt (committing none)) 0 (recordJob (.commitRecord 0)))) = some []
      ∧ (after (exec (.commitRecordDone 0 .fail)
          (working (commitAt (committing none)) 0 (recordJob (.commitRecord 0))))).map (·.blockState (blk 0 65))
          = some (some .bad)
      ∧ posted .primary (exec (.mirrorCommitRecordDone 1 .ok)
          (working (commitAt (committing none)) 1 (recordJob (.mirrorCommitRecord 0)))) = some [(7, .ok)]
      ∧ posted .primary (exec (.mirrorCommitRecordDone 1 .fail)
          (working (commitAt (committing none)) 1 (recordJob (.mirrorCommitRecord 0)))) = some [(7, .ok)] := by
  decide +kernel
theorem test_commitCopyClauses :
    (commitAt (committing (some (copyAt 12)))).ctx? 0 = some (committing (some (copyAt 12)))
      ∧ ((committing (some (copyAt 12))).chunkAt 0).primary = some (blk 0 65)
      ∧ ((committing (some (copyAt 12))).chunkAt 0).mirror = some (blk 1 65)
      ∧ works (working (commitAt (committing (some (copyAt 0)))) 0 (readJob 70 0 (.commitCopyRead 0 .primary))) 0
          (readJob 70 0 (.commitCopyRead 0 .primary)) = true
      ∧ posted .primary (exec (.commitCopyReadDone 1 .uncorrectable)
          (working (commitAt (committing (some (copyAt 0)))) 1 (readJob 65 0 (.commitCopyRead 0 .mirror))))
          = some [(7, .commitFailed)]
      ∧ (recordJob (.commitCopyProgram 0)).target.1 = 15 ∧ (copyAt 12).page < 13 ∧ 13 ≤ (copyAt 13).page
      ∧ (pageJob 65 12 [] (.commitCopyProgram 0)).target.1 ≠ 15
      ∧ posted .primary (exec (.commitCopyProgramDone 0 .fail)
          (working (commitAt (committing (some (copyAt 12)))) 0 (pageJob 65 12 [] (.commitCopyProgram 0))))
          = some [(7, .commitFailed)] := by decide +kernel

/-! ### Relocations -/

/-- A device whose Maintenance Unit relocates the record. -/
def relocating (r : Reloc) : Device :=
  { readyWith (fun e => { e with busy := .relocation }) with
    maint := { Maint.cleared with run := .running, reloc := some r } }

/-- Its read of page 13 of chunk 0. -/
def relocRead (copy : Copy) : Job := readJob 64 13 (.relocRead .maint 0 13 copy)

theorem test_relocationClauses :
    works (working (relocating reloc0) 0 (relocRead .primary)) 0 (relocRead .primary) = true
      ∧ (relocating reloc0).reloc? .maint = some reloc0 ∧ reloc0.ending = none
      ∧ reloc0.source.mirrorAt 0 = some (blk 1 64) ∧ reloc0.source.mirrorAt 1 = none
      ∧ (after (exec (.relocationReadDone 0 .uncorrectable) (working (relocating reloc0) 0 (relocRead .primary)))).map
          (·.engines[(1 : Bank)].current.isSome) = some true
      ∧ (after (exec (.relocationReadDone 0 .uncorrectable) (working (relocating reloc0) 0 (relocRead .mirror)))).map
          (fun t => (t.entry? rec0).map (·.damaged)) = some (some [0])
      ∧ reloc0.run .primary = some { attempt := 1, block := some (blk 0 65), job := some 13, done := false }
      ∧ (after (exec (.relocationProgramDone 0 .ok)
          (working (relocating reloc0) 0 (pageJob 65 13 [] (.relocProgram .maint .primary))))).map
          (fun t => t.maint.reloc.map (·.stage)) = some (some .commitQueued)
      ∧ (after (exec (.relocationProgramDone 0 .fail)
          (working (relocating reloc0) 0 (pageJob 65 13 [] (.relocProgram .maint .primary))))).map
          (fun t => t.blockState (blk 0 65)) = some (some .bad) := by decide +kernel

/-- The relocation at the commit record of one copy. -/
def relocCommitting (stage : RelocStage) : Reloc :=
  { reloc0 with stage := stage, crc := leBytes 4 (crc32 [1]).toNat }

theorem test_relocationCommitClauses :
    works (working (relocating (relocCommitting .commitQueued)) 0 (recordJob (.relocCommit .maint))) 0
        (recordJob (.relocCommit .maint)) = true
      ∧ (relocCommitting .commitQueued).version.mirrorAt 0 = some (blk 1 65)
      ∧ ({ relocCommitting .commitQueued with copies := 1 } : Reloc).copies ≠ 2
      ∧ (after (exec (.relocationCommitDone 0 .ok)
          (working (relocating (relocCommitting .commitQueued)) 0 (recordJob (.relocCommit .maint))))).map
          (fun t => (t.entry? rec0).map (·.version.generation)) = some (some 2)
      ∧ (after (exec (.relocationMirrorCommitDone 1 .fail)
          (working (relocating (relocCommitting .mirrorCommit)) 1 (recordJob (.relocMirrorCommit .maint))))).map
          (fun t => (t.maint.relocated, t.pool.refresh)) = some (1, [rec0]) := by decide +kernel

/-! ### Reads -/

/-- A READ of the first bytes of the record. -/
def read0 : ReadWork :=
  { name := rec0, version := version0, pins := [blk 0 64, blk 1 64], offset := 0, length := 1, chunk := 0, got := []
    jobs := 1, lost := none }

/-- A CHECK of the record. -/
def check0 : CheckWork :=
  { name := rec0, version := version0, pins := [blk 0 64, blk 1 64], got := [], pagesRead := 0, jobs := 1,
      lost := none }

theorem test_pageReadClauses :
    works (working (flying ready .read (.read read0)) 0 (readJob 64 1 (.readPage 0 0 1 .primary))) 0
        (readJob 64 1 (.readPage 0 0 1 .primary)) = true
      ∧ (flying ready .read (.read read0)).work? 0 = some (.read read0) ∧ read0.lost = none
      ∧ version0.mirrorAt 0 = some (blk 1 64)
      ∧ (after (exec (.readPageDone 0 (.corrected 6))
          (working (flying ready .read (.read read0)) 0 (readJob 64 1 (.readPage 0 0 1 .primary))))).map
          (fun t => (posted .primary (.next t), t.pool.refresh)) = some (some [(7, .ok)], [rec0])
      ∧ posted .primary (exec (.readPageDone 1 .uncorrectable)
          (working (flying ready .read (.read read0)) 1 (readJob 64 1 (.readPage 0 0 1 .mirror))))
              = some [(7, .dataLost)]
      ∧ (flying ready .check (.check check0)).work? 0 = some (.check check0)
      ∧ posted .primary (exec (.checkPageDone 0 (.corrected 8))
          (working (flying ready .check (.check check0)) 0 (readJob 64 15 (.checkPage 0 0 15 .primary))))
          = some [(7, .checkMismatch)]
      ∧ posted .primary (exec (.checkPageDone 1 .uncorrectable)
          (working (flying ready .check (.check check0)) 1 (readJob 64 15 (.checkPage 0 0 15 .mirror))))
          = some [(7, .dataLost)] := by decide +kernel

/-- A READ of the last byte of chunk 0 and the first of chunk 1, with both pages kept. -/
def acrossRead : ReadWork :=
  { read0 with
    offset := 3327, length := 2
    got := [{ chunk := 0, page := 13, data := List.replicate 255 0 ++ [3] },
      { chunk := 1, page := 1, data := 4 :: List.replicate 255 0 }] }

/-- Its body. -/
def acrossBody : List Byte := List.replicate 3327 0 ++ [3, 4]

theorem test_readBytesClauses :
    0 < acrossRead.length ∧ acrossRead.offset + acrossRead.length ≤ acrossBody.length
      ∧ acrossRead.chunksTouched = [0, 1] ∧ acrossRead.pagesOf 0 = [13] ∧ acrossRead.pagesOf 1 = [1]
      ∧ pageGot acrossRead.got 0 13 = some (padded 256 (sliceBytes (sliceBytes acrossBody 0 3328) 3072 256))
      ∧ pageGot acrossRead.got 1 1 = some (padded 256 (sliceBytes (sliceBytes acrossBody 3328 3328) 0 256))
      ∧ acrossRead.chunksTouched.flatMap acrossRead.bytesOf = [3, 4] := by decide +kernel

/-- A CHECK that has read every page of the record as it was written. -/
def checkedWhole : CheckWork :=
  { check0 with
    jobs := 0
    got := { chunk := 0, page := 15, data := Machine.commitRecord 1 1 1 (leBytes 4 (crc32 [1]).toNat) }
      :: { chunk := 0, page := 0
           data := List.replicate 16 0 ++ headerRecord
             { name := rec0, chunk := 0, count := 1, copy := .primary, generation := 1, bodyLength := 1, frozen := false
               retired := false } }
      :: (List.range 13).map fun p =>
          { chunk := 0, page := p + 1, data := padded 256 (if p = 0 then [1] else []) } }

theorem test_readEndClauses :
    ({ read0 with jobs := 0, lost := some ⟨0, 1⟩ } : ReadWork).jobs = 0
      ∧ ({ read0 with got := [⟨0, 1, [9]⟩] } : ReadWork).chunkDone = true ∧ read0.chunk + 1 ∉ read0.chunksTouched
      ∧ checkedWhole.failures = [] ∧ ({ checkedWhole with got := [] } : CheckWork).failures.head? = some 0
      ∧ checkedWhole.lost = none := by decide +kernel

/-! ### Erasure and purge -/

/-- A device with a block ERASING at an erase count. -/
def erasingAt (count : Nat) : Device :=
  { ready with pool := { ready.pool with
      table := [{ addr := blk 2 7, entry := { (erasing .run).entry with count := count } }] } }

/-- Jobs of block 7. -/
def eraseJob (op : JobOp) (q : Queuer) : Job := { block := 7, op := op, cls := .erase, by_ := q }

theorem test_scrubEraseClauses :
    works (working (erasingAt 119998) 2 (eraseJob .blockErase .scrubErase)) 2 (eraseJob .blockErase .scrubErase) = true
      ∧ ((erasingAt 119998).pool.block? (blk 2 7)).map (·.count) = some 119998
      ∧ (erasingAt 119998).member? (blk 2 7) = none
      ∧ (after (exec (.scrubEraseDone 2 .ok) (working (erasingAt 119998) 2 (eraseJob .blockErase .scrubErase)))).map
          (fun t => t.blockState (blk 2 7)) = some (some .erasing)
      ∧ (after (exec (.scrubEraseDone 2 .ok) (working (erasingAt 119999) 2 (eraseJob .blockErase .scrubErase)))).map
          (fun t => t.blockState (blk 2 7)) = some (some .bad)
      ∧ (after (exec (.wearStampDone 2 .ok)
          (working (erasingAt 1) 2 (eraseJob (.segmentProgram 0 0 (wearStamp 1)) .wearStamp)))).map
          (fun t => t.blockState (blk 2 7)) = some (some .free) := by decide +kernel

/-- The ready device with the record retired. -/
def retired0 : Device := readyWith fun e => { e with state := .retired, retireOrder := some 1 }

theorem test_purgeClauses :
    next (asking retired0 .primary .purge) .primary .purge = true ∧ retired0.retireList.map (·.name) = [rec0]
      ∧ posted .primary (exec .purge (asking retired0 .primary .purge)) = some []
      ∧ posted .primary (exec .purge (asking ready .primary .purge)) = some [(7, .nothingToPurge)]
      ∧ posted .service (exec .purge (asking retired0 .service .purge)) = some [(7, .nothingToPurge)]
      ∧ posted .primary (exec .purge (asking { ready with phase := .worn } .primary .purge)) = some [(7, .worn)] := by
  decide +kernel

/-- A device whose purge of the record stands at a step. -/
def purging (step : PurgeStep) : Device :=
  { flying (readyWith fun e => { e with state := .purging, busy := .purge }) .purge .purge with
    purge := some
      { flight := some 0, current := rec0, step := step, rest := [], purged := 0, overwritten := 0, skipped := 0 }
    pool := { ready.pool with table := ready.pool.table ++ [erasing .purge] } }

/-- The purge with block 7 of bank 2 at a step. -/
def memberAt (x : MemberStep) : Device := purging (.erase [{ addr := blk 2 7, rank := .ordinary, step := x }])

theorem test_purgeJobClauses :
    works (working (purging (.mark .primary)) 0 (segmentJob 64 14 12 (markRecord .purge 4 1) .purgeMark)) 0
        (segmentJob 64 14 12 (markRecord .purge 4 1) .purgeMark) = true
      ∧ (after (exec (.purgeMarkDone 0 .ok)
          (working (purging (.mark .primary)) 0 (segmentJob 64 14 12 (markRecord .purge 4 1) .purgeMark)))).map
          (fun t => (t.entry? rec0).map (·.marks)) = some (some 4)
      ∧ (after (exec (.purgeMarkDone 1 .fail)
          (working (purging (.mark .mirror)) 1 (segmentJob 64 14 12 (markRecord .purge 4 1) .purgeMark)))).map
          (fun t => t.blockState (blk 1 64)) = some (some .bad)
      ∧ ((memberAt .erasing).member? (blk 2 7)).isSome = true
      ∧ (after (exec (.purgeEraseDone 2 .ok) (working (memberAt .erasing) 2 (eraseJob .blockErase .purgeErase)))).map
          (fun t => t.engines[(2 : Bank)].current.map (·.by_)) = some (some .purgeVerify)
      ∧ (eraseJob (.eraseVerify 0) .purgeVerify).target.1 = 0 ∧ (eraseJob (.eraseVerify 1) .purgeVerify).target.1 ≠ 0
      ∧ (full ready).verifyPasses (blk 2 7) 1 .ok = true ∧ (full ready).verifyPasses (blk 2 7) 0 .ok = false
      ∧ (after (exec (.purgeVerifyDone 2 .ok)
          (working (memberAt (.verifying 1)) 2 (eraseJob (.eraseVerify 1) .purgeVerify)))).map
          (fun t => t.blockState (blk 2 7)) = some (some .free)
      ∧ (after (exec (.purgeOverwriteDone 2 .fail)
          (working (memberAt (.overwriting 15)) 2 (eraseJob (.pageProgram 15 []) .purgeOverwrite)))).map
          (fun t => t.blockState (blk 2 7)) = some (some .bad)
      ∧ (eraseJob (.pageProgram 14 []) .purgeOverwrite).target.1 < 15 := by decide +kernel
theorem test_badBlockClauses :
    ready.blockState (blk 0 64) = some .allocated ∧ ready.blockState (blk 0 0) = some .descriptor
      ∧ (ready.makeBad (blk 0 64) .program 14 0).blockState (blk 0 64) = some .bad
      ∧ (ready.makeBad (blk 0 64) .program 14 0).pool.slots[(0 : Bank)] = 1
      ∧ works (working ready 0 (segmentJob 0 1 0 (grownBadRecord 64 .erase 0 0) .grownBad)) 0
          (segmentJob 0 1 0 (grownBadRecord 64 .erase 0 0) .grownBad) = true := by decide +kernel

/-! ### The scanner -/

/-- The scanner's read of the identity page of a bank. -/
def identifying (b : Bank) : State :=
  working { State.reset.toDevice with scan := { Scan.cleared with
    stage := .identity b, out := (Vector.replicate 4 false).set b true } } b (readJob 0 0 .scanRead)

theorem test_scanReadClauses :
    works State.reset 0 (readJob 0 0 .scanRead) = true
      ∧ (readIdentity (State.reset.readBytes 0 (readJob 0 0 .scanRead))).isSome = true
      ∧ (after (exec (.scanReadDone 0 (.corrected 0)) State.reset)).map (·.scan.stage) = some .descriptors
      ∧ (after (exec (.scanReadDone 0 .uncorrectable) State.reset)).map (·.scan.stage) = some (.identity 1)
      ∧ (after (exec (.scanReadDone 3 .uncorrectable) (identifying 3))).map (·.phase) = some .halted := by
  decide +kernel

/-- A block awaiting its verify at the end of the scan of its bank. -/
def verifying : Device :=
  { State.reset.toDevice with
    phase := .early, scan := { Scan.cleared with
      stage := .full, verifies := [{ addr := blk 1 9, first := 1, stamp := some 3 }]
      todo := #v[[.page 1 0], [], [], []], out := (Vector.replicate 4 false).set 1 true
      detail := (Vector.replicate 4 false).set 1 true } }

theorem test_scanVerifyClauses :
    works (working verifying 1 { block := 9, op := .eraseVerify 1, cls := .read, by_ := .scanVerify }) 1
        { block := 9, op := .eraseVerify 1, cls := .read, by_ := .scanVerify } = true
      ∧ (after (exec (.scanVerifyDone 1 .ok)
          (working verifying 1 { block := 9, op := .eraseVerify 1, cls := .read, by_ := .scanVerify }))).map
          (·.blockState (blk 1 9)) = some (some .free) := by decide +kernel

/-- Page 0 of a general block: its stamp, then the bytes after it. -/
def page0 (stamp rest : List Byte) : List Byte := stamp ++ rest ++ List.replicate (240 - rest.length) 0xFF

theorem test_classifyClauses :
    (blk 0 64).block ≠ 0 ∧ allZero (segment (List.replicate 256 (0 : Byte)) 15) = true
      ∧ allZero (segment (page0 (wearStamp 3) []) 15) = false
      ∧ readHeader (segments (page0 (wearStamp 3) []) 1 4) = none
      ∧ allOnes (segments (page0 (wearStamp 3) []) 1 15) = true ∧ readStamp (segment (page0 (wearStamp 3) []) 0)
          = some 3
      ∧ readStamp (segment (List.replicate 256 (0xFF : Byte)) 0) = none
      ∧ allOnes (segments (page0 (wearStamp 3) [0]) 1 15) = false
      ∧ readHeader (segments (page0 (wearStamp 3) (headerRecord
          { name := rec0, chunk := 0, count := 1, copy := .primary, generation := 1, bodyLength := 1, frozen := false
            retired := false })) 1 4) ≠ none := by decide +kernel

/-- A start whose grown-bad entries name block 9 of bank 2, with a cause. -/
def namedBad (cause : BadCause) : Device :=
  let gb : List GrownBad := [{ addr := blk 2 9, cause := cause, page := 0, segment := if cause = .program then 1 else 0 }]
  { ready with
    scan := { Scan.cleared with stage := .full, grownBad := gb }
    pool := { Pool.cleared with table := [{ addr := blk 2 9, entry := .plain .bad 0 }] } }

/-- The header of a chunk of a version of two chunks. -/
def headerOf (chunk : Nat) : Header :=
  { name := rec0, chunk := chunk, count := 2, copy := .primary, generation := 1, bodyLength := 3329, frozen := false
    retired := false }

theorem test_classifyNamedBadClauses :
    (∃ g ∈ (namedBad .erase).scan.grownBad, g.addr = blk 2 9)
      ∧ readHeader (segments (page0 (wearStamp 3) (headerRecord (headerOf 0))) 1 4) = some (headerOf 0)
      ∧ (let d := (namedBad .erase).classify (blk 2 9) (.corrected 2) (page0 (wearStamp 3) (headerRecord (headerOf 0)))
        d.scan.found.map (fun f => (f.bad, f.worst, f.stamp)) = [(true, 2, some 3)]
          ∧ d.pool.block? (blk 2 9) = some { BlockEntry.plain .bad 0 with owner := some (headerOf 0).owner })
      ∧ (let d := (namedBad .erase).classify (blk 2 9) (.corrected 0) (page0 (wearStamp 3) (headerRecord (headerOf 1)))
        d.scan.found.length = 1 ∧ d.pool.block? (blk 2 9) = some (.plain .bad 0))
      ∧ (namedBad .program).classify (blk 2 9) (.corrected 0) (page0 (wearStamp 3) (headerRecord (headerOf 0)))
          = namedBad .program
      ∧ (namedBad .erase).classify (blk 2 9) (.corrected 0) (List.replicate 256 0) = namedBad .erase := by decide +kernel

/-! ### The array and the engines -/

theorem test_arrayJobClauses :
    Memory.wf (full ready).cells = true ∧ (List.replicate 256 (0 : Byte)).length = 256
      ∧ layoutJob.op = .pageProgram 15 (List.replicate 256 0)
      ∧ layoutJob.by_ ≠ .purgeOverwrite ∧ 15 * 16 + (wearStamp 0).length ≤ 256
      ∧ Memory.get ((full ready).jobWorked 2 (eraseJob .blockErase .scrubErase) .ok).cells ((blk 2 7).num * 4096) = 0xFF
      ∧ Memory.get ((full ready).jobWorked 2 (eraseJob (.pageProgram 15 []) .purgeOverwrite) .fail).cells
          ((blk 2 7).num * 4096 + 3840) = 0x00
      ∧ ((full ready).jobWorked 2 (eraseJob .blockErase .scrubErase) .fail).weak.length = 256 := by decide +kernel
theorem test_recordClauses :
    readHeader (headerRecord
        { name := rec0, chunk := 15, count := 16, copy := .mirror, generation := 4294967294, bodyLength := 53248
          frozen := true, retired := true })
        = some { name := rec0, chunk := 15, count := 16, copy := .mirror, generation := 4294967294, bodyLength := 53248
                 frozen := true, retired := true }
      ∧ readCommit (Machine.commitRecord 4294967294 16 53248 (leBytes 4 4294967295) ++ [0xFF])
          = some { generation := 4294967294, count := 16, bodyLength := 53248, crc := 4294967295 }
      ∧ readStamp (wearStamp 119999) = some 119999 ∧ readStamp (wearStamp 120000) = none
      ∧ readMark (List.replicate 192 0xFF ++ markRecord .purge 4 1) 4
          = some { kind := .purge, slot := 4, generation := 1 }
      ∧ readGrownBad 3 (grownBadRecord 511 .program 15 15)
          = some { addr := blk 3 511, cause := .program, page := 15, segment := 15 } := by decide +kernel
set_option maxRecDepth 100000 in
theorem test_layoutPageIsReadBack :
    readLayout 15 (layoutPage 11 layout0) = some layout0 := by
  decide +kernel

/-- An engine with an erase before two programs of one block and a read behind them. -/
def engine0 : Engine :=
  { queue := [eraseJob .blockErase .scrubErase, pageJob 9 1 [] .purgeOverwrite, pageJob 9 2 [] .purgeOverwrite]
    waiting := [readJob 9 0 .scanRead], current := none }

theorem test_engineClauses :
    engine0.current = none ∧ engine0.takeNext.current = some (pageJob 9 1 [] .purgeOverwrite)
      ∧ engine0.takeNext.queue.getLast? = some (readJob 9 0 .scanRead) ∧ engine0.takeNext.waiting = []
      ∧ Engine.idle.takeNext = Engine.idle ∧ engine0.queue.length < 16 ∧ engine0.waiting ≠ [] := by decide +kernel

/-! ### Urgency and wear -/

/-- A device with a block in the scrub queue and a number of FREE blocks. -/
def withFree (n : Nat) : Device :=
  { ready with pool := { Pool.cleared with
      scrub := [blk 3 500]
      table := line (blk 3 500) .stale none :: (List.range n).map fun i => line (blk 0 (Fin.ofNat 512
          (i + 1))) .free none } }

theorem test_urgencyClauses :
    ready.urgency = 0 ∧ (withFree 64).urgency = 1 ∧ (withFree 63).urgency = 2 ∧ (withFree 16).urgency = 2
      ∧ (withFree 15).urgency = 3 ∧ ready.phase.poolActive = true ∧ (withFree 15).pool.level < (withFree 15).urgency
      ∧ ({ ready with pool := { ready.pool with level := 3 } } : Device).urgency < 3
      ∧ (ready.enterWorn).phase = .worn ∧ ({ ready with phase := .resuming } : Device).endResuming.phase = .ready := by
  decide +kernel

/-! ### More of the ports, takes and puts -/

theorem test_firstByteClauses :
    (∀ b ∈ ([0xA5] : List Byte).head?, b ≠ 0xA1 ∧ b ≠ 0xA2 ∧ b ≠ 0xA3 ∧ b ≠ 0xA4) ∧ ([] : List Byte).head? = none
      ∧ frameRow .service [0xA5] = none ∧ ({ ready with power := .draining } : Device).linkUp = false
      ∧ ready.linkUp = true ∧ ready.lineOut .primary [0xA2] = some (.response (collectResponse none)) := by
  decide +kernel

/-- A port whose STATUS response reported URGENCY_RAISED, with the notices posted since it began. -/
def reported (since : Notices) : PortState :=
  { PortState.cleared with
    notices := { Notices.empty with urgencyRaised := true }, since := since
    transfer := .status { Notices.empty with urgencyRaised := true } }

theorem test_statusSinceClauses :
    (after (exec (.status .service .completes) (full (ready.setPort .service (reported .empty))))).map
        (·.service.notices) = some .empty
      ∧ (after (exec (.status .service .completes) (full (ready.setPort .service
          (reported { Notices.empty with urgencyRaised := true }))))).map (·.service.notices)
            = some { Notices.empty with urgencyRaised := true } := by decide +kernel

/-- A PORT RESET of the Primary Port, whole. -/
def resetFrame : Instr := .portReset .primary (withCrc16 [portResetCode])

/-- The put of `putting` before its block has been granted. -/
def putWaiting : Device := putting .start true

/-- A device whose blocks of the context in slot 0 are ALLOCATED. -/
def withStagedBlocks (d : Device) : Device :=
  { d with pool := { d.pool with table := [line (blk 0 65) .allocated none, line (blk 1 65) .allocated none] } }

theorem test_portResetClauses :
    ((full (putting (runAt 1 3) true)).flights.map (·.id)).Nodup
      ∧ (full (putting (runAt 1 3) true)).ctx? 0 ≠ none
      ∧ (after (exec resetFrame (full (putting (runAt 1 3) true)))).map (fun t => t.flights.map fun f =>
          (f.discard, match f.work with | .put w => (w.hasJob, w.ending) | _ => (false, none)))
            = some [(true, true, some .aborted)]
      ∧ (after (exec resetFrame (full putWaiting))).map (fun t => (t.flights.length, t.primary.completions.length))
            = some (0, 0)
      ∧ (committing none).state ≠ .open
      ∧ (after (exec resetFrame (full (commitAt (committing none))))).map (·.slots[(0 : SlotIndex)].ctx)
            = some (some (committing none))
      ∧ (after (exec resetFrame (full (opened { ctx0 with owner := .service })))).map (·.slots[(0 : SlotIndex)].ctx)
            = some (some { ctx0 with owner := .service })
      ∧ (after (exec resetFrame (full (readyAs .live (.held .primary))))).map (·.dir) = some [entry0]
      ∧ (after (exec resetFrame (full (readyAs .live (.held .service))))).map (·.dir)
            = some (readyAs .live (.held .service)).dir
      ∧ portResetOk (withCrc16 [portResetCode] ++ [0]) = false := by decide +kernel

/-- A PORT RESET of the Primary Port abandons its context as Device.beginAbandon does: with a put's job left, and
without one, where the last put ends in the step of the reset. -/
theorem test_portResetAbandonsClauses :
    (let d := (withStagedBlocks (putting (runAt 1 3) true)).portCleared .primary
     d.blockState (blk 0 65) = some .allocated ∧ (d.ctx? 0).map (·.state) = some .abandoning
        ∧ (d.ctx? 0).map (·.blocks) = some [blk 0 65, blk 1 65] ∧ (d.entry? rec0).map (·.busy) = some (.update 0))
      ∧ (let d := (withStagedBlocks putWaiting).portCleared .primary
        d.slots[(0 : SlotIndex)] = { seq := 1, ctx := none } ∧ d.blockState (blk 1 65) = some .stale
          ∧ (d.entry? rec0).map (·.busy) = some .none)
      ∧ ((opened { ctx0 with mode := .create }).portCleared .primary).entry? rec0 = none
      ∧ ((opened ctx0).portCleared .service).ctx? 0 = some ctx0 := by decide +kernel

theorem test_takeInterruptClauses :
    (Req.health ≠ .reset) ∧ next (asking (inRun id) .primary .health) .primary .health = true
      ∧ (inRun id).maint.run ≠ .idle ∧ ready.maint.run = .idle
      ∧ (after (exec .health (asking { inRun id with pool := { ready.pool with table := [erasing .run] } } .primary
          .health))).map (·.maint.run) = some .stopping
      ∧ (after (exec .health (asking { inRun id with pool := { ready.pool with
          level := 3, table := [erasing .run, line (blk 2 8) .stale none],
              scrub := [blk 2 8] } } .primary .health))).map
            (·.maint.run) = some .foreground
      ∧ (after (exec .maintain (asking { ready with pool := { ready.pool with scrub := [blk 1 65] } } .primary
          .maintain))).map (·.maint.run) = some .running := by decide +kernel

/-- The record with a second chunk, which may be MISSING. -/
def twoChunks (second : Option ChunkRef) : Device := readyWith fun e =>
  { e with version := { version0 with
      bodyLength := 3329, chunks := [some { addr := blk 0 64, copy := .primary }, second],
          mirrors := [some (blk 1 64), none] } }

theorem test_checkStartClauses :
    (twoChunks none).entryOf 0 5 = (twoChunks none).entry? rec0
      ∧ ((twoChunks none).entry? rec0).map (·.version.chunks)
          = some (([{ addr := blk 0 64, copy := .primary }] : List ChunkRef).map some ++ none :: [])
      ∧ (after (exec .check (asking (twoChunks none) .primary (.check 0 5)))).map (fun t =>
          (t.engines[(0 : Bank)].queue.length, t.flights.map fun f => match f.work with
              | .check w => w.lost | _ => none))
            = some (14, [some ⟨1, 0⟩])
      ∧ (after (exec .check (asking (twoChunks (some
          { addr := blk 2 64, copy := .mirror })) .primary (.check 0 5)))).map
          (fun t => (t.engines[(0 : Bank)].queue.length, t.engines[(2 : Bank)].queue.length,
            t.flights.map fun f => match f.work with | .check w => w.jobs | _ => 0)) = some (14, 13, [29])
      ∧ (missing.entry? rec0).bind (fun e => e.version.chunkAt 0) = none
      ∧ (after (exec .check (asking missing .service (.check 0 5)))).map (fun t =>
          (posted .service (.next t), (t.entry? rec0).map (·.damaged))) = some (some [(7, .dataLost)], some [0]) := by
  decide +kernel

theorem test_abandonedPutClauses :
    (putting (runAt 1 3) true).putsOf 0 ≠ [] ∧ (asking (putting (runAt 1 3) true) .primary (.abandon 0)).ctx? 0 ≠ none
      ∧ (after (exec .abandon (asking (putting (runAt 1 3) true) .primary (.abandon 0)))).map (fun t =>
          (posted .primary (.next t), t.flights.length, (t.ctx? 0).map (·.state)))
            = some (some [], 2, some .abandoning)
      ∧ posted .primary (exec .abandon (asking putWaiting .primary (.abandon 0))) = some [(7, .aborted), (7, .ok)]
      ∧ (flying (opened { ctxFull with state := .abandoning }) .abandon (.abandon 0)).flightsWith (.abandon 0) = [0]
      ∧ (flying (opened { ctxFull with state := .abandoning }) .abandon (.abandon 0)).putsOf 0 = [] := by decide +kernel

/-- A request of the Primary Port in flight under a number and a tag. -/
def flightOf (id : Nat) (tag : Byte) (kind : RequestKind) (work : Work) : Flight :=
  { id := id, port := .primary, tag := tag, kind := kind, discard := false, work := work }

/-- A put of slot 0 for a chunk, with its PRIMARY copy at a job or without one, and with an unfinished MIRROR copy. -/
def putOf (chunk : Nat) (r : CopyRun) : Work :=
  .put { slot := 0, chunk := chunk, data := [1], primary := r, mirror := none, ending := none }

/-- An ABANDON in flight behind two puts that wait for blocks, the one taken first under the higher number, and behind
a third put with the given PRIMARY copy. -/
def abandoningThree (r : CopyRun) : Device :=
  { opened { ctx0 with inFlight := [0, 1, 2], requests := 4, chunkCount := 3 } with
    flights := [flightOf 3 9 .putChunk (putOf 1 .start), flightOf 1 8 .putChunk (putOf 0 .start),
      flightOf 2 6 .putChunk (putOf 2 r), flightOf 0 7 .abandon (.abandon 0)]
    pool := { ready.pool with waits := [{ asker := .put 3 none, requests := [] }, { asker := .put 4 none, requests := [] }] } }

theorem test_abandonOrderClauses :
    ((abandoningThree .start).flights.map (·.id)).Nodup
      ∧ (let d := (abandoningThree .start).beginAbandon 0
        d.primary.completions.map (fun c => (c.tag, c.result)) = [(9, .aborted), (8, .aborted), (6, .aborted), (7, .ok)]
          ∧ d.flights = [] ∧ d.slots[(0 : SlotIndex)] = { seq := 1, ctx := none }
          ∧ d.pool.waits.map (·.asker) = [.put 4 none])
      ∧ (let d := (abandoningThree (runAt 1 3)).beginAbandon 0
        d.primary.completions.map (fun c => (c.tag, c.result)) = [(9, .aborted), (8, .aborted)]
          ∧ d.flights.map (·.id) = [2, 0]
          ∧ d.ctx? 0 = some { ctx0 with
              state := .abandoning, inFlight := [2], requests := 2, chunkCount := 3, timer := none }) := by
  decide +kernel

/-- The put of `putting` as it ends, in a context of a state. -/
def endingPut (state : CtxState) (mirrorDone : Bool) : Device :=
  flying (opened { ctx0 with
      state := state, inFlight := [0], reserved := 0, requests := 1, timer := none
      chunks := [{ primary := some (blk 0 65), mirror := some (blk 1 65), crc := 0 }] })
    .putChunk
    (.put { slot := 0, chunk := 0, data := [1], primary := runAt 1 13
            mirror := some { attempt := 1, block := some (blk 1 65), job := if mirrorDone then none else some 3
                             done := mirrorDone }
            ending := some .aborted })

theorem test_endingPutClauses :
    works (working (endingPut .abandoning true) 0 putJob) 0 putJob = true
      ∧ ((endingPut .abandoning true).ctx? 0).map (·.state) = some .abandoning
      ∧ (after (exec (.putProgramDone 0 .ok) (working (endingPut .abandoning true) 0 putJob))).map (fun t =>
          (posted .primary (.next t), (t.ctx? 0).isNone)) = some (some [(7, .aborted)], true)
      ∧ (after (exec (.putProgramDone 0 .fail) (working (endingPut .abandoning true) 0 putJob))).map (fun t =>
          (posted .primary (.next t), t.blockState (blk 0 65), (t.ctx? 0).isNone))
            = some (some [(7, .aborted)], some .bad, true)
      ∧ posted .primary (exec (.putProgramDone 0 .ok) (working (endingPut .abandoning false) 0 putJob)) = some [] := by
  decide +kernel
theorem test_endingPutInAnOpenContextClauses :
    ((endingPut .open true).ctx? 0).map (·.state) = some .open
      ∧ posted .primary (exec (.putProgramDone 0 .ok) (working (endingPut .open true) 0 putJob)) = some [(7, .aborted)]
      ∧ (after (exec (.putProgramDone 0 .fail) (working { putting (runAt 2 0) true with pool := { ready.pool with
          table := [line (blk 0 65) .allocated none, line (blk 1 65) .allocated none] } } 0 putJob))).map (fun t =>
            (t.ctx? 0).map (·.reserved)) = some (some 2) := by decide +kernel

/-- The device after a program of the put in `endingPut` failed, with the queuer's work done. -/
def endingPutFailed (mirrorDone : Bool) : Device :=
  (withStagedBlocks (endingPut .open mirrorDone)).putProgramDone 0 putJob 0 .primary .fail

theorem test_endingPutProgramClauses :
    works (working (endingPut .open true) 0 putJob) 0 putJob = true
      ∧ (let d := endingPutFailed true
        d.blockState (blk 0 65) = some .bad ∧ d.blockState (blk 1 65) = some .stale ∧ d.flights = []
          ∧ (d.ctx? 0).map (·.reserved) = some 2 ∧ (d.ctx? 0).map (·.inFlight) = some []
          ∧ (d.ctx? 0).map (·.blocks) = some [])
      ∧ (let d := endingPutFailed false
        d.primary.completions = [] ∧ (d.ctx? 0).map (·.reserved) = some 1 ∧ (d.ctx? 0).map (·.inFlight) = some [0]
          ∧ (d.ctx? 0).map (·.blocks) = some [blk 1 65]) := by decide +kernel

/-! ### More of mark work -/

theorem test_slotAndRelocationClauses :
    ({ entry0 with marks := 2 } : Entry).marks < 3 ∧ 3 ≤ ({ entry0 with marks := 3 } : Entry).marks
      ∧ (after (exec .retire (asking (readyWith fun e => { e with marks := 2 }) .primary (.retire 0 5)))).map
          (fun t => t.engines[(0 : Bank)].current.map (·.target)) = some (some (14, 8))
      ∧ (after (exec .retire (asking (readyWith fun e => { e with marks := 3 }) .primary (.retire 0 5)))).map (fun t =>
          (t.flights.map fun f => match f.work with
            | .mark { stage := .relocation r, .. } => (r.stage, r.blocks.length)
            | _ => (.draw, 0), t.blockState (blk 0 65))) = some ([(.copying, 2)], some .allocated)
      ∧ posted .primary (exec .retire (asking (readyWith fun e =>
          { e with marks := 3, version := { version0 with generation := 4294967294 } }) .primary (.retire 0 5)))
            = some [(7, .generationLimit)]
      ∧ posted .primary (exec .retire (asking (readyWith fun e => { e with
          marks := 3, version := { version0 with
            chunks := List.replicate 16 none, mirrors := List.replicate 16 none } })
            .primary (.retire 0 5))) = some [(7, .noSpace)]
      ∧ posted .primary (exec .retire (asking { readyWith (fun e => { e with
          marks := 3, version := { version0 with chunks := List.replicate 16 none } }) with
            layout := { ready.layout with active := some (layout0.set 0 { desc0 with quota := 17 }) } }
              .primary (.retire 0 5))) = some [(7, .quotaExceeded)]
      ∧ ((ready.markPoint .freeze 1 rec0).entry? rec0).map (fun e => (e.hold, e.marks)) = some (.frozen, 1)
      ∧ rec0 ≠ { ns := 0, key := 6 } := by decide +kernel
theorem test_mirrorMarkFailedClauses :
    (after (exec (.mirrorMarkProgramDone 1 .fail)
        (working (marking id .mirror) 1 (markJob (.mirrorMark 0))))).map (fun t =>
          (t.pool.refresh, (t.entry? rec0).map (·.version.mirrors))) = some ([rec0], some [none])
      ∧ (after (exec (.markProgramDone 0 .fail) (working (marking id .primary) 0 (markJob (.mark 0))))).map (fun t =>
          (t.pool.refresh, (t.entry? rec0).map (·.marks))) = some ([rec0], some 3) := by decide +kernel

/-! ### Grants and draws -/

/-- A request for a block of the record's chunk. -/
def want (copy : Copy) (tail : Bool) (avoid : Avoid) : BlockRequest :=
  { owner := { name := rec0, generation := 2, chunk := 0, copy := copy }, allowance := false, tail := tail
    avoid := avoid }

/-- The ready device with two FREE blocks of one bank besides, one of them worn more. -/
def offering : Device :=
  { ready with pool := { ready.pool with table := ready.pool.table ++
    [line (blk 2 7) .free none, { (line (blk 2 8) .free none) with entry := { BlockEntry.plain .free 11 with
        owner := none } }] } }

theorem test_chooseBlockClauses :
    ready.chooseBlock onlyFree [] (want .primary false .nothing) none = some (blk 0 65)
      ∧ ready.chooseBlock onlyFree [] (want .mirror false .previous) (some 0) = some (blk 1 65)
      ∧ ready.chooseBlock onlyFree [blk 0 65] (want .primary false (.bank 1)) none = none
      ∧ offering.chooseBlock onlyFree [] (want .primary false .nothing) none = some (blk 2 7)
      ∧ offering.chooseBlock onlyFree [] (want .primary true .nothing) none = some (blk 2 8)
      ∧ ready.resolveGrant onlyFree [want .primary false .nothing, want .mirror false .previous] [] none
          = some [blk 0 65, blk 1 65] := by decide +kernel

/-- A device whose wait list holds a grant and is to be examined, with a table and a scrub queue. -/
def waiting (asker : Asker) (table : List BlockLine) (d : Device) : Device :=
  { d with pool := { d.pool with
      table := table, scrub := (table.filter fun l => decide (l.entry.state = .stale)).map (·.addr)
      waits := [{ asker := asker, requests := [want .primary false .nothing] }], recheck := true } }

/-- The same device with no cause to examine its wait list. -/
def calmWait (d : Device) : Device := { d with pool := { d.pool with recheck := false } }

/-- The put of `putting` at its second attempt at the PRIMARY copy. -/
def putAgain : Device := putting { attempt := 2, block := none, job := none, done := false } true

theorem test_waitStepClauses :
    ((waiting (.put 0 (some .primary)) [line (blk 0 65) .free none] putAgain).waitStep.map fun d =>
        (d.blockState (blk 0 65), d.engines[(0 : Bank)].current.map (·.by_)))
          = some (some .allocated, some (.put 0 .primary))
      ∧ ((waiting (.put 0 (some .primary)) [line (blk 0 65) .stale none] putAgain).waitStep.map fun d =>
          (d.pool.recheck, d.pool.waits.length)) = some (false, 1)
      ∧ (calmWait (waiting (.put 0 (some .primary)) [line (blk 0 65) .free none] putAgain)).waitStep.isNone = true
      ∧ ((waiting (.put 0 (some .primary)) [line (blk 0 65) .bad none] putAgain).waitStep.map fun d =>
          d.primary.completions.map (·.result)) = some [.noSpace]
      ∧ (waiting (.put 0 (some .primary)) [line (blk 0 65) .stale none] putAgain).nextDemand = some (blk 0 65)
      ∧ ((waiting (.put 0 (some .primary)) [line (blk 0 65) .stale none] putAgain).demandStep.map
          (·.blockState (blk 0 65))) = some (some .erasing)
      ∧ (waiting (.put 0 (some .primary)) [line (blk 2 8) .stale none, erasing .demand] putAgain).nextDemand = none
      ∧ (waiting (.put 0 (some .primary)) [line (blk 0 65) .free none] putAgain).nextDemand = none
      ∧ (putAgain.waitStep.isNone && putAgain.demandStep.isNone) = true := by decide +kernel
theorem test_grantMadeClauses :
    ((putting .start false).grantMade { asker := .put 0 none, requests := [] } [blk 0 65,
        blk 1 65]).engines[(1 : Bank)].current
        = some (segmentJob 65 0 1 (headerRecord (ctx0.header 0 .mirror)) (.put 0 .mirror))
      ∧ (((commitAt (committing (some (copyAt 0)))).grantMade { asker := .commit 0, requests := [] }
          [blk 2 7]).ctx? 0).bind (fun c => (c.chunkAt 0).primary) = some (blk 2 7)
      ∧ ((commitAt (committing (some (copyAt 0)))).grantRefused
          { asker := .commit 0, requests := [] }).primary.completions.map
          (·.result) = [.commitFailed] := by decide +kernel

/-- A refresh that waits for its draw. -/
def drawing : Reloc := newReloc entry0 .refresh 2 false false

theorem test_relocationGrantClauses :
    (relocating drawing).reloc? .maint = some drawing ∧ drawing.source.chunkAt 0 ≠ none
      ∧ (((relocating drawing).grantMade { asker := .reloc .maint none, requests := [] } [blk 0 65,
          blk 1 65]).maint.reloc.map
          fun r => (r.jobs, r.blocks)) = some (14, [⟨blk 0 65, true⟩, ⟨blk 1 65, true⟩])
      ∧ (((relocating { reloc0 with secured := 1, primary := .start }).grantMade
          { asker := .reloc .maint (some .primary), requests := [] } [blk 2 7]).maint.reloc.map fun r =>
            (r.secured, r.blocks.map (·.addr))) = some (0, [blk 2 7, blk 1 65])
      ∧ (((relocating { reloc0 with jobs := 0 }).grantRefused
          { asker := .reloc .maint (some .primary), requests := [] }).maint.passOver) = [rec0]
      ∧ reloc0.jobs ≠ 0 ∧ (((relocating reloc0).grantRefused
          { asker := .reloc .maint (some .primary), requests := [] }).maint.reloc.map (·.ending)) = some (some .noSpace)
      ∧ ((flying ready .retire (.mark
            { kind := .retire, name := rec0
              stage := .relocation { reloc0 with kind := .mark .retire, jobs := 0 } })).grantRefused
          { asker := .reloc (.mark 0) none, requests := [] }).primary.completions.map (·.result) = [.noSpace] := by
  decide +kernel
theorem test_drawClauses :
    ready.drawStep.isNone = true
      ∧ ((({ relocating drawing with pool := { ready.pool with
          draws := [{ drawer := .reloc .maint, places := 16 }] } } : Device).drawStep.map fun d =>
            (d.pool.draws, d.pool.waits.map fun g => g.requests.map (·.avoid)))
          = some ([], [[.nothing, .previous]]))
      ∧ (({ relocating { drawing with secured := 1 } with pool := { ready.pool with
          draws := [{ drawer := .reloc .maint, places := 16 }] } } : Device).drawStep.isNone) = true
      ∧ ((({ commitAt (committing (some (copyAt 0))) with pool := { ready.pool with
          draws := [{ drawer := .commit 0, places := 1 }] } } : Device).drawStep.map fun d =>
            d.pool.waits.map fun g => g.requests.map fun r => (r.avoid, r.allowance))
          = some [[(.bank 1, true)]]) := by decide +kernel
theorem test_toStaleClauses :
    ready.pool.joined = [] ∧ ready.blockState (blk 1 64) = some .allocated
      ∧ ((ready.toStale [blk 1 64]).toStale [blk 0 65, blk 0 64]).pool.scrub = [blk 0 64, blk 1 64]
      ∧ ((ready.toStale [blk 1 64]).toStale [blk 0 65, blk 0 64]).blockState (blk 0 65) = some .free := by
  decide +kernel

/-! ### Jobs cut short -/

theorem test_powerCutClauses :
    (after (exec .powerLoss (working ready 2 (eraseJob .blockErase .scrubErase)))).map (·.cut) = some [(blk 2 7).num]
      ∧ (blk 2 7).num * 256 ∉ (full ready).weak
      ∧ (after (exec .powerLoss (working ready 2 (eraseJob (.segmentProgram 0 1 (wearStamp 1)) .wearStamp)))).map
          (·.weak)
          = some [(blk 2 7).num * 256 + 1]
      ∧ (after (exec .powerLoss (working ready 2 (eraseJob (.eraseVerify 1) .purgeVerify)))).map (·.weak) = some []
      ∧ ({ full ready with cut := [(blk 2 7).num] } : State).cut = [(blk 2 7).num]
      ∧ ({ Device.blank with resetLow := true } : Device).power = .off
      ∧ (after (exec .coldStart (full { Device.blank with resetLow := true }))).map (·.power) = some .draining := by
  decide +kernel

/-! ### The commit point and attempt 2 -/

theorem test_unmirroredCommitClauses :
    (commitAt (committing none)).flightsWith (.commit 0) = [0]
      ∧ (((commitAt { committing none with copies := 1 }).commitPoint 0).primary.completions.map fun c => (c.result,
          c.reply))
          = [(.ok, leBytes 4 2)]
      ∧ ((commitAt { committing none with copies := 1 }).commitPoint 0).flights = []
      ∧ ((commitAt (committing none)).commitPoint 0).flights.length = 1
      ∧ (((commitAt (committing none)).commitPoint 0).entry? rec0).map (·.version.generation) = some 2
      ∧ ((({ commitAt (committing none) with pool := { ready.pool with table := ready.pool.table.map fun l =>
          { l with entry := { l.entry with flag := true } } } } : Device).commitPoint 0).pool.table.map (·.entry.flag))
            = [true, false, true, false]
      ∧ ((commitAt (committing none)).commitPoint 0).engines[(1 : Bank)].current
          = some (segmentJob 65 15 0 ctxFull.commitRecord (.mirrorCommitRecord 0))
      ∧ (let d := ({ commitAt (committing none) with
            pool := { ready.pool with refresh := [rec0] }, maint := { ready.maint with passOver := [rec0] } } :
              Device).commitPoint 0
        (d.pool.refresh, d.maint.passOver) = ([], [])) := by decide +kernel
theorem test_secondAttemptClauses :
    (committing (some (copyAt 0))).state = .committing ∧ ((committing (some (copyAt 0))).chunkAt 0).primary
        = some (blk 0 65)
      ∧ (after (exec (.commitCopyReadDone 0 (.corrected 8)) (working (commitAt (committing (some (copyAt 0)))) 0
          (readJob 70 0 (.commitCopyRead 0 .primary))))).map (fun t => t.engines[(0 : Bank)].current.map (·.target))
            = some (some (0, 1))
      ∧ (after (exec (.commitCopyReadDone 0 .uncorrectable) (working (commitAt (committing (some (copyAt 0)))) 0
          (readJob 70 0 (.commitCopyRead 0 .primary))))).map (fun t => t.engines[(1 : Bank)].current.map (·.target))
            = some (some (0, 0))
      ∧ (after (exec (.commitCopyProgramDone 0 .ok) (working (commitAt (committing (some (copyAt 12)))) 0
          (pageJob 65 12 [] (.commitCopyProgram 0))))).map (fun t => t.engines[(0 : Bank)].current.map (·.target))
            = some (some (13, 0))
      ∧ (after (exec (.commitCopyProgramDone 0 .ok) (working (commitAt (committing (some (copyAt 13)))) 0
          (pageJob 65 13 [] (.commitCopyProgram 0))))).map (fun t => t.engines[(0 : Bank)].current.map (·.target))
            = some (some (15, 0))
      ∧ (after (exec (.commitCopyProgramDone 0 .ok) (working (commitAt (committing (some (copyAt 13)))) 0
          (recordJob (.commitCopyProgram 0))))).map (fun t => (t.entry? rec0).map (·.version.generation))
            = some (some 2) := by decide +kernel

/-! ### Maintenance runs -/

/-- The ready device with lines added to its table, and the STALE blocks of the whole in the scrub queue. -/
def scrubbing (ls : List BlockLine) (d : Device) : Device :=
  { d with pool := { d.pool with
      table := d.pool.table ++ ls, scrub := (ls.filter fun l => decide (l.entry.state = .stale)).map (·.addr) } }

/-- The ready device with a wear spread above the setting. -/
def spread : Device :=
  scrubbing [{ addr := blk 3 9, entry := { BlockEntry.plain .free 300 with owner := none } }] ready

/-- A device with the record in the refresh set. -/
def toRefresh (d : Device) : Device := { d with pool := { d.pool with refresh := [rec0] } }

theorem test_maintenanceWorkClauses :
    (scrubbing [line (blk 2 8) .stale none] ready).scrubOffer = some (blk 2 8)
      ∧ (scrubbing [line (blk 2 8) .stale none, erasing .demand] ready).scrubOffer = none
      ∧ spread.wearOffer = some rec0 ∧ ({ spread with phase := .worn } : Device).wearOffer = none
      ∧ ({ spread with settings := { spread.settings with wearSpread := 290 } } : Device).wearOffer = none
      ∧ (spread.pool.table.map fun l => l.addr.num).Pairwise (· < ·)
      ∧ (toRefresh ready).nextRefresh = some rec0 ∧ (toRefresh ready).canBegin = true ∧ ready.canBegin = false
      ∧ ([({ ns := 0, key := 5 } : RecordName)].map (·.num)).Pairwise (· < ·) := by decide +kernel
theorem test_runStartClauses :
    ({ ready with phase := .resuming } : Device).maintStep.isNone = true
      ∧ ({ toRefresh ready with pool := { (toRefresh ready).pool with level := 1 } } : Device).maintStep.map
          (fun d => (d.maint.run, d.maint.origin)) = some (.running, .auto)
      ∧ ({ scrubbing [line (blk 2 8) .stale none] ready with
          settings := { ready.settings with mode := .manual }
          pool := { (scrubbing [line (blk 2 8) .stale none] ready).pool with level := 3 } } : Device).maintStep.map
          (fun d => (d.maint.run, d.maint.origin)) = some (.running, .level)
      ∧ (toRefresh ready).maintStep.isNone = true := by decide +kernel
theorem test_runningClauses :
    ((scrubbing [line (blk 2 8) .stale none] (inRun id)).maintStep.map (·.blockState (blk 2 8))) = some (some .erasing)
      ∧ (scrubbing [erasing .run] (inRun id)).maintStep.isNone = true
      ∧ ((inRun fun m => { m with origin := .level }).maintStep.map (·.maint.run)) = some .idle
      ∧ (toRefresh (inRun id)).maintStep.map (fun d => (d.maint.visited, d.maint.reloc.map (·.kind),
          d.pool.draws.length))
          = some ([rec0], some .refresh, 1)
      ∧ ({ spread with maint := (inRun id).maint } : Device).maintStep.map (fun d =>
          (d.maint.wearMoved, d.maint.reloc.map (·.kind))) = some (true, some .wear)
      ∧ (toRefresh { inRun id with
          dir := [{ entry0 with version := { version0 with chunks := List.replicate 16 none } }]
          layout := { ready.layout with active := some (layout0.set 0 { desc0 with quota := 17 }) } }).maintStep.map
            (·.maint.passOver) = some [rec0]
      ∧ ((flying (inRun fun m =>
          { m with origin := .maintain .primary, erased := 3 }) .maintain .maintain).maintStep.map
          fun d => d.primary.completions.map (·.reply)) = some [leBytes 4 3 ++ leBytes 4 0 ++ leBytes 1 2] := by
  decide +kernel
theorem test_interruptedRunClauses :
    ((inRun fun m => { m with run := .foreground }).maintStep.map (·.maint.run)) = some .stopping
      ∧ (({ inRun (fun m => { m with run := .foreground }) with
          pool := { ready.pool with level := 3 } } : Device).maintStep.map (·.maint.run)) = some .idle
      ∧ (({ scrubbing [line (blk 2 8) .stale none] (inRun fun m => { m with run := .foreground }) with
          pool := { (scrubbing [line (blk 2 8) .stale none] ready).pool with level := 3 } } : Device).maintStep.map
            (·.blockState (blk 2 8))) = some (some .erasing)
      ∧ ({ scrubbing [erasing .run] (inRun fun m => { m with run := .foreground }) with
          pool := { (scrubbing [erasing .run] ready).pool with level := 3 } } : Device).maintStep.isNone = true
      ∧ (scrubbing [erasing .run] (inRun fun m => { m with run := .stopping })).maintStep.isNone = true
      ∧ ((inRun fun m => { m with run := .stopping }).maintStep.map (·.maint.run)) = some .idle
      ∧ ((scrubbing [erasing .run] ready).blockFreed (blk 2 7)).maint.erased = 1
      ∧ ((scrubbing [erasing .demand] ready).blockFreed (blk 2 7)).maint.erased = 0
      ∧ ready.standing.isNone = true ∧ ready.settle 1 = ready ∧ (toRefresh (inRun id)).standing.isSome = true := by
  decide +kernel

/-- A device whose urgency level is to rise to 3, with a refresh in progress. -/
def pressed (r : Reloc) : Device :=
  { toRefresh (relocating r) with pool := { Pool.cleared with refresh := [rec0], level := 2 } }

theorem test_levelReachedClauses :
    (withFree 15).phase.poolActive = true
      ∧ ({ withFree 15 with maint := (inRun id).maint } : Device).scrubOffer.isSome = true
      ∧ ({ withFree 15 with maint := (inRun id).maint } : Device).urgencyStep.map (·.maint.run) = some .running
      ∧ (pressed reloc0).urgency = 3 ∧ (pressed reloc0).scrubOffer = none
      ∧ (pressed reloc0).urgencyStep.map (fun d => (d.maint.run, d.maint.reloc.map (·.ending), d.pool.level))
          = some (.stopping, some (some .interrupted), 3)
      ∧ (withFree 63).urgency = 2 ∧ (withFree 63).urgencyStep.map (·.service.notices.urgencyRaised) = some true
      ∧ ({ ready with pool := { ready.pool with level := 3 } } : Device).urgencyStep.map (·.pool.level) = some 0 := by
  decide +kernel

/-! ### The work of a relocation -/

/-- The pages of chunk 0 but page 13. -/
def pages12 : List PageData :=
  ([1, 2, 3, 4, 5, 6, 7, 8, 9, 10, 11, 12, 15] : List Nat).map fun p => { chunk := 0, page := p, data := [] }

/-- A refresh that has read them, before its programs. -/
def lastRead (copies : Nat) : Reloc :=
  { reloc0 with copies := copies, got := pages12, primary := .start, mirror := if copies
      = 2 then some .start else none }

/-- A device with its urgency level and WORN flag up already, so that no step raises them. -/
def calm (d : Device) : Device := { d with pool := { d.pool with level := 3, worn := true } }

theorem test_relocationReadClauses :
    (after (exec (.relocationReadDone 0 (.corrected 6)) (working (calm (relocating reloc0)) 0
        (relocRead .primary)))).map
        (fun t => (t.maint.reloc.map fun r => (r.jobs, r.got.map (·.page)), t.pool.refresh))
            = some (some (0, [13]), [rec0])
      ∧ (after (exec (.relocationReadDone 0 (.corrected 0)) (working (relocating (lastRead 2)) 0
          (relocRead .primary)))).map
          (fun t => (t.maint.reloc.map (·.jobs), t.engines[(0 : Bank)].current.map (·.target),
            t.engines[(1 : Bank)].current.map (·.target))) = some (some 2, some (0, 1), some (0, 1))
      ∧ (after (exec (.relocationReadDone 0 (.corrected 0)) (working (relocating (lastRead 1)) 0
          (relocRead .primary)))).map
          (fun t => (t.maint.reloc.map (·.jobs), t.engines[(0 : Bank)].current.map (·.target)))
            = some (some 1, some (0, 1))
      ∧ (lastRead 2).blocks[1]? ≠ none ∧ (lastRead 2).mirror ≠ none := by decide +kernel

/-- A refresh of the record with a second chunk, at its first one. -/
def atFirst (second : Option ChunkRef) : Reloc :=
  { reloc0 with source := { version0 with
      bodyLength := 3329, chunks := [some { addr := blk 0 64, copy := .primary }, second],
          mirrors := [some (blk 1 64), none] } }

/-- The last program of the PRIMARY copy of a relocation. -/
def relocProg (k : Nat) : Job := pageJob 65 k [] (.relocProgram .maint .primary)

theorem test_relocationProgramClauses :
    (after (exec (.relocationProgramDone 0 .ok) (working (relocating (atFirst (some
        { addr := blk 2 9, copy := .primary })))
        0 (relocProg 13)))).map (fun t => t.maint.reloc.map fun r => (r.chunk, r.jobs)) = some (some (1, 13))
      ∧ (after (exec (.relocationProgramDone 0 .ok) (working (relocating (atFirst none)) 0 (relocProg 13)))).map
          (fun t =>
          (t.maint.reloc.isNone, (t.entry? rec0).map fun e => (e.busy, e.damaged))) = some (true, some (.none, [1]))
      ∧ (after (exec (.relocationProgramDone 0 .ok) (working (calm (relocating { reloc0 with
          mirror := some { attempt := 1, block := some (blk 1 65), job := some 4, done := false } })) 0
            (relocProg 13)))).map (fun t => t.maint.reloc.map (·.stage)) = some (some .copying)
      ∧ (after (exec (.relocationProgramDone 0 .ok) (working (relocating { reloc0 with
          primary := { attempt := 1, block := some (blk 0 65), job := some 12, done := false } }) 0
            (relocProg 12)))).map (fun t => t.engines[(0 : Bank)].current.map (·.target)) = some (some (13, 0))
      ∧ (after (exec (.relocationProgramDone 0 .fail) (working (relocating { reloc0 with
          primary := { attempt := 2, block := some (blk 0 65), job := some 13, done := false } }) 0
            (relocProg 13)))).map (fun t => (t.maint.passOver, t.maint.run)) = some ([rec0], .idle)
      ∧ (after (exec (.relocationProgramDone 0 .fail) (working (calm { relocating reloc0 with
          pool := { ready.pool with table := [line (blk 0 65) .allocated none] } }) 0 (relocProg 13)))).map (fun t =>
            (t.pool.waits.length, t.maint.passOver)) = some (0, [rec0]) := by decide +kernel
theorem test_relocationEndClauses :
    (after (exec (.relocationCommitDone 0 .fail)
        (working (relocating (relocCommitting .commitQueued)) 0 (recordJob (.relocCommit .maint))))).map (fun t =>
          (t.maint.reloc.isNone, t.maint.passOver)) = some (true, [rec0])
      ∧ (after (exec (.relocationCommitDone 0 .ok)
          (working (relocating { relocCommitting .commitQueued with copies := 1 }) 0 (recordJob
              (.relocCommit .maint))))).map
            (fun t => (t.maint.refreshed, (t.entry? rec0).map (·.busy))) = some (1, some .none)
      ∧ (after (exec (.relocationMirrorCommitDone 1 .ok)
          (working (relocating (relocCommitting .mirrorCommit)) 1 (recordJob (.relocMirrorCommit .maint))))).map
            (fun t => (t.maint.relocated, t.pool.refresh)) = some (1, [])
      ∧ (after (exec (.relocationReadDone 0 (.corrected 0))
          (working (relocating { reloc0 with ending := some .interrupted }) 0 (relocRead .primary)))).map (fun t =>
            (t.maint.reloc.isNone, t.maint.passOver)) = some (true, [])
      ∧ (after (exec (.relocationProgramDone 0 .fail)
          (working (relocating { reloc0 with ending := some .noSpace, jobs := 2 }) 0 (relocProg 13)))).map (fun t =>
            (t.maint.reloc.map (·.jobs), t.blockState (blk 0 65))) = some (some 1, some .bad) := by decide +kernel

/-! ### The work of a purge -/

/-- A purge of the record, at no step yet. -/
def purge0 (flight : Option Nat) : PurgeWork :=
  { flight := flight, current := rec0, step := .erase [], rest := [], purged := 0, overwritten := 0, skipped := 0 }

/-- The ready device with blocks of its table made BAD. -/
def withBad (as : List BlockAddr) (d : Device) : Device :=
  as.foldl (fun d a => d.modBlock a fun e => { e with state := .bad }) d

theorem test_purgeBeginClauses :
    (ready.beginPurgeRecord (purge0 none)).purge.map (·.step)
        = some (.erase [{ addr := blk 0 64, rank := .primaryZero, step := .waiting },
            { addr := blk 1 64, rank := .mirrorZero, step := .waiting }])
      ∧ (ready.beginPurgeRecord (purge0 (some 0))).purge.map (·.step) = some (.mark .primary)
      ∧ ((withBad [blk 0 64] ready).beginPurgeRecord (purge0 (some 0))).purge.map (·.step) = some (.mark .mirror)
      ∧ (missing.beginPurgeRecord (purge0 (some 0))).purge.map (·.step) = some (.mark .mirror)
      ∧ ((withBad [blk 0 64, blk 1 64] ready).beginPurgeRecord (purge0 (some 0))).purge.map (·.step)
          = some (.erase [{ addr := blk 0 64, rank := .primaryZero, step := .waiting },
              { addr := blk 1 64, rank := .mirrorZero, step := .waiting }]) := by decide +kernel

/-- The job of the PURGE mark. -/
def purgeMark : Job := segmentJob 64 14 12 (markRecord .purge 4 1) .purgeMark

theorem test_purgeMarkClauses :
    (after (exec (.purgeMarkDone 0 .fail) (working (purging (.mark .primary)) 0 purgeMark))).map (fun t =>
        (t.blockState (blk 0 64), t.purge.map (·.step))) = some (some .bad, some (.mark .mirror))
      ∧ (after (exec (.purgeMarkDone 1 .ok) (working (purging (.mark .mirror)) 1 purgeMark))).map (fun t =>
          t.engines[(1 : Bank)].current.map (·.by_)) = some (some .purgeErase)
      ∧ (after (exec (.purgeMarkDone 1 .fail) (working (purging (.mark .mirror)) 1 purgeMark))).map (fun t =>
          (t.pool.refresh, t.engines[(1 : Bank)].queue.map (·.by_))) = some ([rec0], [.purgeOverwrite]) := by
  decide +kernel

/-- The purge with block 7 of bank 2 at a step and an erase count. -/
def memberOf (count : Nat) (x : MemberStep) : Device :=
  { memberAt x with pool := (erasingAt count).pool }

theorem test_purgeMemberClauses :
    (after (exec (.scrubEraseDone 2 .ok) (working (memberAt .erasing) 2 (eraseJob .blockErase .scrubErase)))).map
        (fun t =>
        t.engines[(2 : Bank)].current.map (·.op)) = some (some (.eraseVerify 0))
      ∧ (after (exec (.purgeEraseDone 2 .fail) (working (memberAt .erasing) 2 (eraseJob .blockErase .purgeErase)))).map
          (fun t => t.engines[(2 : Bank)].current.map (·.by_)) = some (some .purgeOverwrite)
      ∧ (after (exec (.wearStampDone 2 .ok)
          (working (memberAt .erasing) 2 (eraseJob (.segmentProgram 0 0 (wearStamp 1)) .wearStamp)))).map (fun t =>
            t.engines[(2 : Bank)].current.map (·.op)) = some (some (.eraseVerify 1))
      ∧ (after (exec (.purgeVerifyDone 2 .fail)
          (working (memberAt (.verifying 0)) 2 (eraseJob (.eraseVerify 0) .purgeVerify)))).map (fun t =>
            t.engines[(2 : Bank)].current.map (·.target)) = some (some (0, 0))
      ∧ (after (exec (.purgeOverwriteDone 2 .ok)
          (working (memberAt (.overwriting 14)) 2 (eraseJob (.pageProgram 14 []) .purgeOverwrite)))).map (fun t =>
            t.engines[(2 : Bank)].current.map (·.target)) = some (some (15, 0)) := by decide +kernel

/-- A state in which no rule fixes the wear stamp's segment of block 7 of bank 2, so that it may read erased. -/
def allErased (d : Device) (b : Bank) (j : Job) : State := { working d b j with weak := [(blk 2 7).num * 256] }

theorem test_purgeVerifyClauses :
    (allErased (memberOf 119999 (.verifying 0)) 2 (eraseJob (.eraseVerify 0) .purgeVerify)).verifyPasses
        (blk 2 7) 0 .ok = true
      ∧ (after (exec (.purgeVerifyDone 2 .ok)
          (allErased (memberOf 119999 (.verifying 0)) 2 (eraseJob (.eraseVerify 0) .purgeVerify)))).map (fun t =>
            t.blockState (blk 2 7)) = some (some .bad)
      ∧ (after (exec (.purgeVerifyDone 2 .ok)
          (allErased (memberOf 119998 (.verifying 0)) 2 (eraseJob (.eraseVerify 0) .purgeVerify)))).map (fun t =>
            t.engines[(2 : Bank)].current.map (·.by_)) = some (some .wearStamp) := by decide +kernel

/-- A device whose purge stands at a set. -/
def purgeSet (set : List PurgeMember) (d : Device) : Device :=
  { flying d .purge .purge with purge := some { purge0 (some 0) with step := .erase set } }

/-- A block of the set that the purge has not taken. -/
def member (a : BlockAddr) (rank : MemberRank) : PurgeMember := { addr := a, rank := rank, step := .waiting }

theorem test_purgeStepClauses :
    ((purgeSet [member (blk 0 64) .primaryZero] ready).purgeStep.map (·.blockState (blk 0 64))) = some (some .erasing)
      ∧ ((purgeSet [member (blk 0 64) .primaryZero] (withBad [blk 0 64] ready)).purgeStep.map fun d =>
          d.engines[(0 : Bank)].current.map (·.by_)) = some (some .purgeOverwrite)
      ∧ ((purgeSet [member (blk 0 64) .primaryZero] ((withBad [blk 0 64] ready).modBlock (blk 0 64)
          fun e => { e with pins := 1 })).purgeStep.isNone) = true
      ∧ ((purgeSet [member (blk 0 64) .primaryZero, member (blk 1 64) .mirrorZero] ready).purgeStep.map fun d =>
          (d.blockState (blk 0 64), d.blockState (blk 1 64))) = some (some .allocated, some .erasing)
      ∧ ((memberAt .erasing).purgeStep.isNone) = true
      ∧ ((memberAt (.toVerify 1)).purgeStep.map fun d => d.engines[(2 : Bank)].current.map (·.op))
          = some (some (.eraseVerify 1))
      ∧ ((memberAt .toOverwrite).purgeStep.map fun d => d.engines[(2 : Bank)].current.map (·.target))
          = some (some (0, 0))
      ∧ [blk 0 64, blk 1 64, blk 1 65].map entry0.rankOf = [.primaryZero, .mirrorZero, .ordinary] := by decide +kernel
theorem test_purgeFinishClauses :
    ((purgeSet [] retired0).purgeStep.map fun d => (d.dir, d.purge.isNone,
        d.primary.completions.map fun c => (c.result, c.reply)))
        = some ([], true, [(.ok, leBytes 2 1 ++ leBytes 2 0 ++ leBytes 2 0)])
      ∧ (({ retired0 with purge := some (purge0 none) } : Device).purgeStep.map fun d =>
          (d.dir, d.purge.isNone, (d.pool.block? (blk 0 64)).bind (·.owner))) = some ([], true, none)
      ∧ (({ ready with purge := some { purge0 none with current := { ns := 0, key := 6 }, rest := [rec0] } } :
          Device).purgeStep.map fun d => d.purge.map fun w => (w.current, w.purged)) = some (some (rec0, 1)) := by
  decide +kernel

/-! ### The stages of the scan -/

/-- A device whose scanner stands at a stage with one job of its own out in a bank, in a detail pass or not. -/
def scanning (stage : ScanStage) (b : Bank) (detail : Bool) (f : Scan → Scan) : Device :=
  { State.reset.toDevice with
    engines := Vector.replicate 4 .idle
    layout := { State.reset.layout with active := some layout0, staged := layout0 }
    scan := f { Scan.cleared with
      stage := stage, out := (Vector.replicate 4 false).set b true, detail := Vector.replicate 4 detail } }

/-- A read of the scanner. -/
def scanJob (block : BlockNo) (page : Nat) : Job := readJob block page .scanRead

/-- A state with bytes at the start of a page. -/
def withBytes (s : State) (a : BlockAddr) (page : Nat) (bytes : List Byte) : State :=
  { s with cells := Memory.program [] [] (pageBase a page) bytes }

theorem test_descriptorReadClauses :
    (after (exec (.scanReadDone 1 .uncorrectable) (identifying 1))).map (fun t => (t.scan.stage,
        t.scan.out[(2 : Bank)]))
        = some (.identity 2, true)
      ∧ (after (exec (.scanReadDone 2 (.corrected 0))
          (withBytes (working (scanning .descriptors 2 false id) 2 (scanJob 0 1)) (blk 2 0) 1
            (grownBadRecord 64 .erase 0 0)))).map (fun t =>
              (t.pool.slots[(2 : Bank)], t.blockState (blk 2 64), t.scan.grownBad.length)) = some (1, some .bad, 1)
      ∧ (after (exec (.scanReadDone 2 .uncorrectable) (working (scanning .descriptors 2 false fun s =>
          s.setTodo 3 [.page 0 4]) 2 (scanJob 0 4)))).map (·.pool.slots[(2 : Bank)]) = some 16
      ∧ (after (exec (.scanReadDone 1 .uncorrectable) (working (scanning .descriptors 1 false fun s =>
          s.setTodo 3 [.page 0 4]) 1 (scanJob 0 9)))).map (·.scan.topPage) = some 9
      ∧ (after (exec (.scanReadDone 1 (.corrected 0)) (working (scanning .descriptors 1 false fun s =>
          s.setTodo 3 [.page 0 4]) 1 (scanJob 0 5)))).map (·.scan.topPage) = some 4 := by decide +kernel

/-- A device at the descriptors with no active layout. -/
def selecting (ls : List FoundLayout) (todo : List ScanTask) : Device :=
  { scanning .descriptors 1 false fun s => { s.setTodo 0 todo with layouts := ls } with layout := Device.blank.layout }

theorem test_layoutSelectionClauses :
    (selecting [] (pageTasks 0 [1, 2, 3, 4])).layoutSelected.layout.active = some .default
      ∧ (selecting [] (pageTasks 0 [15, 1, 2, 3, 4])).layoutSelected.layout.active = none
      ∧ ((selecting [{ version := 2, bank := 1, layout := layout0 }, { version := 1, bank := 0, layout := .default },
          { version := 2, bank := 0, layout := layout0 }] []).layoutSelected.layout.version) = 2
      ∧ ready.layoutSelected = ready := by decide +kernel

/-- The header of a copy of the record's chunk 0. -/
def header0 (copy : Copy) (generation : Nat) : Header :=
  { name := rec0, chunk := 0, count := 1, copy := copy, generation := generation, bodyLength := 1, frozen := false
    retired := false }

/-- A found block with that header and its pages 14 and 15. -/
def found (a : BlockAddr) (copy : Copy) (generation : Nat) (page14 page15 : PageFound) : FoundBlock :=
  { addr := a, header := header0 copy generation, bad := false, stamp := some 5, worst := 0, page14 := page14
    page15 := page15 }

/-- A commit record for that header, as a page. -/
def commit0 (generation : Nat) : PageFound :=
  .data (padded 256 (Machine.commitRecord generation 1 1 (leBytes 4 (crc32 [1]).toNat)))

/-- A mark page with no mark in it. -/
def noMarks : PageFound := .data (List.replicate 256 0xFF)

/-- A PRIMARY and a MIRROR block of the record's generation 1, as written. -/
def pair0 : List FoundBlock :=
  [found (blk 0 64) .primary 1 noMarks (commit0 1), found (blk 1 64) .mirror 1 noMarks (commit0 1)]

theorem test_scanPageClauses :
    (after (exec (.scanReadDone 0 (.corrected 7)) (working (scanning .full 0 true fun s =>
        { s.setTodo 3 [.page 9 0] with found := [found (blk 0 64) .primary 1 .unread .unread] }) 0
            (scanJob 64 14)))).map
          (fun t => t.scan.found.map fun f => (f.worst, f.page14 == .unread)) = some [(7, false)]
      ∧ (after (exec (.scanReadDone 0 .uncorrectable) (working (scanning .full 0 true fun s =>
          { s.setTodo 3 [.page 9 0] with found := [found (blk 0 64) .primary 1 .unread .unread] }) 0
              (scanJob 64 15)))).map
            (fun t => t.scan.found.map (·.page15)) = some [.unreadable]
      ∧ (after (exec (.scanReadDone 0 .uncorrectable) (working (scanning .fullBodies 0 true fun s =>
          s.setTodo 3 [.page 9 1]) 0 (scanJob 64 13)))).map (·.scan.bodies)
            = some [{ addr := blk 0 64, page := 13, data := none }]
      ∧ (after (exec (.scanReadDone 0 .uncorrectable) (working (scanning .full 0 true fun s =>
          s.setTodo 3 [.page 9 0]) 0 (scanJob 64 0)))).map (·.blockState (blk 0 64)) = some (some .bad)
      ∧ (after (exec (.scanVerifyDone 1 .fail)
          (working verifying 1 { block := 9, op := .eraseVerify 1, cls := .read, by_ := .scanVerify }))).map
          (·.blockState (blk 1 9)) = some (some .stale) := by decide +kernel

/-- The scanner with no job out and its lists done. -/
def atEnd (stage : ScanStage) (detail : Bool) (f : Scan → Scan) : Device :=
  { scanning stage 0 detail f with scan := { (scanning stage 0 detail f).scan with out := Vector.replicate 4 false } }

/-- The same with an early namespace. -/
def earlyPart (d : Device) : Device :=
  { d with layout := { d.layout with active := some (layout0.set 0 { desc0 with early := true }) } }

theorem test_scanBankClauses :
    (scanning .full 0 false id).scanBank 0 = scanning .full 0 false id
      ∧ ((atEnd .full false fun s => { s with found := [found
          (blk 0 64) .primary 1 .unread .unread] }).scanBank 0).scan.todo[(0 : Bank)]
          = pageTasks 64 [14, 15]
      ∧ ((earlyPart (atEnd .early false fun s => { s with found := [found
          (blk 0 9) .primary 1 .unread .unread] })).scanBank
          0).scan.todo[(0 : Bank)] = pageTasks 9 [14, 15]
      ∧ (earlyPart (atEnd .early true id)).scanBank 0 = earlyPart (atEnd .early true id)
      ∧ (({ atEnd .full true (fun s => { s with
            stampSum := Vector.replicate 4 7, stampCount := Vector.replicate 4 2 }) with
          pool := { Pool.cleared with table := [
              { addr := blk 0 64, entry := { BlockEntry.plain .free 0 with estimated := true } }] } } :
            Device).scanBank 0).pool.table.map (·.entry.count) = [3] := by decide +kernel

/-- The found blocks with a second PRIMARY of the same version. -/
def doubled0 : List FoundBlock := found (blk 0 63) .primary 1 noMarks (commit0 1) :: pair0

theorem test_scanStageClauses :
    ((atEnd (.identity 0) true id).scanStage.scan.stage, (atEnd .finished true id).scanStage.scan.stage)
        = (.identity 0, .finished)
      ∧ (scanning .descriptors 0 true id).scanStage.scan.stage = .descriptors
      ∧ ((atEnd .descriptors true id).scanStage.phase, (atEnd .descriptors true id).scanStage.scan.stage)
          = (.early, .full)
      ∧ (earlyPart (atEnd .descriptors true id)).scanStage.scan.stage = .early
      ∧ (earlyPart (atEnd .early true fun s => { s with found := doubled0 })).scanStage.scan.stage = .earlyBodies
      ∧ (earlyPart (atEnd .early true fun s => { s with found := pair0 })).scanStage.phase = .early
      ∧ ((earlyPart (atEnd .earlyBodies true fun s => { s with found := doubled0 })).scanStage.entry? rec0).isSome
          = true
      ∧ (atEnd .full true fun s => { s with found := doubled0 }).scanStage.scan.todo[(0 : Bank)].length = 26
      ∧ ((atEnd .full true fun s => { s with found := pair0 }).scanStage.phase,
          ((atEnd .full true fun s => { s with found := pair0 }).scanStage.entry? rec0).map (·.version))
            = (.resuming, some version0)
      ∧ (atEnd .fullBodies true fun s => { s with found := doubled0 }).scanStage.pool.scrub.length = 1 := by
  decide +kernel
theorem test_resumeClauses :
    ready.resumeStep.isNone = true ∧ ({ ready with phase := .resuming } : Device).resumeStep.map (·.phase) = some .ready
      ∧ ({ readyAs .purging .none with phase := .resuming } : Device).resumeStep.map (fun d => d.purge.map (·.flight))
          = some (some none)
      ∧ (numberRetired [{ entry0 with state := .retired }, entry0,
          { entry0 with state := .retired }] 1).map (·.retireOrder)
          = [some 1, none, some 2]
      ∧ (scanning .full 0 true fun s => s.setTodo 3 [.verify 9 1]).scanPump.scan.out[(3 : Bank)] = true := by
  decide +kernel

/-! ### Rebuilt records -/

/-- A mark page with marks in slots of it. -/
def markedPage (ms : List (MarkKind × Nat)) : PageFound :=
  .data ((List.range 4).flatMap fun k =>
    match ms.find? fun m => decide (m.2 = k + 1) with
    | some m => markRecord m.1 m.2 1
    | none => List.replicate 64 0xFF)

/-- What the tests look at of a rebuilt entry. -/
structure Rebuilt where
  state   : RecordState
  hold    : Hold
  marks   : Nat
  refresh : Bool
  deriving DecidableEq

/-- What is rebuilt of the record from found blocks. -/
def rebuilt (fs : List FoundBlock) (gb : List GrownBad) : Option Rebuilt :=
  (rebuiltEntry gb [] true rec0 fs).map fun x => ⟨x.1.state, x.1.hold, x.1.marks, x.2⟩

/-- The PRIMARY and MIRROR with a mark page in the PRIMARY. -/
def marked0 (page14 : PageFound) : List FoundBlock :=
  [found (blk 0 64) .primary 1 page14 (commit0 1), found (blk 1 64) .mirror 1 noMarks (commit0 1)]

/-- A grown-bad entry of cause PROGRAM. -/
def aside0 (page seg : Nat) : GrownBad := { addr := blk 0 64, cause := .program, page := page, segment := seg }

theorem test_rebuiltClauses :
    rebuilt pair0 [] = some ⟨.live, .none, 0, false⟩
      ∧ rebuilt (marked0 (markedPage [(.retire, 1)])) [] = some ⟨.retired, .none, 1, false⟩
      ∧ rebuilt (marked0 (markedPage [(.retire, 1), (.restore, 2)])) [] = some ⟨.live, .none, 2, false⟩
      ∧ rebuilt (marked0 (markedPage [(.freeze, 3)])) [] = some ⟨.live, .frozen, 3, false⟩
      ∧ rebuilt (marked0 (markedPage [(.purge, 4)])) [] = some ⟨.purging, .none, 4, false⟩
      ∧ rebuilt (marked0 .unreadable) [] = some ⟨.live, .none, 0, false⟩ := by decide +kernel
theorem test_rebuiltRefreshClauses :
    rebuilt (marked0 (markedPage [(.retire, 1)])) [aside0 14 0] = some ⟨.live, .none, 1, false⟩
      ∧ rebuilt [found (blk 0 64) .primary 1 .unreadable (commit0 1)] [] = some ⟨.live, .none, 3, true⟩
      ∧ rebuilt [found (blk 1 64) .mirror 1 noMarks (commit0 1)] [] = some ⟨.live, .none, 0, true⟩ := by decide +kernel
theorem test_winnerClauses :
    rebuilt pair0 [aside0 15 0] = some ⟨.live, .none, 0, true⟩
      ∧ winnerOf [] [found (blk 0 64) .primary 1 noMarks .unreadable] = none
      ∧ (winnerOf [] (found (blk 0 70) .primary 2 noMarks (commit0 2) :: pair0)).map (·.generation) = some 2
      ∧ (FoundBlock.commit? [] (found (blk 0 70) .primary 3 noMarks (commit0 2))).isNone = true := by decide +kernel

/-- A chunk 0 block of generation 1 whose commit record carries a body CRC-32. -/
def carrying (a : BlockAddr) (copy : Copy) (crc : Nat) : FoundBlock :=
  found a copy 1 noMarks (.data (Machine.commitRecord 1 1 1 (leBytes 4 crc) ++ List.replicate 224 0xFF))

theorem test_winnerOfTwoRecordsClauses :
    (([carrying (blk 0 5) .mirror 4, carrying (blk 0 64) .primary 1, carrying (blk 1 3) .primary 2].map
        (·.addr.num)).Pairwise (· < ·))
      ∧ (winnerOf [] [carrying (blk 0 5) .mirror 4, carrying (blk 0 64) .primary 1, carrying (blk 1 3) .primary 2]).map
          (·.crc) = some 1
      ∧ (winnerOf [] [carrying (blk 0 5) .mirror 4, carrying (blk 0 64) .mirror 1]).map (·.crc) = some 4 := by
  decide +kernel

/-- Body pages of a block that hold a first byte. -/
def bodyOf (a : BlockAddr) (x : Byte) : List BodyPage :=
  (List.range 13).map fun p =>
    { addr := a, page := p + 1, data := some (if p = 0 then x :: List.replicate 255 0 else List.replicate 256 0) }

/-- The commit record of the record's version. -/
def record0 : CommitRecord := { generation := 1, count := 1, bodyLength := 1, crc := crc32 [1] }

/-- The two PRIMARY blocks of `doubled0`. -/
def twins : List FoundBlock := doubled0.take 2

theorem test_duplicateClauses :
    (∀ x ∈ bodyOf (blk 0 63) 2 ++ bodyOf (blk 0 64) 1, ∀ bytes, x.data = some bytes → bytes.length = 256)
      ∧ twins.length = 2
      ∧ (chooseCopy (bodyOf (blk 0 63) 2 ++ bodyOf (blk 0 64) 1) record0 [twins]).1.map (·.map (·.addr))
          = [some (blk 0 64)]
      ∧ (chooseCopy (bodyOf (blk 0 63) 2) record0 [twins]).2 = true
      ∧ (chooseCopy [] record0 [twins.take 1]).2 = false := by decide +kernel
theorem test_resolveClauses :
    (pair0.map (·.addr)).Nodup ∧ (∀ f ∈ pair0, f.addr.block ≠ 0)
      ∧ (let d := ({ ready with dir := [] } : Device).resolveKey pair0 rec0
        d.dir = [entry0] ∧ d.blockState (blk 0 64) = some .allocated)
      ∧ (let d := ({ ready with dir := [], layout := Device.blank.layout } : Device).resolveKey pair0
          { ns := 3, key := 5 }
        d.dir = [])
      ∧ (let full := { ready with layout := { ready.layout with
            active := some (layout0.set 0 { desc0 with recordLimit := 0 }) } }
        let d := ({ full with dir := [] } : Device).resolveKey pair0 rec0
        d.dir = [] ∧ d.blockState (blk 0 64) = some .stale)
      ∧ (foundNames pair0).map (·.num) = [rec0.num] := by decide +kernel

/-! ### More of the array -/

theorem test_classifyEarlyClauses :
    (earlyPart ready).earlyNs = some 0 ∧ inEarlyRange (blk 0 63) = true ∧ inEarlyRange (blk 0 64) = false
      ∧ inEarlyRange (blk 2 1) = false ∧ (ready.scan.grownBad.any fun g => decide (g.addr = blk 0 64)) = false
      ∧ ((earlyPart ready).classify (blk 2 9) (.corrected 0)
          (page0 (wearStamp 3) (headerRecord (header0 .primary 1)))).blockState (blk 2 9) = some .stale
      ∧ ((earlyPart ready).classify (blk 0 9) (.corrected 0)
          (page0 (wearStamp 3) (headerRecord (header0 .primary 1)))).scan.found.length = 1
      ∧ (ready.classify (blk 2 9) (.corrected 0) (page0 (List.replicate 16 0) [])).blockState (blk 2 9) = some .stale
      ∧ (ready.classify (blk 2 9) (.corrected 0) (page0 (List.replicate 16 0xFF) [])).scan.verifies.length = 1 := by
  decide +kernel
/-- A state in which the last erase of block 7 of bank 2 was cut short. -/
def cutShort : State := { full ready with cut := [(blk 2 7).num] }

theorem test_arrayCutClauses :
    Memory.wf cutShort.cells = true ∧ (cutShort.jobWorked 2 (eraseJob .blockErase .scrubErase) .ok).cut = []
      ∧ (cutShort.jobWorked 2 (eraseJob (.segmentProgram 0 0 (wearStamp 1)) .wearStamp) .fail).cut = []
      ∧ (cutShort.jobWorked 2 (eraseJob (.segmentProgram 14 0 (markRecord .retire 1 1)) .wearStamp) .fail).cut
          = [(blk 2 7).num]
      ∧ (cutShort.jobWorked 2 (eraseJob (.pageProgram 0 (List.replicate 256 0)) .purgeOverwrite) .ok).cut = [] := by
  decide +kernel

/-! ### Records that fail their CRC, and cells programmed over -/

/-- A valid commit record of the record's version in page 15 of block 7 of bank 2, a valid mark in slot 2 of page 14
of the block and a valid grown-bad entry in bank 2, each of which fails its CRC where `torn` names it. -/
def tornAt (torn : List Nat) : State :=
  { full ready with
    torn := torn
    cells := Memory.program [] (Memory.program [] (Memory.program [] [] (pageBase (blk 2 0) 1)
        (grownBadRecord 7 .erase 0 0)) (pageBase (blk 2 7) 14 + 64) (markRecord .retire 2 1)) (pageBase (blk 2 7) 15)
          (Machine.commitRecord 1 1 1 (leBytes 4 9)) }

theorem test_tornRecordClauses :
    readCommit (pageBytes (tornAt []) (blk 2 7) 15) ≠ none ∧ readMark (pageBytes (tornAt []) (blk 2 7) 14) 2 ≠ none
      ∧ readGrownBad 2 (segment (pageBytes (tornAt []) (blk 2 0) 1) 0) ≠ none
      ∧ readStamp (segment (pageBytes (tornAt []) (blk 2 7) 0) 0) = some 0
      ∧ readCommit (pageBytes (tornAt [segmentNum (blk 2 7) 15 0]) (blk 2 7) 15) = none
      ∧ readMark (pageBytes (tornAt [segmentNum (blk 2 7) 14 4]) (blk 2 7) 14) 2 = none
      ∧ readMark (pageBytes (tornAt [segmentNum (blk 2 7) 14 0]) (blk 2 7) 14) 2 ≠ none
      ∧ readGrownBad 2 (segment (pageBytes (tornAt [segmentNum (blk 2 0) 1 0]) (blk 2 0) 1) 0) = none
      ∧ readStamp (segment (pageBytes (tornAt [segmentNum (blk 2 7) 0 0]) (blk 2 7) 0) 0) = none
      ∧ (pageBytes (tornAt []) (blk 2 7) 15)[0]? = some 1 := by decide +kernel

/-- The program of a commit record of block 7. -/
def commitJob : Job := eraseJob (.segmentProgram 15 0 (Machine.commitRecord 1 1 1 [])) (.commitRecord 0)

theorem test_cutAndDrainedRecordClauses :
    (after (exec .powerLoss (working ready 2 commitJob))).map (fun t => (t.torn, t.weak.length))
        = some ([segmentNum (blk 2 7) 15 0], 2)
      ∧ (after (exec .powerLoss (working ready 2 (eraseJob (.segmentProgram 0 0 (wearStamp 1)) .wearStamp)))).map (·.torn)
          = some []
      ∧ (after (exec (.drainJobDone 3 .fail) (draining true))).map (fun t => (t.torn, t.spoilt))
          = some ([segmentNum (blk 3 0) 15 0], [pageNum (blk 3 0) 15])
      ∧ ((full ready).drainWorked 2 commitJob .fail).torn = [segmentNum (blk 2 7) 15 0]
      ∧ (tornAt [segmentNum (blk 2 7) 15 0]).drainWorked 2 commitJob .ok
          = (tornAt [segmentNum (blk 2 7) 15 0]).jobWorked 2 commitJob .ok
      ∧ ((tornAt [segmentNum (blk 2 7) 15 0]).jobWorked 2 commitJob .ok).torn = [] := by decide +kernel

/-- A state in which page 15 of bank 0's descriptor block holds the given bytes, and is or is not a layout page that
fails its CRC. -/
def layoutAt (torn : Bool) (bytes : List Byte) : State :=
  { full ready with
    torn := if torn then [segmentNum (blk 0 0) 15 0] else []
    cells := Memory.program [] [] (pageBase (blk 0 0) 15) bytes }

/-- What the scanner finds of that page: the highest page programmed, and the number of layouts. -/
def layoutFound (torn : Bool) (bytes : List Byte) : Nat × Nat :=
  let d := Device.layoutRead { ready with scan := Scan.cleared } 0 15 (.corrected 0)
    (pageBytes (layoutAt torn bytes) (blk 0 0) 15)
  (d.scan.topPage, d.scan.layouts.length)

set_option maxRecDepth 100000 in
/-- A layout page that failed or was cut short stays used and holds no layout (R152, R167), whether its cells would read
as that layout or as erased. -/
theorem test_failedLayoutPageStaysUsed :
    layoutFound false (layoutPage 11 layout0) = (15, 1) ∧ layoutFound true (layoutPage 11 layout0) = (15, 0)
      ∧ layoutFound false [] = (4, 0) ∧ layoutFound true [] = (15, 0) := by decide +kernel

theorem test_failedDescriptorProgramClauses :
    (after (exec (.layoutPageProgramDone 0 .fail) (working (layingOut none) 0 layoutJob))).map (fun t => (t.torn, t.spoilt))
        = some ([segmentNum (blk 0 0) 15 0], [pageNum (blk 0 0) 15])
      ∧ (after (exec .powerLoss (working (layingOut none) 0 layoutJob))).map (·.torn)
          = some [segmentNum (blk 0 0) 15 0]
      ∧ (let grownBad : Job := { eraseJob (.segmentProgram 1 3 (grownBadRecord 7 .erase 0 0)) .grownBad with block := 0 }
        ((full ready).jobWorked 2 grownBad .fail).torn = [segmentNum (blk 2 0) 1 3])
      ∧ ((full ready).jobWorked 2 commitJob .fail).torn = []
      ∧ allOnes (segment (pageBytes (tornAt [segmentNum (blk 2 0) 1 3]) (blk 2 0) 1) 3) = false
      ∧ allOnes (segment (pageBytes (tornAt [segmentNum (blk 2 0) 1 3]) (blk 2 0) 1) 4) = true
      ∧ slotsProgrammed [] (some (blk 2 7, pageBytes (tornAt []) (blk 2 7) 14)) = 2
      ∧ slotsProgrammed [] (some (blk 2 7, pageBytes (tornAt [segmentNum (blk 2 7) 14 8]) (blk 2 7) 14)) = 3 := by
  decide +kernel

/-- A state in which no rule fixes the wear stamp's segment of block 7 of bank 2, whose last erase was cut short. -/
def erasedShort : State := { full ready with weak := [(blk 2 7).num * 256], cut := [(blk 2 7).num] }

theorem test_programmedOverClauses :
    erasedShort.unfixed (pageBase (blk 2 7) 0) = true ∧ erasedShort.unfixed (pageBase (blk 2 7) 3) = false
      ∧ (erasedShort.jobWorked 2 (eraseJob (.segmentProgram 0 0 (wearStamp 5)) .wearStamp) .ok).cut = []
      ∧ readStamp (segment (pageBytes (erasedShort.jobWorked 2
          (eraseJob (.segmentProgram 0 0 (wearStamp 5)) .wearStamp) .ok) (blk 2 7) 0) 0) = some 5
      ∧ ((erasedShort.jobWorked 2 (eraseJob (.segmentProgram 0 0 (wearStamp 5)) .wearStamp) .fail).spoilt,
          (erasedShort.jobWorked 2 (eraseJob (.segmentProgram 0 0 (wearStamp 5)) .wearStamp) .fail).cut)
          = ([pageNum (blk 2 7) 0], [])
      ∧ ((full ready).jobCut 2 (eraseJob .blockErase .scrubErase)).cut = [(blk 2 7).num] := by decide +kernel
theorem test_verifiedClauses :
    (full ready).verifyPasses (blk 2 7) 0 .ok = false
      ∧ ((erasedShort.jobWorked 2 (eraseJob (.eraseVerify 0) .scanVerify) .ok).weak,
          (erasedShort.jobWorked 2 (eraseJob (.eraseVerify 0) .scanVerify) .ok).cut) = ([], [])
      ∧ (pageBytes (erasedShort.jobWorked 2 (eraseJob (.eraseVerify 0) .scanVerify) .ok) (blk 2 7) 0)[0]? = some 0xFF
      ∧ (erasedShort.jobWorked 2 (eraseJob (.eraseVerify 1) .scanVerify) .ok).weak = [(blk 2 7).num * 256]
      ∧ erasedShort.jobWorked 2 (eraseJob (.eraseVerify 0) .scanVerify) .fail = erasedShort := by decide +kernel

/-! ### Reads that go on, examinations, and WORN within a run -/

/-- A READ that goes over from chunk 0 to chunk 1 of a version whose second element is the given one. -/
def goingOn (second : Option ChunkRef) : ReadWork :=
  { acrossRead with version := { version0 with chunks := version0.chunks ++ [second] }, jobs := 0 }

theorem test_readGoesOnClauses :
    (goingOn none).lost = none ∧ (goingOn none).chunkDone = true ∧ (goingOn none).chunk + 1 ∈ (goingOn none).chunksTouched
      ∧ ((ready.readOn 0 (goingOn (some ⟨blk 3 9, .primary⟩))).engines[(3 : Bank)].current.map (·.op))
          = some (.pageRead 1)
      ∧ ((flying ready .read .purge).readOn 0 (goingOn none)).primary.completions.map (·.result) = [.dataLost]
      ∧ ({ goingOn none with got := [] } : ReadWork).chunkDone = false
      ∧ (after (exec (.readPageDone 0 (.corrected 6))
          (working (flying ready .read (.read { read0 with jobs := 2, lost := some ⟨0, 3⟩ })) 0
            (readJob 64 1 (.readPage 0 0 1 .primary))))).map (fun t => (t.work? 0, t.pool.refresh))
          = some (some (.read { read0 with jobs := 1, lost := some ⟨0, 3⟩ }), [rec0])
      ∧ posted .primary (exec (.checkPageDone 0 .uncorrectable)
          (working (flying ready .check (.check { check0 with lost := some ⟨0, 3⟩ })) 0
            (readJob 64 1 (.checkPage 0 0 1 .primary)))) = some [(7, .dataLost)]
      ∧ 0 < (goingOn none).length ∧ check0.jobs ≠ 0 := by decide +kernel

/-- The put of `putAgain` whose grant waits for a STALE block, and has headed the wait list since the last step. -/
def stillWaiting : Device :=
  let d := waiting (.put 0 (some .primary)) [line (blk 0 65) .stale none] putAgain
  { d with pool := { d.pool with head := d.pool.waits.head? } }

theorem test_examinationClauses :
    stillWaiting.pool.waits ≠ [] ∧ stillWaiting.nextDemand = some (blk 0 65) ∧ stillWaiting.demandStep.isNone = true
      ∧ (stillWaiting.toExamine.demandStep.map (·.blockState (blk 0 65))) = some (some .erasing)
      ∧ (stillWaiting.eraseOver (eraseJob .blockErase .scrubErase)).pool.examine = true
      ∧ (stillWaiting.eraseOver commitJob).pool.examine = false
      ∧ ((calmWait stillWaiting).blockFreed (blk 0 65)).pool.recheck = true
      ∧ ((calmWait stillWaiting).makeBad (blk 0 65) .wear 0 0).pool.recheck = true
      ∧ ((calmWait stillWaiting).makeBad (blk 0 9) .wear 0 0).pool.recheck = false
      ∧ ((calmWait stillWaiting).withdrawGrants (Asker.isPut 0)).pool.recheck = true
      ∧ ((calmWait stillWaiting).withdrawGrants (Asker.isPut 1)).pool.recheck = false
      ∧ ((stillWaiting.pin [blk 0 65]).unpin [blk 0 65]).pool.examine = true
      ∧ (((stillWaiting.pin [blk 0 65]).pin [blk 0 65]).unpin [blk 0 65]).pool.examine = false := by decide +kernel

theorem test_wornWithinARunClauses :
    reloc0.ending = none ∧ reloc0.stage = .copying ∧ reloc0.jobs ≠ 0
      ∧ ((relocating reloc0).enterWorn.maint.reloc.map (·.ending)) = some (some .worn)
      ∧ (relocating reloc0).enterWorn.maint.wornSeen = true
      ∧ ((relocating { reloc0 with stage := .commitQueued }).enterWorn.maint.reloc.map (·.ending)) = some none
      ∧ (let d := (relocating { reloc0 with jobs := 0 }).enterWorn
        (d.maint.reloc, (d.entry? rec0).map (·.busy))) = (none, some .none)
      ∧ (ready.enterWorn.maint.reloc, ready.enterWorn.maint.wornSeen) = (none, false) := by decide +kernel

end Sys2Proof.Tests
end

/-!
OPEN UPDATE (R26 to R29): its checks read as the rules word them, what the opening of a context does for a create and
for a replace, and the settling of O22.
-/

namespace Sys2Proof.Machine

/-! ### Checks, as the rules word them -/

/-- The phases that answer NOT_READY are those other than READY and WORN (R25, R26). -/
theorem Phase.notReady_eq (x : Phase) : x.notReady = (decide (x ≠ .ready) && decide (x ≠ .worn)) := by
  cases x <;> rfl

/-- A byte parameter is compared by its unsigned value. -/
theorem decide_byte_eq (b c : Byte) : decide (b = c) = decide (b.toNat = c.toNat) :=
  decide_eq_decide.2 BitVec.toNat_inj.symm

/-- Check 6 of R26, said of the values that pass it. -/
theorem badOpenParameter_eq (length : BitVec 16) (mode : Byte) :
    (decide (length.toNat = 0) || decide (Config.maxBody < length.toNat) || !modeOk mode)
      = !(decide (1 ≤ length.toNat) && decide (length.toNat ≤ 53248) && decide (1 ≤ mode.toNat)
          && decide (mode.toNat ≤ 3)) := by
  unfold modeOk Config.maxBody
  rw [Bool.eq_iff_iff]
  simp only [Bool.or_eq_true, Bool.not_eq_true', Bool.and_eq_false_iff, decide_eq_true_eq, decide_eq_false_iff_not]
  omega

/-- The cases of R27 for a key that has no entry. -/
theorem Device.modeChecks_none (d : Device) (p : Port) (n : NsIndex) (mode : Byte) :
    d.modeChecks p n none mode
      = [ (decide (mode.toNat = 2), .notFound), (decide (1024 ≤ d.dir.length), .directoryFull),
          (decide ((d.desc n).recordLimit ≤ d.recordCount n), .nsLimit) ] := by
  unfold Device.modeChecks
  rw [decide_byte_eq mode 2]
  rfl

/-- The cases of R27 for a key that has an entry. -/
theorem Device.modeChecks_some (d : Device) (p : Port) (n : NsIndex) (e : Entry) (mode : Byte) :
    d.modeChecks p n (some e) mode
      = [ (decide (mode.toNat = 1), .exists),
          (decide (e.state = .reserved) || decide (e.busy ≠ .none), .recordBusy),
          (decide (e.state = .retired) || decide (e.state = .purging), .recordRetired),
          (decide (e.hold = .frozen), .holdFrozen), (decide (e.hold = .held p.other), .holdConflict),
          (decide (e.version.generation = 4294967294), .generationLimit) ] := by
  unfold Device.modeChecks
  rw [decide_byte_eq mode 1]
  rfl

/-! ### Slots -/

/-- The slots in ascending order, as the library lists them. -/
theorem allSlots_eq_finRange : allSlots = List.finRange 8 := by decide

/-- The slot an OPEN UPDATE takes is FREE, and no lower-numbered one is (R24). -/
theorem Device.firstFree_lowest {d : Device} {i : SlotIndex} (h : d.firstFree = some i) :
    (∀ k : SlotIndex, k < i → d.ctx? k ≠ none) ∧ d.ctx? i = none := by
  unfold Device.firstFree at h
  rw [allSlots_eq_finRange, List.find?_eq_some_iff_getElem] at h
  obtain ⟨free, j, hj, rfl, lower⟩ := h
  refine ⟨fun k hk => ?_, by simpa using free⟩
  have taken := lower k (by simpa [Fin.lt_def] using hk)
  exact Option.isSome_iff_ne_none.1 (by simpa using taken)

/-! ### Opening a context -/

/-- A create opens its context and inserts a RESERVED entry whose busy field names the handle (R12, R29). -/
theorem Device.openContext_create {d : Device} {r : RecordName} (h : d.entry? r = none) (p : Port) (i : SlotIndex)
    (length : Nat) :
    d.openContext p i r length
      = (d.setCtx i (d.newContext p r length none)).insertRecord (reservedEntry r (d.handle i)) := by
  unfold Device.openContext
  rw [h]

/-- A replace opens its context and names the handle in the busy field of the entry (R29). -/
theorem Device.openContext_replace {d : Device} {r : RecordName} {e : Entry} (h : d.entry? r = some e) (p : Port)
    (i : SlotIndex) (length : Nat) :
    d.openContext p i r length
      = (d.setCtx i (d.newContext p r length (some e))).modEntry r fun e =>
          { e with busy := .update (d.handle i) } := by
  unfold Device.openContext
  rw [h]

/-- An OPEN UPDATE that fails a check does nothing but answer (R26 to R28). -/
theorem Device.workOpen_refused {d : Device} {p : Port} {ns : Byte} {key : Key} {length : BitVec 16} {mode : Byte}
    {r : Result} (h : firstFailure (d.openChecks p ns key length mode) = some r) (id : Nat) :
    d.workOpen p id ns key length mode = d.complete id r [] := by
  unfold Device.workOpen
  rw [h]

/-- An OPEN UPDATE that passes its checks opens the context in the first FREE slot and answers OK (R29). -/
theorem Device.workOpen_passed {d : Device} {p : Port} {ns : Byte} {key : Key} {length : BitVec 16} {mode : Byte}
    {n : NsIndex} {i : SlotIndex} (h : firstFailure (d.openChecks p ns key length mode) = none)
    (hn : d.nsOf ns = some n) (hi : d.firstFree = some i) (id : Nat) :
    d.workOpen p id ns key length mode
      = (d.openContext p i { ns := n, key := key } length.toNat).complete id .ok
          (openReply (d.handle i)
            (d.newContext p { ns := n, key := key } length.toNat (d.entry? { ns := n, key := key }))) := by
  unfold Device.workOpen
  rw [h, hn, hi]

/-! ### In the step of the take -/

/-- An answer and the insertion of an entry may change places. -/
theorem Device.complete_insertRecord (d : Device) (e : Entry) (id : Nat) (r : Result) (reply : List Byte) :
    (d.insertRecord e).complete id r reply = (d.complete id r reply).insertRecord e := by
  obtain ⟨fl, pr, se, h⟩ := d.complete_fields id r reply
  have := d.complete_slots_dir d.slots (insertEntry e d.dir) id r reply
  unfold Device.insertRecord
  rw [h] at this ⊢
  exact this

/-- The checks read nothing that a take changes. -/
@[simp] theorem Device.takeIn_openChecks (d : Device) (p : Port) (r : Request) (q : Port) (ns : Byte) (key : Key)
    (length : BitVec 16) (mode : Byte) :
    (d.takeIn p r).openChecks q ns key length mode = d.openChecks q ns key length mode := by
  unfold Device.openChecks Device.modeChecks
  simp

/-- The context to be opened is made of nothing that a take changes. -/
@[simp] theorem Device.takeIn_newContext (d : Device) (p : Port) (r : Request) (q : Port) (n : RecordName)
    (length : Nat) (e? : Option Entry) :
    (d.takeIn p r).newContext q n length e? = d.newContext q n length e? := by
  unfold Device.newContext
  simp

section
variable {s : State} {p : Port} {tag ns : Byte} {key : Key} {length : BitVec 16} {mode : Byte}

/-- The row OPEN UPDATE takes the request that is next and works it. -/
theorem State.execOpenUpdate_taken (h : s.Takes p tag (.openUpdate ns key length mode)) :
    exec .openUpdate s
      = .next { s with
          toDevice :=
            s.takeEnd ((s.takeIn p { tag := tag, body := .openUpdate ns key length mode }).workOpen p s.newFlightId
              ns key length mode) } :=
  State.takes_next h Device.doOpen

/-- An OPEN UPDATE that fails a check answers it, and the step does nothing else. -/
theorem State.execOpenUpdate_refused {r : Result} (h : s.Takes p tag (.openUpdate ns key length mode))
    (hr : firstFailure (s.openChecks p ns key length mode) = some r) :
    exec .openUpdate s = .next (s.answers p tag (.openUpdate ns key length mode) r []) := by
  rw [State.execOpenUpdate_taken h, Device.workOpen_refused (by simpa using hr), Device.complete_takeIn]
  rfl

/-- An OPEN UPDATE of a key without an entry, all checks passed (R12, R29). -/
theorem State.execOpenUpdate_create {n : NsIndex} {i : SlotIndex}
    (h : s.Takes p tag (.openUpdate ns key length mode))
    (pass : firstFailure (s.openChecks p ns key length mode) = none) (hn : s.nsOf ns = some n)
    (hi : s.firstFree = some i) (he : s.entry? { ns := n, key := key } = none) :
    let r : RecordName := { ns := n, key := key }
    exec .openUpdate s
      = .next (s.answersWith p tag (.openUpdate ns key length mode) .ok
          (openReply (s.handle i) (s.newContext p r length.toNat none)) fun d =>
            (d.setCtx i (s.newContext p r length.toNat none)).insertRecord (reservedEntry r (s.handle i))) := by
  intro r
  rw [State.execOpenUpdate_taken h,
    Device.workOpen_passed (by simpa using pass) (by simpa using hn) (by simpa using hi),
    Device.openContext_create (by simpa using he), Device.complete_insertRecord, Device.complete_setCtx,
    Device.complete_takeIn]
  simp only [Device.takeIn_newContext, Device.takeIn_handle, Device.takeIn_entry, he]
  rfl

/-- An OPEN UPDATE of a key with an entry, all checks passed (R29). -/
theorem State.execOpenUpdate_replace {n : NsIndex} {i : SlotIndex} {e : Entry}
    (h : s.Takes p tag (.openUpdate ns key length mode))
    (pass : firstFailure (s.openChecks p ns key length mode) = none) (hn : s.nsOf ns = some n)
    (hi : s.firstFree = some i) (he : s.entry? { ns := n, key := key } = some e) :
    let r : RecordName := { ns := n, key := key }
    exec .openUpdate s
      = .next (s.answersWith p tag (.openUpdate ns key length mode) .ok
          (openReply (s.handle i) (s.newContext p r length.toNat (some e))) fun d =>
            (d.setCtx i (s.newContext p r length.toNat (some e))).modEntry r fun e =>
              { e with busy := .update (s.handle i) }) := by
  intro r
  rw [State.execOpenUpdate_taken h,
    Device.workOpen_passed (by simpa using pass) (by simpa using hn) (by simpa using hi),
    Device.openContext_replace (e := e) (by simpa using he), Device.complete_modEntry, Device.complete_setCtx,
    Device.complete_takeIn]
  simp only [Device.takeIn_newContext, Device.takeIn_handle, Device.takeIn_entry, he]
  rfl

end

/-- Settles O22: the statement's list of checks is the model's, so each outcome is the one lemma that says it. -/
theorem openUpdateChecksAndOpensAContext : Obligations.OpenUpdateChecksAndOpensAContext := by
  unfold Obligations.OpenUpdateChecksAndOpensAContext
  intro s p tag ns key length mode h checks
  have same : checks = s.openChecks p ns key length mode := by
    unfold checks Device.openChecks Device.lockedOn
    rw [Phase.notReady_eq, badOpenParameter_eq]
    cases s.nsOf ns with
    | none => rfl
    | some n =>
      dsimp only
      cases s.entry? { ns := n, key := key } with
      | none => rw [Device.modeChecks_none]; rfl
      | some e => rw [Device.modeChecks_some]; rfl
  rw [same]
  refine ⟨fun r hr => State.execOpenUpdate_refused h hr, fun n i pass hn hi => ?_⟩
  obtain ⟨lower, free⟩ := Device.firstFree_lowest hi
  exact ⟨lower, free, fun he => State.execOpenUpdate_create h pass hn hi he,
    fun e he => State.execOpenUpdate_replace h pass hn hi he⟩

end Sys2Proof.Machine

/-!
READ (R49, R51, R52, R54, R57): its checks as the rules word them, the snapshot of a READ that passes them, what the
first chunk of its range comes to with and without a chunk-list element, and the settling of O20.
-/

namespace Sys2Proof.Machine

/-- The nine checks of R49, in its order. -/
def Device.readChecks (d : Device) (p : Port) (ns : Byte) (key : Key) (offset length : BitVec 16) :
    List (Bool × Result) :=
  d.lookupChecks p ns ++
    [ (decide (length.toNat = 0) || decide (readLimit p < length.toNat), .badParameter),
      ((d.entryOf ns key).isNone, .notFound),
      (inState (d.entryOf ns key) .reserved, .recordBusy),
      (inState (d.entryOf ns key) .retired || inState (d.entryOf ns key) .purging, .recordRetired),
      ((d.entryOf ns key).any fun e => decide (e.version.bodyLength < offset.toNat + length.toNat), .badParameter) ]

/-- The work of a READ when its snapshot is taken (R51): the committed version of the entry, the blocks of every chunk
the range touches as its pins (R52), and the chunk of the first byte of the range as the chunk at work (R54). -/
def Entry.readWork (e : Entry) (offset length : Nat) : ReadWork :=
  let range : ReadWork :=
    { name := e.name, version := e.version, pins := [], offset := offset, length := length,
      chunk := offset / Config.chunkBytes, got := [], jobs := 0, lost := none }
  { range with pins := range.chunksTouched.flatMap e.version.blocksAt }

/-! ### Checks -/

/-- An entry is in one of two states. -/
theorem inState_or (e? : Option Entry) (a b : RecordState) :
    (inState e? a || inState e? b) = e?.any fun e => decide (e.state = a) || decide (e.state = b) := by
  cases e? <;> rfl

/-- The checks read nothing that a take changes. -/
@[simp] theorem Device.takeIn_readChecks (d : Device) (p : Port) (r : Request) (q : Port) (ns : Byte) (key : Key)
    (offset length : BitVec 16) :
    (d.takeIn p r).readChecks q ns key offset length = d.readChecks q ns key offset length := by
  unfold Device.readChecks Device.lookupChecks
  simp

/-- A READ that fails a check does nothing but answer (R49). -/
theorem Device.workRead_refused {d : Device} {p : Port} {ns : Byte} {key : Key} {offset length : BitVec 16}
    {r : Result} (h : firstFailure (d.readChecks p ns key offset length) = some r) (id : Nat) :
    d.workRead p id ns key offset length = d.complete id r [] := by
  unfold Device.readChecks at h
  unfold Device.workRead
  dsimp only
  rw [h]

/-- A READ that passes its checks starts on the entry it names (R51). -/
theorem Device.workRead_passed {d : Device} {p : Port} {ns : Byte} {key : Key} {offset length : BitVec 16} {e : Entry}
    (h : firstFailure (d.readChecks p ns key offset length) = none) (he : d.entryOf ns key = some e) (id : Nat) :
    d.workRead p id ns key offset length = d.startRead id e offset.toNat length.toNat := by
  unfold Device.readChecks at h
  unfold Device.workRead
  dsimp only
  rw [h, he]

/-! ### The first chunk -/

/-- A READ goes to a chunk that has a chunk-list element: it queues a read of each page it needs of it (R54). -/
theorem Device.readChunk_present {w : ReadWork} {x : ChunkRef} (h : w.version.chunkAt w.chunk = some x) (d : Device)
    (id : Nat) :
    d.readChunk id w
      = ((w.pagesOf w.chunk).foldl (fun d g => d.queueRead x.addr g (.readPage id w.chunk g .primary)) d,
         { w with jobs := w.jobs + (w.pagesOf w.chunk).length }) := by
  unfold Device.readChunk
  rw [h]

/-- A READ goes to a chunk whose chunk-list element is MISSING: its first page there is lost without a read (R57). -/
theorem Device.readChunk_missing {w : ReadWork} (h : w.version.chunkAt w.chunk = none) (d : Device) (id : Nat) :
    d.readChunk id w = (d, { w with lost := some { chunk := w.chunk, page := (w.pagesOf w.chunk).headD 1 } }) := by
  unfold Device.readChunk
  rw [h]

/-- A READ that starts pins the blocks of its snapshot and goes to its first chunk; with a page lost there it ends at
once. -/
theorem Device.startRead_eq (d : Device) (id : Nat) (e : Entry) (offset length : Nat) :
    let w := e.readWork offset length
    let x := (d.pin w.pins).readChunk id w
    d.startRead id e offset length = if x.2.lost.isSome then x.1.endRead id x.2 else x.1.setWork id (.read x.2) :=
  rfl

section
variable {e : Entry} {offset length : Nat}

/-- A READ pins its blocks and queues the page reads of its first chunk, and is then at work (R52, R54). -/
theorem Device.startRead_present {x : ChunkRef}
    (h : e.version.chunkAt (e.readWork offset length).chunk = some x) (d : Device) (id : Nat) :
    let w := e.readWork offset length
    d.startRead id e offset length
      = ((w.pagesOf w.chunk).foldl (fun d g => d.queueRead x.addr g (.readPage id w.chunk g .primary))
          (d.pin w.pins)).setWork id (.read { w with jobs := (w.pagesOf w.chunk).length }) := by
  intro w
  have jobs_eq : w.jobs + (w.pagesOf w.chunk).length = (w.pagesOf w.chunk).length := Nat.zero_add _
  rw [Device.startRead_eq, Device.readChunk_present h, jobs_eq]
  rfl

/-- A READ whose first chunk is MISSING pins its blocks, loses the first page it needs, and ends (R52, R57, R58). -/
theorem Device.startRead_missing (h : e.version.chunkAt (e.readWork offset length).chunk = none) (d : Device)
    (id : Nat) :
    let w := e.readWork offset length
    d.startRead id e offset length
      = (d.pin w.pins).endRead id
          { w with lost := some { chunk := w.chunk, page := (w.pagesOf w.chunk).headD 1 } } := by
  intro w
  rw [Device.startRead_eq, Device.readChunk_missing h]
  rfl

end

/-! ### In the step of the take -/

section
variable {s : State} {p : Port} {tag ns : Byte} {key : Key} {offset length : BitVec 16}

/-- The row READ takes the request that is next and works it. -/
theorem State.execRead_taken (h : s.Takes p tag (.read ns key offset length)) :
    exec .read s
      = .next { s with
          toDevice :=
            s.takeEnd ((s.takeIn p { tag := tag, body := .read ns key offset length }).workRead p s.newFlightId
              ns key offset length) } :=
  State.takes_next h Device.doRead

/-- A READ that fails a check answers it, and the step does nothing else. -/
theorem State.execRead_refused {r : Result} (h : s.Takes p tag (.read ns key offset length))
    (hr : firstFailure (s.readChecks p ns key offset length) = some r) :
    exec .read s = .next (s.answers p tag (.read ns key offset length) r []) := by
  rw [State.execRead_taken h, Device.workRead_refused (by simpa using hr), Device.complete_takeIn]
  rfl

/-- A READ that passes its checks is in flight, and starts on the entry it names (R51). -/
theorem State.execRead_passed {e : Entry} (h : s.Takes p tag (.read ns key offset length))
    (pass : firstFailure (s.readChecks p ns key offset length) = none) (he : s.entryOf ns key = some e) :
    exec .read s
      = .next (s.begins p tag (.read ns key offset length) fun d id =>
          d.startRead id e offset.toNat length.toNat) := by
  rw [State.execRead_taken h, Device.workRead_passed (by simpa using pass) (by simpa using he)]
  rfl

end

/-- Settles O20: the statement's list of checks is the model's, and what a READ that passes it starts turns on the
chunk-list element of its first chunk alone. -/
theorem readPinsAndReadsItsFirstChunk : Obligations.ReadPinsAndReadsItsFirstChunk := by
  unfold Obligations.ReadPinsAndReadsItsFirstChunk
  intro s p tag ns key offset length h e? checks
  have same : checks = s.readChecks p ns key offset length := by
    unfold checks Device.readChecks
    rw [inState_or]
    cases p <;> rfl
  rw [same]
  refine ⟨fun r hr => State.execRead_refused h hr, fun e pass he => ⟨fun x hx => ?_, fun missing => ?_⟩⟩
  · rw [State.execRead_passed h pass he]
    simp only [Device.startRead_present (e := e) (offset := offset.toNat) (length := length.toNat) hx]
    rfl
  · rw [State.execRead_passed h pass he]
    simp only [Device.startRead_missing (e := e) (offset := offset.toNat) (length := length.toNat) missing]
    rfl

end Sys2Proof.Machine

/-!
RETIRE, RESTORE and FREEZE (R71, R73, R88): the checks that each makes, as the rules word them, what each does with an
entry that passes, and the settling of O28. The mark work that the passed requests begin is `Device.beginMark`.
-/

namespace Sys2Proof.Machine

/-! ### Checks -/

/-- The checks of RESTORE (R73), which RETIRE and FREEZE make too. -/
def Device.restoreChecks (d : Device) (p : Port) (ns : Byte) (key : Key) : List (Bool × Result) :=
  d.markRequestChecks p ns key ++ [(isBusy (d.entryOf ns key), .recordBusy)]

/-- The checks of RETIRE (R71). -/
def Device.retireChecks (d : Device) (p : Port) (ns : Byte) (key : Key) : List (Bool × Result) :=
  d.markRequestChecks p ns key ++
    [ (isBusy (d.entryOf ns key), .recordBusy), (inState (d.entryOf ns key) .retired, .recordRetired),
      (isFrozen (d.entryOf ns key), .holdFrozen), (heldByOther (d.entryOf ns key) p, .holdConflict) ]

/-- The checks of FREEZE before those of the hold (R88). -/
def Device.freezeChecks (d : Device) (p : Port) (ns : Byte) (key : Key) : List (Bool × Result) :=
  d.markRequestChecks p ns key ++
    [(isBusy (d.entryOf ns key), .recordBusy), (inState (d.entryOf ns key) .retired, .recordRetired)]

section
variable (d : Device) (p : Port) (ns : Byte) (key : Key)

/-- The common checks, with the phases, the lock and the busy field written out as R71 words them. -/
theorem Device.restoreChecks_eq :
    d.restoreChecks p ns key
      = [ (decide (d.phase ≠ .ready) && decide (d.phase ≠ .worn), .notReady), (decide (d.phase = .worn), .worn),
          ((d.nsOf ns).isNone, .nsInvalid), (decide (d.rightOn p ns ≠ .full), .denied),
          (d.layout.pending, .layoutPending), ((d.nsOf ns).any fun n => d.locks[n], .nsLocked),
          ((d.entryOf ns key).isNone, .notFound),
          ((d.entryOf ns key).any fun e => decide (e.busy ≠ .none), .recordBusy) ] := by
  unfold Device.restoreChecks Device.markRequestChecks
  rw [Phase.notReady_eq]
  rfl

/-- RETIRE makes the common checks, and then those of the state and the hold. -/
theorem Device.retireChecks_eq_append :
    d.retireChecks p ns key
      = d.restoreChecks p ns key ++
          [ (inState (d.entryOf ns key) .retired, .recordRetired), (isFrozen (d.entryOf ns key), .holdFrozen),
            (heldByOther (d.entryOf ns key) p, .holdConflict) ] := by
  unfold Device.retireChecks Device.restoreChecks
  rw [List.append_assoc]
  rfl

/-- FREEZE makes the common checks, and then that of the state. -/
theorem Device.freezeChecks_eq_append :
    d.freezeChecks p ns key
      = d.restoreChecks p ns key ++ [(inState (d.entryOf ns key) .retired, .recordRetired)] := by
  unfold Device.freezeChecks Device.restoreChecks
  rw [List.append_assoc]
  rfl

variable (r : Request) (q : Port)

/-- The common checks read nothing that a take changes. -/
@[simp] theorem Device.takeIn_restoreChecks :
    (d.takeIn p r).restoreChecks q ns key = d.restoreChecks q ns key := by
  unfold Device.restoreChecks Device.markRequestChecks
  simp

/-- The checks of RETIRE read nothing that a take changes. -/
@[simp] theorem Device.takeIn_retireChecks :
    (d.takeIn p r).retireChecks q ns key = d.retireChecks q ns key := by
  simp [Device.retireChecks_eq_append]

/-- The checks of FREEZE read nothing that a take changes. -/
@[simp] theorem Device.takeIn_freezeChecks :
    (d.takeIn p r).freezeChecks q ns key = d.freezeChecks q ns key := by
  simp [Device.freezeChecks_eq_append]

end

/-! ### What each request does -/

section
variable {d : Device} {p : Port} {ns : Byte} {key : Key} {r : Result} {e : Entry}

/-- A RETIRE that fails a check does nothing but answer (R71). -/
theorem Device.workRetire_refused (h : firstFailure (d.retireChecks p ns key) = some r) (id : Nat) :
    d.workRetire p id ns key = d.complete id r [] := by
  unfold Device.retireChecks at h
  unfold Device.workRetire
  dsimp only
  rw [h]

/-- A RETIRE that passes its checks begins mark work on the entry (R71). -/
theorem Device.workRetire_passed (h : firstFailure (d.retireChecks p ns key) = none) (he : d.entryOf ns key = some e)
    (id : Nat) : d.workRetire p id ns key = d.beginMark id .retire e := by
  unfold Device.retireChecks at h
  unfold Device.workRetire
  dsimp only
  rw [h, he]

/-- A RESTORE that fails a check does nothing but answer (R73). -/
theorem Device.workRestore_refused (h : firstFailure (d.restoreChecks p ns key) = some r) (id : Nat) :
    d.workRestore p id ns key = d.complete id r [] := by
  unfold Device.restoreChecks at h
  unfold Device.workRestore
  dsimp only
  rw [h]

/-- A RESTORE that passes its checks answers OK for a LIVE entry, and begins mark work on another (R73). -/
theorem Device.workRestore_passed (h : firstFailure (d.restoreChecks p ns key) = none)
    (he : d.entryOf ns key = some e) (id : Nat) :
    d.workRestore p id ns key
      = if e.state = .live then d.complete id .ok (restoreLiveReply e) else d.beginMark id .restore e := by
  unfold Device.restoreChecks at h
  unfold Device.workRestore
  dsimp only
  rw [h, he]

/-- A FREEZE that fails a check before those of the hold does nothing but answer (R88). -/
theorem Device.workFreeze_refused (h : firstFailure (d.freezeChecks p ns key) = some r) (id : Nat) :
    d.workFreeze p id ns key = d.complete id r [] := by
  unfold Device.freezeChecks at h
  unfold Device.workFreeze
  dsimp only
  rw [h]

/-- A FREEZE that passes those checks goes by the entry's hold: it answers a FROZEN one and one held by the other port,
and begins mark work otherwise (R88). -/
theorem Device.workFreeze_passed (h : firstFailure (d.freezeChecks p ns key) = none)
    (he : d.entryOf ns key = some e) (id : Nat) :
    d.workFreeze p id ns key
      = if e.hold = .frozen then d.complete id .ok (markReply e)
        else if e.hold = .held p.other then d.complete id .holdConflict []
        else d.beginMark id .freeze e := by
  unfold Device.freezeChecks at h
  unfold Device.workFreeze
  dsimp only
  rw [h, he]

end

/-! ### In the step of the take -/

section
variable {s : State} {p : Port} {tag : Byte} {body : Req}

/-- A row whose work only answers its request takes and answers it in one step (R174, R175). -/
theorem State.takes_answered {r : Result} {reply : List Byte} (h : s.Takes p tag body)
    (w : Device → Port → Nat → Req → Device)
    (hw : w (s.takeIn p { tag := tag, body := body }) p s.newFlightId body
      = (s.takeIn p { tag := tag, body := body }).complete s.newFlightId r reply) :
    (Host.Outcome.next { s with toDevice := s.toDevice.takes body.kind w } : Host.Outcome State Fault Refusal)
      = .next (s.answers p tag body r reply) := by
  rw [State.takes_next h w, hw, Device.complete_takeIn]
  rfl

/-- A row whose work begins something that goes on leaves its request in flight (R174). -/
theorem State.takes_begun {f : Device → Nat → Device} (h : s.Takes p tag body)
    (w : Device → Port → Nat → Req → Device)
    (hw : w (s.takeIn p { tag := tag, body := body }) p s.newFlightId body
      = f (s.takeIn p { tag := tag, body := body }) s.newFlightId) :
    (Host.Outcome.next { s with toDevice := s.toDevice.takes body.kind w } : Host.Outcome State Fault Refusal)
      = .next (s.begins p tag body f) := by
  rw [State.takes_next h w, hw]
  rfl

end

section
variable {s : State} {p : Port} {tag ns : Byte} {key : Key} {r : Result} {e : Entry}

/-- A RETIRE that fails a check answers it, and the step does nothing else (R71). -/
theorem State.execRetire_refused (h : s.Takes p tag (.retire ns key))
    (hr : firstFailure (s.retireChecks p ns key) = some r) :
    exec .retire s = .next (s.answers p tag (.retire ns key) r []) :=
  State.takes_answered h Device.doRetire (Device.workRetire_refused (by simpa using hr) _)

/-- A RETIRE that passes its checks is in flight with mark work (R71). -/
theorem State.execRetire_passed (h : s.Takes p tag (.retire ns key))
    (pass : firstFailure (s.retireChecks p ns key) = none) (he : s.entryOf ns key = some e) :
    exec .retire s = .next (s.begins p tag (.retire ns key) fun d id => d.beginMark id .retire e) :=
  State.takes_begun h Device.doRetire (Device.workRetire_passed (by simpa using pass) (by simpa using he) _)

/-- A RESTORE that fails a check answers it, and the step does nothing else (R73). -/
theorem State.execRestore_refused (h : s.Takes p tag (.restore ns key))
    (hr : firstFailure (s.restoreChecks p ns key) = some r) :
    exec .restore s = .next (s.answers p tag (.restore ns key) r []) :=
  State.takes_answered h Device.doRestore (Device.workRestore_refused (by simpa using hr) _)

/-- A RESTORE of a LIVE record is answered OK, and nothing is programmed (R73). -/
theorem State.execRestore_live (h : s.Takes p tag (.restore ns key))
    (pass : firstFailure (s.restoreChecks p ns key) = none) (he : s.entryOf ns key = some e)
    (live : e.state = .live) :
    exec .restore s = .next (s.answers p tag (.restore ns key) .ok (restoreLiveReply e)) :=
  State.takes_answered h Device.doRestore
    ((Device.workRestore_passed (by simpa using pass) (by simpa using he) _).trans (if_pos live))

/-- A RESTORE of another record is in flight with mark work (R73). -/
theorem State.execRestore_passed (h : s.Takes p tag (.restore ns key))
    (pass : firstFailure (s.restoreChecks p ns key) = none) (he : s.entryOf ns key = some e)
    (live : e.state ≠ .live) :
    exec .restore s = .next (s.begins p tag (.restore ns key) fun d id => d.beginMark id .restore e) :=
  State.takes_begun h Device.doRestore
    ((Device.workRestore_passed (by simpa using pass) (by simpa using he) _).trans (if_neg live))

/-- A FREEZE that fails a check before those of the hold answers it, and the step does nothing else (R88). -/
theorem State.execFreeze_refused (h : s.Takes p tag (.freeze ns key))
    (hr : firstFailure (s.freezeChecks p ns key) = some r) :
    exec .freeze s = .next (s.answers p tag (.freeze ns key) r []) :=
  State.takes_answered h Device.doFreeze (Device.workFreeze_refused (by simpa using hr) _)

/-- A FREEZE of a FROZEN record is answered OK, and nothing is programmed (R88). -/
theorem State.execFreeze_frozen (h : s.Takes p tag (.freeze ns key))
    (pass : firstFailure (s.freezeChecks p ns key) = none) (he : s.entryOf ns key = some e)
    (frozen : e.hold = .frozen) :
    exec .freeze s = .next (s.answers p tag (.freeze ns key) .ok (markReply e)) :=
  State.takes_answered h Device.doFreeze
    ((Device.workFreeze_passed (by simpa using pass) (by simpa using he) _).trans (if_pos frozen))

/-- A FREEZE of a record that the other port holds is answered HOLD_CONFLICT (R88). -/
theorem State.execFreeze_held (h : s.Takes p tag (.freeze ns key))
    (pass : firstFailure (s.freezeChecks p ns key) = none) (he : s.entryOf ns key = some e)
    (held : e.hold = .held p.other) :
    exec .freeze s = .next (s.answers p tag (.freeze ns key) .holdConflict []) :=
  State.takes_answered h Device.doFreeze
    ((Device.workFreeze_passed (by simpa using pass) (by simpa using he) _).trans (by simp [held]))

/-- A FREEZE of any other record is in flight with mark work (R88). -/
theorem State.execFreeze_passed (h : s.Takes p tag (.freeze ns key))
    (pass : firstFailure (s.freezeChecks p ns key) = none) (he : s.entryOf ns key = some e)
    (frozen : e.hold ≠ .frozen) (held : e.hold ≠ .held p.other) :
    exec .freeze s = .next (s.begins p tag (.freeze ns key) fun d id => d.beginMark id .freeze e) :=
  State.takes_begun h Device.doFreeze
    ((Device.workFreeze_passed (by simpa using pass) (by simpa using he) _).trans
      ((if_neg frozen).trans (if_neg held)))

end

/-- Settles O28: the statement's common checks are those of RESTORE, the lists of RETIRE and FREEZE go on from them, and
each outcome is the one lemma that says it. -/
theorem markRequestsMakeTheirChecksInOrder : Obligations.MarkRequestsMakeTheirChecksInOrder := by
  unfold Obligations.MarkRequestsMakeTheirChecksInOrder
  intro s p tag ns key e? common
  have common_eq : common = s.restoreChecks p ns key := (s.restoreChecks_eq p ns key).symm
  refine ⟨?retire, ?restore, ?freeze⟩
  case retire =>
    intro h checks
    have checks_eq : checks = s.retireChecks p ns key := by
      rw [Device.retireChecks_eq_append, ← common_eq]
      rfl
    rw [checks_eq]
    exact ⟨fun r hr => State.execRetire_refused h hr, fun e pass he => State.execRetire_passed h pass he⟩
  case restore =>
    intro h
    rw [common_eq]
    exact ⟨fun r hr => State.execRestore_refused h hr,
      fun e pass he => ⟨State.execRestore_live h pass he, State.execRestore_passed h pass he⟩⟩
  case freeze =>
    intro h checks
    have checks_eq : checks = s.freezeChecks p ns key := by
      rw [Device.freezeChecks_eq_append, ← common_eq]
      rfl
    rw [checks_eq]
    exact ⟨fun r hr => State.execFreeze_refused h hr,
      fun e pass he => ⟨State.execFreeze_frozen h pass he, State.execFreeze_held h pass he,
        State.execFreeze_passed h pass he⟩⟩

end Sys2Proof.Machine

/-!
HOLD and RELEASE (R85, R86): the checks that each makes, as the rules word them, what each does with the hold of an
entry that passes, and the settling of O31.
-/

namespace Sys2Proof.Machine

/-! ### Checks -/

/-- The checks of HOLD (R85). -/
def Device.holdChecks (d : Device) (p : Port) (ns : Byte) (key : Key) : List (Bool × Result) :=
  d.claimChecks p ns ++
    [ ((d.entryOf ns key).isNone, .notFound), (inState (d.entryOf ns key) .reserved, .recordBusy),
      (inState (d.entryOf ns key) .retired || inState (d.entryOf ns key) .purging, .recordRetired),
      (isFrozen (d.entryOf ns key), .holdFrozen), (heldByOther (d.entryOf ns key) p, .holdConflict) ]

/-- The checks of RELEASE (R86). -/
def Device.releaseChecks (d : Device) (p : Port) (ns : Byte) (key : Key) : List (Bool × Result) :=
  d.claimChecks p ns ++
    [ ((d.entryOf ns key).isNone, .notFound), (isFrozen (d.entryOf ns key), .holdFrozen),
      (heldByOther (d.entryOf ns key) p, .holdConflict) ]

section
variable (d : Device) (p : Port) (ns : Byte) (key : Key)

/-- The first three checks of R85 and R91, with the phases written out. -/
theorem Device.claimChecks_eq :
    d.claimChecks p ns
      = [ (decide (d.phase ≠ .ready) && decide (d.phase ≠ .worn), .notReady), ((d.nsOf ns).isNone, .nsInvalid),
          (decide (d.rightOn p ns ≠ .full), .denied) ] := by
  unfold Device.claimChecks
  rw [Phase.notReady_eq]

variable (r : Request) (q : Port)

/-- The first three checks read nothing that a take changes. -/
@[simp] theorem Device.takeIn_claimChecks : (d.takeIn p r).claimChecks q ns = d.claimChecks q ns := by
  simp [Device.claimChecks_eq]

/-- The checks of HOLD read nothing that a take changes. -/
@[simp] theorem Device.takeIn_holdChecks : (d.takeIn p r).holdChecks q ns key = d.holdChecks q ns key := by
  simp [Device.holdChecks]

/-- The checks of RELEASE read nothing that a take changes. -/
@[simp] theorem Device.takeIn_releaseChecks :
    (d.takeIn p r).releaseChecks q ns key = d.releaseChecks q ns key := by
  simp [Device.releaseChecks]

end

/-! ### What each request does -/

section
variable {d : Device} {p : Port} {ns : Byte} {key : Key} {r : Result} {e : Entry}

/-- A HOLD that fails a check does nothing but answer (R85). -/
theorem Device.workHold_refused (h : firstFailure (d.holdChecks p ns key) = some r) (id : Nat) :
    d.workHold p id ns key = d.complete id r [] := by
  unfold Device.holdChecks at h
  unfold Device.workHold
  dsimp only
  rw [h]

/-- A HOLD that passes its checks makes the requester the holder of the entry, and answers OK with that hold (R85). -/
theorem Device.workHold_passed (h : firstFailure (d.holdChecks p ns key) = none) (he : d.entryOf ns key = some e)
    (id : Nat) :
    d.workHold p id ns key
      = (d.modEntry e.name fun x => { x with hold := .held p }).complete id .ok (holdReply (.held p)) := by
  unfold Device.holdChecks at h
  unfold Device.workHold
  dsimp only
  rw [h, he]

/-- A RELEASE that fails a check does nothing but answer (R86). -/
theorem Device.workRelease_refused (h : firstFailure (d.releaseChecks p ns key) = some r) (id : Nat) :
    d.workRelease p id ns key = d.complete id r [] := by
  unfold Device.releaseChecks at h
  unfold Device.workRelease
  dsimp only
  rw [h]

/-- A RELEASE that passes its checks leaves the entry without a hold, and answers OK with that (R86). -/
theorem Device.workRelease_passed (h : firstFailure (d.releaseChecks p ns key) = none)
    (he : d.entryOf ns key = some e) (id : Nat) :
    d.workRelease p id ns key
      = (d.modEntry e.name fun x => { x with hold := .none }).complete id .ok (holdReply .none) := by
  unfold Device.releaseChecks at h
  unfold Device.workRelease
  dsimp only
  rw [h, he]

end

/-! ### In the step of the take -/

/-- A row whose work changes an entry in place and answers its request takes, changes and answers in one step (R174,
R175). -/
theorem State.takes_answeredWith_modEntry {s : State} {p : Port} {tag : Byte} {body : Req} {r : Result}
    {reply : List Byte} {n : RecordName} {f : Entry → Entry} (h : s.Takes p tag body)
    (w : Device → Port → Nat → Req → Device)
    (hw : w (s.takeIn p { tag := tag, body := body }) p s.newFlightId body
      = ((s.takeIn p { tag := tag, body := body }).modEntry n f).complete s.newFlightId r reply) :
    (Host.Outcome.next { s with toDevice := s.toDevice.takes body.kind w } : Host.Outcome State Fault Refusal)
      = .next (s.answersWith p tag body r reply fun d => d.modEntry n f) := by
  rw [State.takes_next h w, hw, Device.complete_modEntry, Device.complete_takeIn]
  rfl

section
variable {s : State} {p : Port} {tag ns : Byte} {key : Key} {r : Result} {e : Entry}

/-- A HOLD that fails a check answers it, and the step does nothing else (R85). -/
theorem State.execHold_refused (h : s.Takes p tag (.hold ns key))
    (hr : firstFailure (s.holdChecks p ns key) = some r) :
    exec .hold s = .next (s.answers p tag (.hold ns key) r []) :=
  State.takes_answered h Device.doHold (Device.workHold_refused (by simpa using hr) _)

/-- A HOLD that passes its checks sets the hold in the step of its take (R85). -/
theorem State.execHold_passed (h : s.Takes p tag (.hold ns key))
    (pass : firstFailure (s.holdChecks p ns key) = none) (he : s.entryOf ns key = some e) :
    exec .hold s
      = .next (s.answersWith p tag (.hold ns key) .ok (holdReply (.held p)) fun d =>
          d.modEntry e.name fun x => { x with hold := .held p }) :=
  State.takes_answeredWith_modEntry h Device.doHold
    (Device.workHold_passed (by simpa using pass) (by simpa using he) _)

/-- A RELEASE that fails a check answers it, and the step does nothing else (R86). -/
theorem State.execRelease_refused (h : s.Takes p tag (.release ns key))
    (hr : firstFailure (s.releaseChecks p ns key) = some r) :
    exec .release s = .next (s.answers p tag (.release ns key) r []) :=
  State.takes_answered h Device.doRelease (Device.workRelease_refused (by simpa using hr) _)

/-- A RELEASE that passes its checks clears the hold in the step of its take (R86). -/
theorem State.execRelease_passed (h : s.Takes p tag (.release ns key))
    (pass : firstFailure (s.releaseChecks p ns key) = none) (he : s.entryOf ns key = some e) :
    exec .release s
      = .next (s.answersWith p tag (.release ns key) .ok (holdReply .none) fun d =>
          d.modEntry e.name fun x => { x with hold := .none }) :=
  State.takes_answeredWith_modEntry h Device.doRelease
    (Device.workRelease_passed (by simpa using pass) (by simpa using he) _)

end

/-- Settles O31: the statement's lists of checks are those of the model, and each outcome is the one lemma that says
it. -/
theorem holdAndReleaseActOnTheHold : Obligations.HoldAndReleaseActOnTheHold := by
  unfold Obligations.HoldAndReleaseActOnTheHold
  intro s p tag ns key e? common
  have common_eq : common = s.claimChecks p ns ++ [((s.entryOf ns key).isNone, .notFound)] := by
    rw [Device.claimChecks_eq]
    rfl
  refine ⟨?hold, ?release⟩
  case hold =>
    intro h checks
    have checks_eq : checks = s.holdChecks p ns key := by
      unfold checks Device.holdChecks
      rw [common_eq, List.append_assoc, inState_or]
      rfl
    rw [checks_eq]
    exact ⟨fun r hr => State.execHold_refused h hr, fun e pass he => State.execHold_passed h pass he⟩
  case release =>
    intro h checks
    have checks_eq : checks = s.releaseChecks p ns key := by
      unfold checks Device.releaseChecks
      rw [common_eq, List.append_assoc]
      rfl
    rw [checks_eq]
    exact ⟨fun r hr => State.execRelease_refused h hr, fun e pass he => State.execRelease_passed h pass he⟩

end Sys2Proof.Machine

/-!
DEFINE NAMESPACE (R165): what a request that passes the model's checks does, which rights the model takes, and the
refutation of O36. Check 4 of R165 turns away a right that is not NONE, READ or FULL. The model does not: the last line
of `Right.ofCode` means the `none` of `Option`, but within that definition the name is `Right.none`, so every further
code reads as the right NONE.
-/

namespace Sys2Proof.Machine

/-! ### Answers that come with a change of the layout store -/

/-- An answer and a change of the layout store do not meet. -/
theorem Device.complete_layout (d : Device) (l : LayoutStore) (id : Nat) (r : Result) (reply : List Byte) :
    ({ d with layout := l } : Device).complete id r reply = { d.complete id r reply with layout := l } := by
  unfold Device.complete Device.flight?
  dsimp only
  split
  · rfl
  · rename_i f _
    split
    · rfl
    · cases f.port <;> rfl

/-- An answer leaves the layout store as it is. -/
@[simp] theorem Device.answered_layout (d : Device) (p : Port) (r : Request) (res : Result) (reply : List Byte) :
    (d.answered p r res reply).layout = d.layout := by
  cases p <;> rfl

/-- The end of a step that has taken a request leaves the layout store as it is. -/
@[simp] theorem Device.takeEnd_layout (d after : Device) : (d.takeEnd after).layout = after.layout :=
  congrArg Face.layout (Device.takeEnd_quiet (e := d) (Device.Quiet.refl after)).face

/-- The checks of the requests of the Primary Port alone read nothing that a take changes. -/
@[simp] theorem Device.takeIn_primaryChecks (d : Device) (p : Port) (r : Request) (q : Port) :
    (d.takeIn p r).primaryChecks q = d.primaryChecks q := by
  simp [Device.primaryChecks]

/-- A row whose work changes the layout store and answers its request takes, changes and answers in one step (R174,
R175). -/
theorem State.takes_answeredWith_layout {s : State} {p : Port} {tag : Byte} {body : Req} {r : Result}
    {reply : List Byte} {l : LayoutStore} (h : s.Takes p tag body) (w : Device → Port → Nat → Req → Device)
    (hw : w (s.takeIn p { tag := tag, body := body }) p s.newFlightId body
      = ({ s.takeIn p { tag := tag, body := body } with layout := l } : Device).complete s.newFlightId r reply) :
    (Host.Outcome.next { s with toDevice := s.toDevice.takes body.kind w } : Host.Outcome State Fault Refusal)
      = .next (s.answersWith p tag body r reply fun d => { d with layout := l }) := by
  rw [State.takes_next h w, hw, Device.complete_layout, Device.complete_takeIn]
  rfl

/-! ### A DEFINE NAMESPACE that passes the model's checks -/

section
variable {p : Port} {ns enabled : Byte} {limit quota : BitVec 16} {mirrored early pr sr : Byte} {n : NsIndex}
  {x : NsDesc}

/-- A DEFINE NAMESPACE that passes the checks of the port, the phase and the pending layout, and whose fields the model
reads as a descriptor, puts that descriptor into the staged layout and answers OK. -/
theorem Device.workDefine_passed {d : Device}
    (pass : firstFailure (d.primaryChecks p ++ [(d.layout.pending, .layoutPending)]) = none) (hn : n.val = ns.toNat)
    (hx : descOf enabled limit quota mirrored early pr sr = some x) (id : Nat) :
    d.workDefine p id ns enabled limit quota mirrored early pr sr
      = ({ d with layout := { d.layout with staged := d.layout.staged.set n x } } : Device).complete id .ok
          (descReply x) := by
  have hns : ns.toNat < 8 := hn ▸ n.isLt
  obtain rfl : n = ⟨ns.toNat, hns⟩ := Fin.ext hn
  unfold Device.workDefine
  rw [pass, dif_pos hns, hx]
  rfl

/-- The same in the step of the take: the next state has the descriptor in its staged layout, and the completion is
OK. -/
theorem State.execDefineNamespace_passed {s : State} {tag : Byte}
    (h : s.Takes p tag (.defineNamespace ns enabled limit quota mirrored early pr sr))
    (pass : firstFailure (s.primaryChecks p ++ [(s.layout.pending, .layoutPending)]) = none) (hn : n.val = ns.toNat)
    (hx : descOf enabled limit quota mirrored early pr sr = some x) :
    exec .defineNamespace s
      = .next (s.answersWith p tag (.defineNamespace ns enabled limit quota mirrored early pr sr) .ok (descReply x)
          fun d => { d with layout := { s.layout with staged := s.layout.staged.set n x } }) :=
  State.takes_answeredWith_layout h Device.doDefine
    ((Device.workDefine_passed (by simpa using pass) hn hx _).trans (by rw [Device.takeIn_layout]))

end

/-! ### A right that is not NONE, READ or FULL -/

/-- The model reads every code above that of FULL as the right NONE. -/
theorem Right.ofCode_of_two_lt {v : Nat} (h : 2 < v) : Right.ofCode v = some Right.none := by
  obtain ⟨k, rfl⟩ := Nat.exists_eq_add_of_le' h
  rfl

/-- A DEFINE NAMESPACE of namespace 1 whose Service right has the code 3, which names no right (R181). -/
def unknownRightRequest : Req := .defineNamespace 1 1 16 32 0 0 2 3

/-- A part in READY with the default layout active and staged, and that request first in the Primary Port's queue. -/
def unknownRightState : State :=
  { State.reset with
    phase := .ready
    layout := { State.reset.layout with active := some Layout.default }
    engines := Vector.replicate 4 Engine.idle
    scan := { Scan.cleared with stage := .finished }
    primary := { PortState.cleared with requests := [{ tag := 7, body := unknownRightRequest }], tags := [7] } }

/-- The descriptor that the model reads from that request: its Service right is NONE. -/
def unknownRightDesc : NsDesc :=
  { enabled := true, mirrored := false, early := false, primaryRight := .full, serviceRight := .none,
    recordLimit := 16, quota := 32 }

/-- The request is taken next. -/
theorem unknownRightState_takes : unknownRightState.Takes .primary 7 unknownRightRequest := by
  unfold Device.Takes
  decide

/-- The model stages the descriptor and answers OK. -/
theorem execDefineNamespace_unknownRight :
    exec .defineNamespace unknownRightState
      = .next (unknownRightState.answersWith .primary 7 unknownRightRequest .ok (descReply unknownRightDesc) fun d =>
          { d with
            layout :=
              { unknownRightState.layout with
                staged := unknownRightState.layout.staged.set 1 unknownRightDesc } }) := by
  have unknown : Right.ofCode (3 : Byte).toNat = some Right.none := Right.ofCode_of_two_lt (by decide)
  refine State.execDefineNamespace_passed (n := 1) unknownRightState_takes (by decide) rfl ?_
  unfold descOf
  rw [unknown]
  rfl

/-- Refutes O36: the statement asks for BAD_PARAMETER and the staged layout as it was, and the model stages the
descriptor. -/
theorem not_defineNamespaceWritesTheStagedDescriptor :
    ¬ Obligations.DefineNamespaceWritesTheStagedDescriptor := by
  unfold Obligations.DefineNamespaceWritesTheStagedDescriptor
  intro holds
  obtain ⟨refused, -⟩ := holds unknownRightState .primary 7 1 1 16 32 0 0 2 3 unknownRightState_takes
  have answers : exec .defineNamespace unknownRightState
      = .next (unknownRightState.answers .primary 7 unknownRightRequest .badParameter []) := refused _ (by decide)
  rw [execDefineNamespace_unknownRight] at answers
  have staged_eq : unknownRightState.layout.staged.set 1 unknownRightDesc = unknownRightState.layout.staged := by
    simpa [State.answers, State.answersWith] using
      congrArg (fun s : State => s.layout.staged) (Host.Outcome.next.inj answers)
  exact absurd staged_eq (by decide)

end Sys2Proof.Machine

/-!
COMMIT LAYOUT (R166, R167): its checks as the rules word them, what a request that passes them begins, and the settling
of O37.
-/

namespace Sys2Proof.Machine

/-! ### Checks -/

/-- A layout breaks the early rules when a namespace other than 0 is early, or when namespace 0 is early and has too
large a quota (R166 check 5). -/
theorem Layout.not_earlyOk (l : Layout) :
    (!l.earlyOk)
      = (((l.toList.drop 1).any fun x => x.enabled && x.early)
          || (l[0].enabled && l[0].early && decide ((if l[0].mirrored then 126 else 63) < l[0].quota))) := by
  unfold Layout.earlyOk
  rw [Bool.not_and, List.not_all_eq_any_not, Bool.not_or, Bool.not_not, ← decide_not]
  simp only [Bool.not_not, Nat.not_le]

/-- A layout fails check 5 of R166 when a sum is too large or it breaks the early rules. -/
theorem Device.not_layoutFits (d : Device) (l : Layout) :
    (!d.layoutFits l)
      = (decide (1024 < l.total (·.recordLimit)) || decide (1792 < l.total (·.quota))
          || decide (d.goodTotal < l.total (·.quota) + 32) || !l.earlyOk) := by
  unfold Device.layoutFits Config.reserveBlocks
  simp only [Bool.not_and, ← decide_not, Nat.not_le]

/-- The checks of COMMIT LAYOUT, with the phases written out. -/
theorem Device.layoutChecks_eq (d : Device) (p : Port) :
    d.layoutChecks p
      = [ (decide (p = .service), .denied), (decide (d.phase ≠ .ready) && decide (d.phase ≠ .worn), .notReady),
          (decide (d.phase = .worn), .worn), (d.layout.pending, .layoutPending),
          (!d.dir.isEmpty || d.slots.toList.any fun x => x.ctx.isSome, .layoutNotEmpty),
          (!d.layoutFits d.layout.staged, .layoutInvalid),
          (decide (16 ≤ d.layout.nextPage), .layoutExhausted) ] := by
  unfold Device.layoutChecks Device.primaryChecks
  rw [Phase.notReady_eq]
  rfl

/-- Whether a layout fits reads nothing that a take changes. -/
@[simp] theorem Device.takeIn_layoutFits (d : Device) (p : Port) (r : Request) (l : Layout) :
    (d.takeIn p r).layoutFits l = d.layoutFits l := by
  simp [Device.layoutFits, Device.goodTotal]

/-- The checks read nothing that a take changes. -/
@[simp] theorem Device.takeIn_layoutChecks (d : Device) (p : Port) (r : Request) (q : Port) :
    (d.takeIn p r).layoutChecks q = d.layoutChecks q := by
  simp [Device.layoutChecks_eq]

/-! ### What the request does -/

section
variable {d : Device} {p : Port}

/-- A COMMIT LAYOUT that fails a check does nothing but answer (R166). -/
theorem Device.workCommitLayout_refused {r : Result} (h : firstFailure (d.layoutChecks p) = some r) (id : Nat) :
    d.workCommitLayout p id = d.complete id r [] := by
  unfold Device.workCommitLayout
  rw [h]

/-- A COMMIT LAYOUT that passes its checks starts on its pages (R167). -/
theorem Device.workCommitLayout_passed (h : firstFailure (d.layoutChecks p) = none) (id : Nat) :
    d.workCommitLayout p id = d.startLayout id := by
  unfold Device.workCommitLayout
  rw [h]

/-- A COMMIT LAYOUT that starts takes the next layout page, leaves a layout pending, and queues the staged layout for
bank 0 (R167). -/
theorem Device.startLayout_eq {l : LayoutStore} (h : d.layout = l) (id : Nat) :
    d.startLayout id
      = (({ d with layout := { l with pending := true, nextPage := l.nextPage + 1 } } : Device).setWork id
          (.layout (l.nextPage - 4) none)).queueJob 0
            (pageJob 0 (4 + (l.nextPage - 4)) (layoutPage (l.nextPage - 4) l.staged) (.layoutPage id)) := by
  subst h
  rfl

end

/-! ### In the step of the take -/

section
variable {s : State} {p : Port} {tag : Byte}

/-- A COMMIT LAYOUT that fails a check answers it, and the step does nothing else (R166). -/
theorem State.execCommitLayout_refused {r : Result} (h : s.Takes p tag .commitLayout)
    (hr : firstFailure (s.layoutChecks p) = some r) :
    exec .commitLayout s = .next (s.answers p tag .commitLayout r []) :=
  State.takes_answered h Device.doCommitLayout (Device.workCommitLayout_refused (by simpa using hr) _)

/-- A COMMIT LAYOUT that passes its checks is in flight with its first page queued (R167). -/
theorem State.execCommitLayout_passed (h : s.Takes p tag .commitLayout)
    (pass : firstFailure (s.layoutChecks p) = none) :
    let v := s.layout.nextPage - 4
    exec .commitLayout s = .next (s.begins p tag .commitLayout fun d id =>
      (({ d with layout := { s.layout with pending := true, nextPage := s.layout.nextPage + 1 } } : Device).setWork id
        (.layout v none)).queueJob 0 (pageJob 0 (4 + v) (layoutPage v s.layout.staged) (.layoutPage id))) :=
  State.takes_begun h Device.doCommitLayout
    ((Device.workCommitLayout_passed (by simpa using pass) _).trans
      (Device.startLayout_eq (Device.takeIn_layout ..) _))

end

/-- Settles O37: the statement's test of the staged layout is the negation of the model's, so its list of checks is the
model's, and each outcome is the one lemma that says it. -/
theorem commitLayoutMakesItsChecksInOrder : Obligations.CommitLayoutMakesItsChecksInOrder := by
  unfold Obligations.CommitLayoutMakesItsChecksInOrder
  intro s p tag h staged total earlyElsewhere earlyTooLarge invalid checks
  have invalid_eq : invalid = !s.layoutFits staged := by
    rw [Device.not_layoutFits, Layout.not_earlyOk, ← Bool.or_assoc]
    rfl
  have checks_eq : checks = s.layoutChecks p := by
    rw [Device.layoutChecks_eq, ← invalid_eq]
  rw [checks_eq]
  exact ⟨fun r hr => State.execCommitLayout_refused h hr, fun pass => State.execCommitLayout_passed h pass⟩

end Sys2Proof.Machine

/-!
The alert lines (R178): when a line is asserted, the ports of a part in warm reset, and the settling of O14.
-/

namespace Sys2Proof.Machine

/-! ### The condition -/

/-- A port's alert line is asserted just while its alert enable is on and a completion or a notice is there (R178). -/
theorem PortState.alert_iff (p : PortState) :
    p.alert = true ↔ p.alertEnable = true ∧ (p.completions ≠ [] ∨ p.notices ≠ .empty) := by
  unfold PortState.alert
  rw [Bool.and_eq_true, Bool.or_eq_true, Bool.not_eq_true', List.isEmpty_eq_false_iff, decide_eq_true_iff]

/-- A port as a start leaves it releases its alert line: both its sets are empty (R171, R178). -/
theorem PortState.cleared_alert : PortState.cleared.alert = false := by
  rw [Bool.eq_false_iff, Ne, PortState.alert_iff]
  rintro ⟨-, completion | notice⟩
  · exact completion rfl
  · exact notice rfl

/-! ### The ports in a warm reset -/

/-- A job that is handed over leaves the ports as they are. -/
@[simp] theorem Device.queueJob_port (d : Device) (b : Bank) (j : Job) (p : Port) :
    (d.queueJob b j).port p = d.port p := by
  cases p <;> rfl

/-- The scanner's next job of a bank leaves the ports as they are. -/
@[simp] theorem Device.scanPumpBank_port (d : Device) (b : Bank) (p : Port) :
    (d.scanPumpBank b).port p = d.port p := by
  unfold Device.scanPumpBank
  split
  · rfl
  · split
    · rfl
    · rw [Device.queueJob_port]
      cases p <;> rfl

/-- What the scanner hands over leaves the ports as they are. -/
@[simp] theorem Device.scanPump_port (d : Device) (p : Port) : d.scanPump.port p = d.port p := by
  unfold Device.scanPump
  exact List.foldlRecOn (motive := fun x => x.port p = d.port p) allBanks Device.scanPumpBank rfl
    fun x kept b _ => (x.scanPumpBank_port b p).trans kept

/-- The ports of a part that enters STARTING are cleared (R150, R171). -/
@[simp] theorem Device.enterStarting_port (d : Device) (p : Port) : d.enterStarting.port p = .cleared := by
  unfold Device.enterStarting
  rw [Device.scanPump_port]
  cases p <;> rfl

/-- A cleared port stays cleared, whether the reset is over or the Bank Engines still drain. -/
theorem Device.tryStart_port_cleared {d : Device} {p : Port} (h : d.port p = .cleared) :
    d.tryStart.port p = .cleared := by
  unfold Device.tryStart
  split
  · exact d.enterStarting_port p
  · exact h

/-- The ports are cleared in the step a warm reset begins (R128, R150). -/
@[simp] theorem Device.beginReset_port (d : Device) (p : Port) : d.beginReset.port p = .cleared := by
  unfold Device.beginReset
  exact Device.tryStart_port_cleared (by cases p <;> rfl)

/-- Settles O14: the first clause is the condition of the line, and a port that a warm reset has cleared does not meet
it. -/
theorem alertLineFollowsItsConditions : Obligations.AlertLineFollowsItsConditions := by
  unfold Obligations.AlertLineFollowsItsConditions
  refine ⟨fun d p => (d.port p).alert_iff, fun d p => ?_⟩
  rw [Device.beginReset_port]
  exact PortState.cleared_alert

end Sys2Proof.Machine

/-!
One step of the part: the state that every command answers, what a step can do to the array, and the settling of O1, O2,
O3, O4, O5 and O57.
-/

namespace Sys2Proof.Machine

/-! ### The state a command answers -/

/-- How the state after a command comes from the one before it: a new device and perhaps new free values, what a job in
progress leaves in the array, in a run or in a drain, or what a loss of power leaves there. -/
inductive State.Goes (s : State) (c : Instr) : State → Prop
  | device (d : Device) (fresh : Nat) : State.Goes s c { s with toDevice := d, fresh := fresh }
  | worked (b : Bank) (j : Job) (o : OkFail) (d : Device) (hw : s.Working b j) :
      State.Goes s c { s.jobWorked b j o with toDevice := d }
  | drained (b : Bank) (j : Job) (o : OkFail) (d : Device) (hp : s.power = .draining)
      (hj : s.engines[b].current = some j) : State.Goes s c { s.drainWorked b j o with toDevice := d }
  | cut (d : Device) (hc : c = .powerLoss) : State.Goes s c { s.cutJobs with toDevice := d }

/-- A bank's job counts only while the part runs. -/
theorem State.jobIn_eq_some {s : State} {b : Bank} {j : Job} : s.jobIn b = some j ↔ s.Working b j := by
  unfold State.jobIn State.Working
  split <;> simp_all

section
variable {s : State} {c : Instr}

/-- A command that changes nothing. -/
theorem State.Goes.same : s.Goes c s := .device s.toDevice s.fresh

/-- A program or erase that completes works its job, when it is the row's own. -/
theorem State.Goes.programDone (b : Bank) (o : OkFail) (work : Device → Job → Option Device) :
    s.Goes c (s.programDone b o work) := by
  unfold State.programDone
  split
  · exact .same
  · rename_i j hj
    split
    · exact .same
    · exact .worked b j o _ (State.jobIn_eq_some.1 hj)

/-- A page read that completes changes the device and the free values. -/
theorem State.Goes.readDone (b : Bank) (work : Device → Job → List Byte → Option Device) :
    s.Goes c (s.readDone b work) := by
  unfold State.readDone
  split
  · exact .same
  · split
    · exact .same
    · exact .device _ _

/-- An erase verify that completes works its job, when it is the row's own. -/
theorem State.Goes.verifyDone (b : Bank) (o : OkFail) (work : Device → Job → Bool → Option Device) :
    s.Goes c (s.verifyDone b o work) := by
  unfold State.verifyDone
  split
  · exact .same
  · rename_i j hj
    split
    · exact .same
    · exact .worked b j o _ (State.jobIn_eq_some.1 hj)

/-- A command that changes the device, when a test holds. -/
theorem State.Goes.ite {q : Prop} [Decidable q] {t : State} (h : s.Goes c t) : s.Goes c (if q then t else s) := by
  split
  · exact h
  · exact .same

end

/-- Every command answers a next state, in one of these ways. -/
theorem exec_goes (c : Instr) (s : State) : ∃ t, exec c s = .next t ∧ s.Goes c t := by
  cases c with
  | submit | portReset | idleTimerExpiry => exact ⟨_, rfl, .ite (.device _ _)⟩
  | collect p t | status p t => exact ⟨_, rfl, .ite (by cases t <;> exact .device _ _)⟩
  | find | list | read | check | openUpdate | putChunk | commit | abandon | retire | restore | purge | hold | release
  | freeze | lockNamespace | configure | maintain | health | identify | defineNamespace | commitLayout | reset
  | coldStart => exact ⟨_, rfl, .device _ _⟩
  | resetNAsserted =>
    refine ⟨_, rfl, ?_⟩
    split
    · exact .same
    · exact .device _ _
  | resetNReleased => exact ⟨_, rfl, .ite (.device _ _)⟩
  | powerLoss =>
    refine ⟨_, rfl, ?_⟩
    split
    · exact .same
    · exact .cut _ rfl
  | drainJobDone b o =>
    refine ⟨_, rfl, ?_⟩
    split
    · exact .same
    · rename_i j hj
      split
      · rename_i hp
        exact .drained b j o _ hp hj
      · exact .same
  | putProgramDone | commitRecordDone | mirrorCommitRecordDone | commitCopyProgramDone | markProgramDone
  | mirrorMarkProgramDone | markRelocationProgramDone | markRelocationCommitDone | relocationProgramDone
  | relocationCommitDone | relocationMirrorCommitDone | scrubEraseDone | wearStampDone | purgeMarkDone | purgeEraseDone
  | purgeOverwriteDone | grownBadEntryDone | layoutPageProgramDone | markRelocationMirrorCommitDone =>
    exact ⟨_, rfl, .programDone _ _ _⟩
  | commitCopyReadDone | markRelocationReadDone | relocationReadDone | readPageDone | checkPageDone | scanReadDone =>
    exact ⟨_, rfl, .readDone _ _⟩
  | purgeVerifyDone | scanVerifyDone => exact ⟨_, rfl, .verifyDone _ _ _⟩

/-- What a command answers comes from the state in one of these ways. -/
theorem exec_next_goes {c : Instr} {s t : State} (h : exec c s = .next t) : s.Goes c t := by
  obtain ⟨t', ht, hg⟩ := exec_goes c s
  rw [h] at ht
  cases ht
  exact hg

/-- A step runs the command at the front of the queue on the queue's rest, and idles on an empty one. -/
theorem step_cases {s t : State} (h : step s = .next t) :
    t = s ∨ ∃ c rest, exec c (s.withPending rest) = .next t := by
  unfold step at h
  split at h
  · cases h
    exact .inl rfl
  · rename_i c rest _
    exact .inr ⟨c, rest, h⟩

/-! ### The queue of waiting commands -/

/-- What a drained job leaves touches no waiting command. -/
@[simp] theorem State.drainWorked_pending (s : State) (b : Bank) (j : Job) (o : OkFail) :
    (s.drainWorked b j o).pending = s.pending := by
  obtain ⟨torn, h⟩ := s.drainWorked_eq b j o
  simp [h]

/-- What a job cut short leaves touches no waiting command. -/
@[simp] theorem State.jobCut_pending (s : State) (b : Bank) (j : Job) : (s.jobCut b j).pending = s.pending := by
  unfold State.jobCut
  dsimp only
  repeat' split
  all_goals simp

/-- A loss of power touches no waiting command. -/
@[simp] theorem State.cutJobs_pending (s : State) : s.cutJobs.pending = s.pending := by
  unfold State.cutJobs
  induction allBanks generalizing s with
  | nil => rfl
  | cons b bs ih =>
    rw [List.foldl_cons, ih]
    split
    · rfl
    · exact State.jobCut_pending _ _ _

/-- No command touches the queue of those that wait. -/
theorem State.Goes.pending {s t : State} {c : Instr} (h : s.Goes c t) : t.pending = s.pending := by
  cases h with
  | device => rfl
  | worked => simp
  | drained => simp
  | cut => simp

/-- Settles O1: both sides are the same run. -/
theorem stepRunsTheFrontCommand : Obligations.StepRunsTheFrontCommand := by
  unfold Obligations.StepRunsTheFrontCommand
  intro c rest s
  rfl

/-- Settles O2: every command goes on in one of the ways of `State.Goes`, and none of them touches the queue. -/
theorem everyStepGoesOn : Obligations.EveryStepGoesOn := by
  unfold Obligations.EveryStepGoesOn
  refine ⟨fun c s => ?_, fun s h => ?_⟩
  · obtain ⟨t, ht, hg⟩ := exec_goes c s
    exact ⟨t, ht, hg.pending⟩
  · unfold step
    rw [h]

/-! ### The reset state -/

/-- Settles O3: the reset state is written out, so each part is read off it; the last one runs the entry into
STARTING. -/
theorem resetIsAColdStart : Obligations.ResetIsAColdStart := by
  unfold Obligations.ResetIsAColdStart
  refine ⟨rfl, rfl, rfl, rfl, rfl, by decide, by decide, by decide, fun p => by cases p <;> rfl, rfl, rfl, rfl, rfl, rfl,
    rfl, rfl, rfl, rfl, by decide, by decide, by decide, rfl, rfl, rfl, rfl, rfl, rfl, rfl, rfl, rfl, rfl, by
      decide +kernel⟩

/-- Settles O4: nothing is listed, taken or in the directory at reset. -/
theorem resetIsSound : Obligations.ResetIsSound := by
  unfold Obligations.ResetIsSound
  have clear : ∀ p : Port, State.reset.PortWithin p := fun p => by
    unfold Device.PortWithin
    cases p <;> decide
  exact
    { array := State.reset_canonical
      primary := clear .primary
      service := clear .service
      flights := by unfold Device.FlightsNamed; decide
      dir := List.Pairwise.nil
      bounds := ⟨Nat.zero_le _, fun _ => Nat.zero_le _⟩
      table := List.Pairwise.nil }

/-! ### The array -/

/-- No command takes the array out of its canonical form. -/
theorem State.Goes.canonical {s t : State} {c : Instr} (h : s.Goes c t) (hs : s.ArrayCanonical) :
    t.ArrayCanonical := by
  cases h with
  | device => exact hs
  | worked b j o => exact State.jobWorked_canonical b j o hs
  | drained b j o => exact State.drainWorked_canonical b j o hs
  | cut =>
    unfold State.ArrayCanonical
    rw [State.cutJobs_cells]
    exact hs

/-- Settles O5: of the ways of `State.Goes`, each keeps the canonical form. -/
theorem everyStepKeepsTheArrayCanonical : Obligations.EveryStepKeepsTheArrayCanonical := by
  unfold Obligations.EveryStepKeepsTheArrayCanonical
  intro s t hs h
  obtain rfl | ⟨c, rest, hc⟩ := step_cases h
  · exact hs
  · exact (exec_next_goes hc).canonical hs

/-- Settles O57: the four ways of `State.Goes` are the three of the statement, the working of a job standing for two. -/
theorem onlyJobsChangeTheArray : Obligations.OnlyJobsChangeTheArray := by
  unfold Obligations.OnlyJobsChangeTheArray
  intro array c s t h
  cases exec_next_goes h with
  | device => exact .inl rfl
  | worked b j o d hw => exact .inr (.inl ⟨b, j, o, hw.2, .inl ⟨hw.1, rfl⟩⟩)
  | drained b j o d hp hj => exact .inr (.inl ⟨b, j, o, hj, .inr ⟨hp, rfl⟩⟩)
  | cut d hc => exact .inr (.inr ⟨hc, rfl, State.cutJobs_cells s⟩)

end Sys2Proof.Machine

/-!
What every step keeps: the ports within their depths, the requests in flight told apart, and the directory and the Block
State Table in order and within bounds. One relation (`Device.Keeps`) says it of two devices, every command is shown to
stand in it, and O6, O7 and O8 are settled.
-/

namespace Sys2Proof.Machine

/-! ### The relation -/

/-- What one device may become so that the invariants of O6 and O7 go on to hold. -/
structure Device.Keeps (d d' : Device) : Prop where
  ports   : d.PortWithin .primary → d.PortWithin .service → d'.PortWithin .primary ∧ d'.PortWithin .service
  flights : d.FlightsNamed → d'.FlightsNamed
  tables  : d.DirOrdered → d.TableOrdered → d'.DirOrdered ∧ d'.TableOrdered
  bounded : d.DirBounded → d'.DirBounded

section
variable {d₀ d d' : Device}

/-- Nothing done keeps all. -/
theorem Device.Keeps.refl (d : Device) : d.Keeps d := ⟨And.intro, id, And.intro, id⟩

/-- One change after another. -/
theorem Device.Keeps.trans (h : d₀.Keeps d) (h' : d.Keeps d') : d₀.Keeps d' where
  ports p s := (h.ports p s).elim h'.ports
  flights o := h'.flights (h.flights o)
  tables o t := (h.tables o t).elim h'.tables
  bounded o := h'.bounded (h.bounded o)

/-- A quiet change keeps each port within its depths. -/
theorem Device.Quiet.portWithin (h : d.Quiet d') {p : Port} (hp : d.PortWithin p) : d'.PortWithin p := by
  have same : (d'.port p).requests = (d.port p).requests ∧ (d'.port p).tags = (d.port p).tags := by
    have face := h.face
    simp only [Device.face, PortState.face, Face.mk.injEq, PortFace.mk.injEq] at face
    obtain ⟨-, -, -, -, ⟨reqP, tagP, -⟩, ⟨reqS, tagS, -⟩, -⟩ := face
    cases p
    · exact ⟨reqP, tagP⟩
    · exact ⟨reqS, tagS⟩
  obtain ⟨reqs, load, tags⟩ := hp
  refine ⟨?_, (h.load p).trans load, ?_⟩
  · rw [same.1]; exact reqs
  · rw [same.2]; exact tags

/-- A quiet change keeps all. -/
theorem Device.Quiet.keeps (h : d.Quiet d') : d.Keeps d' where
  ports p s := ⟨h.portWithin p, h.portWithin s⟩
  flights := h.named
  tables o t := ⟨h.dir o, h.table t⟩
  bounded := h.bounded

/-- A change of what the invariants do not speak of. -/
theorem Device.Keeps.of_same (hp : ∀ p, (d'.port p).requests = (d.port p).requests)
    (hc : ∀ p, (d'.port p).completions = (d.port p).completions) (ht : ∀ p, (d'.port p).tags = (d.port p).tags)
    (hf : d'.flights = d.flights) (hd : d'.dir.map (·.name) = d.dir.map (·.name))
    (hl : d'.layout.active = d.layout.active)
    (hb : (d'.pool.table.map fun l => l.addr.num) = d.pool.table.map fun l => l.addr.num) : d.Keeps d' := by
  have within (p : Port) (h : d.PortWithin p) : d'.PortWithin p := by
    unfold Device.PortWithin Device.load Device.reserved at *
    rw [hp, hc, ht, hf]
    exact h
  have names (x : Device) : (x.dir.map fun e => e.name.num) = (x.dir.map (·.name)).map RecordName.num := by
    rw [List.map_map]; rfl
  have counts (x : Device) (n : NsIndex) :
      x.recordCount n = (x.dir.map (·.name)).countP fun r => decide (r.ns = n) := by
    unfold Device.recordCount
    rw [List.countP_map]; rfl
  refine ⟨fun p s => ⟨within _ p, within _ s⟩, fun h => ?_, fun o t => ⟨?_, ?_⟩, fun ⟨len, room⟩ => ⟨?_, fun n => ?_⟩⟩
  · unfold Device.FlightsNamed
    rw [hf]
    exact h
  · unfold Device.DirOrdered at *
    rw [names, hd, ← names]
    exact o
  · unfold Device.TableOrdered
    rw [hb]
    exact t
  · have long : (d'.dir.map (·.name)).length = (d.dir.map (·.name)).length := by rw [hd]
    rw [List.length_map, List.length_map] at long
    rw [long]
    exact len
  · have := room n
    unfold Device.desc at *
    rw [counts, hd, ← counts, hl]
    exact this

/-- One kept change after another along a list. -/
theorem Device.Keeps.foldl {α : Type} {f : Device → α → Device} (hf : ∀ (d : Device) x, d.Keeps (f d x)) (xs : List α) (d : Device) :
    d.Keeps (xs.foldl f d) := by
  induction xs generalizing d with
  | nil => exact .refl d
  | cons x xs ih => exact (hf d x).trans (ih _)

/-- A change of other parts than the ports, the flights, the directory, the active layout and the table. -/
theorem Device.Keeps.outside (hp : d'.primary = d.primary) (hs : d'.service = d.service) (hf : d'.flights = d.flights)
    (hd : d'.dir = d.dir) (hl : d'.layout.active = d.layout.active) (hb : d'.pool.table = d.pool.table) : d.Keeps d' := by
  have port : ∀ p, d'.port p = d.port p := fun p => by
    cases p
    · exact hp
    · exact hs
  exact .of_same (fun p => by rw [port]) (fun p => by rw [port]) (fun p => by rw [port]) hf (by rw [hd]) hl (by rw [hb])

end

/-! ### Devices with nothing in them -/

/-- A device with both ports cleared, nothing in flight, no entry and no line. -/
def Device.Bare (d : Device) : Prop :=
  d.primary = .cleared ∧ d.service = .cleared ∧ d.flights = [] ∧ d.dir = [] ∧ d.pool.table = []

/-- A device with nothing in it meets the invariants, wherever it comes from. -/
theorem Device.Bare.keeps {d' : Device} (h : d'.Bare) (d : Device) : d.Keeps d' := by
  obtain ⟨hp, hs, hf, hd, ht⟩ := h
  have within (p : Port) : d'.PortWithin p := by
    unfold Device.PortWithin Device.load Device.reserved
    cases p <;> simp only [Device.port, hp, hs, hf] <;> decide
  refine ⟨fun _ _ => ⟨within _, within _⟩, fun _ => ?_, fun _ _ => ⟨?_, ?_⟩, fun _ => ⟨?_, fun n => ?_⟩⟩
  · unfold Device.FlightsNamed; rw [hf]; exact List.Pairwise.nil
  · unfold Device.DirOrdered; rw [hd]; exact List.Pairwise.nil
  · unfold Device.TableOrdered; rw [ht]; exact List.Pairwise.nil
  · rw [hd]; exact Nat.zero_le _
  · unfold Device.recordCount; rw [hd]; exact Nat.zero_le _

/-! ### Power and resets -/

/-- The handing over of the scanner's jobs keeps all. -/
theorem Device.scanPump_keeps (d : Device) : d.Keeps d.scanPump := by
  refine .foldl (fun d b => ?_) allBanks d
  unfold Device.scanPumpBank
  repeat' split
  · exact .refl d
  · exact .refl d
  · exact .outside rfl rfl rfl rfl rfl rfl

/-- The entry into STARTING leaves nothing. -/
theorem Device.enterStarting_keeps (d d' : Device) : d.Keeps d'.enterStarting := by
  refine (Device.Bare.keeps ?_ d).trans (Device.scanPump_keeps _)
  exact ⟨rfl, rfl, rfl, rfl, rfl⟩

/-- A reset that may be over leaves nothing, or what there was. -/
theorem Device.tryStart_keeps (d : Device) : d.Keeps d.tryStart := by
  unfold Device.tryStart
  split
  · exact d.enterStarting_keeps d
  · exact .refl d

/-- The start of a warm reset leaves nothing. -/
theorem Device.beginReset_keeps (d d' : Device) : d.Keeps d'.beginReset :=
  (Device.Bare.keeps ⟨rfl, rfl, rfl, rfl, rfl⟩ d).trans (Device.tryStart_keeps _)

/-- RESET_N driven low keeps all (R150). -/
theorem Device.assertReset_keeps (d : Device) : d.Keeps d.assertReset := by
  unfold Device.assertReset
  cases d.power
  · exact .outside rfl rfl rfl rfl rfl rfl
  · exact .outside rfl rfl rfl rfl rfl rfl
  · exact Device.beginReset_keeps _ _

/-- RESET_N released keeps all (R150). -/
theorem Device.releaseReset_keeps (d : Device) : d.Keeps d.releaseReset := by
  refine .trans ?_ (Device.tryStart_keeps _)
  exact .outside rfl rfl rfl rfl rfl rfl

/-- A cold start keeps all (R150). -/
theorem Device.coldStart_keeps (d : Device) : d.Keeps d.coldStart := by
  unfold Device.coldStart
  split
  · refine .trans ?_ (Device.tryStart_keeps _)
    exact .outside rfl rfl rfl rfl rfl rfl
  · exact .refl _
  · exact .refl _

/-- A drained job leaves nothing, or what there was (R128). -/
theorem Device.drained_keeps (d : Device) (b : Bank) : d.Keeps (d.drained b) := by
  refine .trans ?_ (Device.tryStart_keeps _)
  exact .outside rfl rfl rfl rfl rfl rfl

/-! ### Frames -/

/-- A change of one port that keeps it within its depths. -/
theorem Device.setPort_keeps {d : Device} {p : Port} {x : PortState}
    (hr : (d.port p).requests.length ≤ p.depth → x.requests.length ≤ p.depth)
    (hl : x.completions.length ≤ (d.port p).completions.length) (ht : (d.port p).tags.Nodup → x.tags.Nodup) :
    d.Keeps (d.setPort p x) := by
  have within (q : Port) (h : d.PortWithin q) : (d.setPort p x).PortWithin q := by
    obtain ⟨reqs, load, tags⟩ := h
    have slots : (d.setPort p x).reserved q = d.reserved q := by
      unfold Device.reserved
      rw [Device.setPort_flights]
    unfold Device.PortWithin Device.load at *
    rw [slots, Device.setPort_port]
    split
    · rename_i e
      subst e
      exact ⟨hr reqs, by omega, ht tags⟩
    · exact ⟨reqs, load, tags⟩
  refine ⟨fun a b => ⟨within _ a, within _ b⟩, fun h => ?_, fun o t => ⟨?_, ?_⟩, fun h => ?_⟩
  all_goals
    simp only [Device.FlightsNamed, Device.DirOrdered, Device.TableOrdered, Device.DirBounded, Device.recordCount,
      Device.desc, Device.setPort_flights, Device.setPort_dir, Device.setPort_pool, Device.setPort_layout]
    assumption

/-- SUBMIT keeps the port within its depths: only a request that finds room, with a tag not in use, is accepted
(R172). -/
theorem Device.submitted_keeps (d : Device) (p : Port) (frame : List Byte) : d.Keeps (d.submitted p frame) := by
  unfold Device.submitted
  dsimp only
  split
  · rename_i r accepted parsed
    have room : r.tag ∉ (d.port p).tags ∧ (d.port p).requests.length < p.depth := by
      unfold Device.submitResult at accepted
      rw [parsed] at accepted
      dsimp only at accepted
      split at accepted
      · cases accepted
      · split at accepted
        · cases accepted
        · simp_all
    refine Device.setPort_keeps (fun _ => ?_) (le_refl _) fun h => List.nodup_cons.2 ⟨room.1, h⟩
    simpa using room.2
  · exact Device.setPort_keeps id (le_refl _) id

/-- The end of a COLLECT response keeps all (R176). -/
theorem Device.collectCompletes_keeps (d : Device) (p : Port) : d.Keeps (d.collectCompletes p) := by
  unfold Device.collectCompletes
  dsimp only
  split
  · exact Device.setPort_keeps id (by simp) fun h => h.filter _
  · exact Device.setPort_keeps id (le_refl _) id
  · exact .refl d
  · exact .refl d

/-- The end of a STATUS response keeps all (R177). -/
theorem Device.statusCompletes_keeps (d : Device) (p : Port) : d.Keeps (d.statusCompletes p) := by
  unfold Device.statusCompletes
  dsimp only
  split
  · exact Device.setPort_keeps id (le_refl _) id
  · exact .refl d
  · exact .refl d

/-- Requests marked for discard hold no slot and keep their names (R179). -/
theorem Device.discard_keeps (d : Device) (p : Port) :
    d.Keeps { d with flights := d.flights.map fun f => if f.port = p then { f with discard := true } else f } := by
  have slots (q : Port) :
      Device.reserved { d with flights := d.flights.map fun f => if f.port = p then { f with discard := true } else f } q
        ≤ d.reserved q := by
    unfold Device.reserved
    rw [List.countP_map]
    refine List.countP_mono_left fun f _ => ?_
    dsimp only [Function.comp]
    split <;> simp
  have within (q : Port) (h : d.PortWithin q) :
      Device.PortWithin { d with flights := d.flights.map fun f => if f.port = p then { f with discard := true } else f }
        q := by
    obtain ⟨reqs, load, tags⟩ := h
    have := slots q
    unfold Device.load at load
    refine ⟨by cases q <;> exact reqs, ?_, by cases q <;> exact tags⟩
    unfold Device.load
    cases q <;> exact le_trans (Nat.add_le_add_left this _) load
  refine ⟨fun a b => ⟨within _ a, within _ b⟩, fun h => ?_, fun o t => ⟨o, t⟩, id⟩
  have ids : (d.flights.map fun f => if f.port = p then { f with discard := true } else f).map (·.id)
      = d.flights.map (·.id) := by
    rw [List.map_map]
    refine List.map_congr_left fun f _ => ?_
    dsimp only [Function.comp]
    split <;> rfl
  unfold Device.FlightsNamed
  rw [ids]
  exact h

/-- The abandonment of the OPEN contexts of a port is quiet (R46). -/
theorem Device.abandonOwned_quiet {d₀ d : Device} (p : Port) (h : d₀.Quiet d) : d₀.Quiet (d.abandonOwned p) := by
  refine Device.Quiet.foldl (fun d i h => ?_) _ h
  split
  · exact h
  · split
    · exact Device.beginAbandon_quiet h
    · exact h

/-- The release of a port's holds keeps the names of the entries (R94). -/
theorem Device.releaseHolds_keeps (d : Device) (p : Port) : d.Keeps (d.releaseHolds p) := by
  refine .of_same (fun q => by cases q <;> rfl) (fun q => by cases q <;> rfl) (fun q => by cases q <;> rfl) rfl ?_ rfl rfl
  unfold Device.releaseHolds
  dsimp only
  rw [List.map_map]
  refine List.map_congr_left fun e _ => ?_
  dsimp only [Function.comp]
  split <;> rfl

/-- PORT RESET keeps all (R179). -/
theorem Device.portCleared_keeps (d : Device) (p : Port) : d.Keeps (d.portCleared p) := by
  unfold Device.portCleared
  have cleared : d.Keeps (d.setPort p { PortState.cleared with alertEnable := (d.port p).alertEnable }) :=
    Device.setPort_keeps (fun _ => Nat.zero_le _) (Nat.zero_le _) fun _ => List.Pairwise.nil
  exact ((cleared.trans (Device.discard_keeps _ p)).trans
    (Device.abandonOwned_quiet p (.refl _)).keeps).trans (Device.releaseHolds_keeps _ p)

/-! ### Takes -/

/-- The port the next request is taken from can be taken from (R174). -/
theorem Device.nextPort_canTake {d : Device} {p : Port} (h : d.nextPort = some p) : d.canTake p = true := by
  unfold Device.nextPort at h
  split at h
  · rename_i hp hs
    cases h
    cases d.turn
    · exact hp
    · exact hs
  · rename_i hp _
    cases h
    exact hp
  · rename_i hs
    cases h
    exact hs
  · cases h

/-- What is taken next is the oldest request of a port that can be taken from, while the part runs (R174). -/
theorem Device.nextTake_eq_some {d : Device} {p : Port} {r : Request} :
    d.nextTake = some (p, r) ↔ d.power = .running ∧ d.nextPort = some p ∧ (d.port p).requests.head? = some r := by
  unfold Device.nextTake
  split
  · rename_i on
    cases hn : d.nextPort with
    | none => simp
    | some q =>
      simp only [Option.map_eq_some_iff, Prod.mk.injEq, Option.some.injEq, on, true_and]
      exact ⟨fun ⟨_, hr, hq, e⟩ => ⟨hq, by rw [← hq, ← e]; exact hr⟩, fun ⟨hq, hr⟩ => ⟨r, by rw [hq]; exact hr, hq, rfl⟩⟩
  · rename_i off
    simp [off]

/-- A take finds a completion slot, and gives the request a name that no other has (R174). -/
theorem Device.takeIn_keeps {d : Device} {p : Port} {r : Request} (h : d.nextTake = some (p, r)) :
    d.Keeps (d.takeIn p r) := by
  have room : d.load p < p.depth := by
    have can := Device.nextPort_canTake (Device.nextTake_eq_some.1 h).2.1
    unfold Device.canTake at can
    simp only [Bool.and_eq_true, decide_eq_true_eq] at can
    exact can.2
  have slots (q : Port) : (d.takeIn p r).reserved q = d.reserved q + if q = p then 1 else 0 := by
    unfold Device.reserved Device.takeIn
    dsimp only
    rw [List.countP_append, List.countP_singleton]
    cases p <;> cases q <;> rfl
  have port (q : Port) :
      (d.takeIn p r).port q = if q = p then { d.port p with requests := (d.port p).requests.tail } else d.port q := by
    cases p <;> cases q <;> rfl
  have within (q : Port) (hq : d.PortWithin q) : (d.takeIn p r).PortWithin q := by
    obtain ⟨reqs, load, tags⟩ := hq
    unfold Device.PortWithin Device.load at *
    rw [slots, port]
    split
    · rename_i e
      subst e
      refine ⟨?_, ?_, tags⟩
      · rw [List.length_tail]; omega
      · dsimp only; omega
    · exact ⟨reqs, load, tags⟩
  refine ⟨fun a b => ⟨within _ a, within _ b⟩, fun h => ?_, fun o t => ⟨?_, ?_⟩, fun o => ?_⟩
  · unfold Device.FlightsNamed Device.takeIn
    dsimp only
    rw [List.map_append, List.map_singleton, List.nodup_append]
    refine ⟨h, List.nodup_singleton _, fun a ha b hb => ?_⟩
    obtain ⟨f, hf, rfl⟩ := List.mem_map.1 ha
    rw [List.mem_singleton.1 hb]
    exact d.newFlightId_fresh f hf
  · unfold Device.DirOrdered; rw [Device.takeIn_dir]; exact o
  · unfold Device.TableOrdered; rw [Device.takeIn_pool]; exact t
  · unfold Device.DirBounded
    simp only [Device.takeIn_dir, Device.takeIn_recordCount, Device.takeIn_desc]
    exact o

/-- An insertion makes a directory at most one entry longer. -/
theorem insertEntry_countP_le (q : Entry → Bool) (e : Entry) (es : List Entry) :
    (insertEntry e es).countP q ≤ es.countP q + if q e then 1 else 0 := by
  induction es with
  | nil => simp [insertEntry, List.countP_cons]
  | cons x es ih =>
    rw [insertEntry]
    split
    · rw [List.countP_cons]
    · split
      · rw [List.countP_cons, List.countP_cons]
        omega
      · rw [List.countP_cons, List.countP_cons]
        omega

/-- An insertion of an entry where there is room for one more keeps all. -/
theorem Device.insertRecord_keeps {d : Device} {e : Entry} (len : d.dir.length < 1024)
    (room : d.recordCount e.name.ns < (d.desc e.name.ns).recordLimit) : d.Keeps (d.insertRecord e) := by
  refine ⟨fun a b => ⟨a, b⟩, id, fun o t => ⟨insertEntry_ordered e o, t⟩, fun ⟨_, limits⟩ => ⟨?_, fun n => ?_⟩⟩
  · have := insertEntry_countP_le (fun _ => true) e d.dir
    simp only [List.countP_true, if_true] at this
    show (insertEntry e d.dir).length ≤ 1024
    omega
  · have := insertEntry_countP_le (fun x => decide (x.name.ns = n)) e d.dir
    have limit := limits n
    show List.countP (fun x : Entry => decide (x.name.ns = n)) (insertEntry e d.dir) ≤ (d.desc n).recordLimit
    refine this.trans ?_
    unfold Device.recordCount at limit room
    by_cases hn : e.name.ns = n
    · subst hn
      simp only [decide_true, if_true]
      omega
    · simp only [hn, decide_false, Bool.false_eq_true, if_false]
      omega

/-- The answer of a request keeps all. -/
theorem Device.complete_keeps (d : Device) (id : Nat) (r : Result) (reply : List Byte) :
    d.Keeps (d.complete id r reply) := (Device.complete_quiet (.refl d)).keeps

/-- OPEN UPDATE inserts an entry only where there is room (R27). -/
theorem Device.workOpen_keeps (d : Device) (p : Port) (id : Nat) (ns : Byte) (key : Key) (length : BitVec 16)
    (mode : Byte) : d.Keeps (d.workOpen p id ns key length mode) := by
  obtain q | ⟨d₁, e, q₁, -, len, room, q₂⟩ :=
    Device.workOpen_room (p := p) (id := id) (ns := ns) (key := key) (length := length) (mode := mode) (.refl d)
  · exact q.keeps
  · exact (q₁.keeps.trans (Device.insertRecord_keeps len room)).trans q₂.keeps

/-- LOCK NAMESPACE changes a lock (R91). -/
theorem Device.workLock_keeps (d : Device) (p : Port) (id : Nat) (ns : Byte) : d.Keeps (d.workLock p id ns) := by
  unfold Device.workLock
  split
  · exact d.complete_keeps _ _ _
  · split
    · exact d.complete_keeps _ _ _
    · refine .trans ?_ (Device.complete_keeps _ _ _ _)
      exact .outside rfl rfl rfl rfl rfl rfl

/-- CONFIGURE changes settings and alert enables (R170). -/
theorem Device.configured_keeps (d : Device) (timeout : BitVec 16) (threshold mode : Byte) (spread : BitVec 16)
    (pa sa : Byte) : d.Keeps (d.configured timeout threshold mode spread pa sa) :=
  .of_same (fun p => by cases p <;> rfl) (fun p => by cases p <;> rfl) (fun p => by cases p <;> rfl) rfl rfl rfl rfl

/-- CONFIGURE keeps all. -/
theorem Device.workConfigure_keeps (d : Device) (p : Port) (id : Nat) (timeout : BitVec 16) (threshold mode : Byte)
    (spread : BitVec 16) (pa sa : Byte) : d.Keeps (d.workConfigure p id timeout threshold mode spread pa sa) := by
  unfold Device.workConfigure
  split
  · exact d.complete_keeps _ _ _
  · exact (d.configured_keeps ..).trans (Device.complete_keeps _ _ _ _)

/-- DEFINE NAMESPACE changes the staged layout (R165). -/
theorem Device.workDefine_keeps (d : Device) (p : Port) (id : Nat) (ns enabled : Byte) (limit quota : BitVec 16)
    (mirrored early pr sr : Byte) : d.Keeps (d.workDefine p id ns enabled limit quota mirrored early pr sr) := by
  unfold Device.workDefine
  split
  · exact d.complete_keeps _ _ _
  · split
    · exact d.complete_keeps _ _ _
    · refine .trans ?_ (Device.complete_keeps _ _ _ _)
      exact .outside rfl rfl rfl rfl rfl rfl

/-- COMMIT LAYOUT leaves the active layout (R166). -/
theorem Device.workCommitLayout_keeps (d : Device) (p : Port) (id : Nat) : d.Keeps (d.workCommitLayout p id) := by
  unfold Device.workCommitLayout
  split
  · exact d.complete_keeps _ _ _
  · have pending : d.Keeps { d with layout := { d.layout with pending := true, nextPage := d.layout.nextPage + 1 } } :=
      .outside rfl rfl rfl rfl rfl rfl
    exact pending.trans (Device.queueLayoutPage_quiet (Device.setWork_quiet (.refl _))).keeps

/-- RESET is refused, or begins a warm reset (R150). -/
theorem Device.doReset_keeps (d : Device) (p : Port) (id : Nat) (body : Req) : d.Keeps (d.doReset p id body) := by
  unfold Device.doReset
  split
  · split
    · exact d.complete_keeps _ _ _
    · split
      · exact d.complete_keeps _ _ _
      · exact d.beginReset_keeps d
  · exact .refl d

/-- A step that takes a request keeps all when the request's own work does. -/
theorem Device.takes_keeps {d : Device} {k : RequestKind} {work : Device → Port → Nat → Req → Device}
    (h : ∀ (d : Device) p id body, d.Keeps (work d p id body)) : d.Keeps (d.takes k work) := by
  unfold Device.takes
  split
  · exact .refl d
  · rename_i p r hn
    split
    · exact ((Device.takeIn_keeps hn).trans (h _ _ _ _)).trans (Device.takeEnd_quiet (.refl _)).keeps
    · exact .refl d

/-! ### The scanner -/

/-- A change of the scanner's own notes keeps all. -/
theorem Device.scan_keeps (d : Device) (x : Scan) : d.Keeps { d with scan := x } := .outside rfl rfl rfl rfl rfl rfl

/-- A block classified keeps all (R154). -/
theorem Device.setBlock_keeps (d : Device) (a : BlockAddr) (e : BlockEntry) : d.Keeps (d.setBlock a e) :=
  (Device.setBlock_quiet (.refl d)).keeps

/-- The reading of an identity page keeps all (R152). -/
theorem Device.identityRead_keeps (d : Device) (b : Bank) (o : ReadOutcome) (data : List Byte) :
    d.Keeps (d.identityRead b o data) := by
  unfold Device.identityRead
  split
  · exact .outside rfl rfl rfl rfl rfl rfl
  · split
    · exact .outside rfl rfl rfl rfl rfl rfl
    · exact .outside rfl rfl rfl rfl rfl rfl

/-- The reading of a page of a grown-bad list keeps all (R153). -/
theorem Device.grownBadRead_keeps (d : Device) (b : Bank) (o : ReadOutcome) (data : List Byte) :
    d.Keeps (d.grownBadRead b o data) := by
  unfold Device.grownBadRead
  dsimp only
  refine .trans ?_ (.foldl (fun d g => d.setBlock_keeps _ _) _ _)
  exact .outside rfl rfl rfl rfl rfl rfl

/-- The classification of a block that a grown-bad entry names keeps all (R154). -/
theorem Device.classifyBad_keeps (d : Device) (a : BlockAddr) (worst : Nat) (data : List Byte) :
    d.Keeps (d.classifyBad a worst data) := by
  unfold Device.classifyBad
  split
  · exact .refl d
  · refine .trans ?_ (Device.scan_keeps _ _)
    split
    · exact d.setBlock_keeps _ _
    · exact .refl d

/-- The classification of a member of a version keeps all (R154). -/
theorem Device.memberFound_keeps (d : Device) (f : FoundBlock) : d.Keeps (d.memberFound f) := by
  unfold Device.memberFound
  refine .trans ?_ (Device.scan_keeps _ _)
  split
  · exact d.setBlock_keeps _ _
  · exact .refl d

/-- A wear stamp counted keeps all (R155). -/
theorem Device.countStamp_keeps (d : Device) (b : Bank) (stamp : Option Nat) : d.Keeps (d.countStamp b stamp) := by
  cases stamp with
  | none => exact .refl d
  | some n => exact d.scan_keeps _

/-- The classification of any other block keeps all (R154). -/
theorem Device.classifyGood_keeps (d : Device) (a : BlockAddr) (worst : Nat) (data : List Byte) :
    d.Keeps (d.classifyGood a worst data) := by
  unfold Device.classifyGood
  dsimp only
  split
  · exact d.setBlock_keeps _ _
  · refine (d.countStamp_keeps a.bank (readStamp (segment data 0))).trans ?_
    split
    · exact Device.memberFound_keeps _ _
    · repeat' split
      · exact Device.scan_keeps _ _
      · exact Device.scan_keeps _ _
      · exact Device.setBlock_keeps _ _ _
      · exact Device.setBlock_keeps _ _ _

/-- Page 0 of a general block keeps all (R154). -/
theorem Device.classify_keeps (d : Device) (a : BlockAddr) (o : ReadOutcome) (data : List Byte) :
    d.Keeps (d.classify a o data) := by
  unfold Device.classify
  dsimp only
  repeat' split
  · exact .refl d
  · exact d.setBlock_keeps _ _
  · exact d.classifyBad_keeps _ _ _
  · exact d.classifyGood_keeps _ _ _

/-- An erase verify of the scanner keeps all (R155). -/
theorem Device.verifyRead_keeps (d : Device) (a : BlockAddr) (clean : Bool) : d.Keeps (d.verifyRead a clean) := by
  unfold Device.verifyRead
  split
  · exact .refl d
  · refine .trans ?_ (Device.setBlock_keeps _ _ _)
    exact d.scan_keeps _

/-- The layout selected gives no namespace fewer entries than the empty directory of an earlier phase has (R152). -/
theorem Device.layoutSelected_keeps (d : Device) : d.Keeps d.layoutSelected := by
  unfold Device.layoutSelected
  split
  · rename_i h
    have none_yet : d.layout.active = none := by simpa using h.1
    refine ⟨And.intro, id, And.intro, fun ⟨len, room⟩ => ⟨len, fun n => ?_⟩⟩
    have zero : d.recordCount n ≤ 0 := by
      have := room n
      unfold Device.desc at this
      rwa [none_yet] at this
    exact zero.trans (Nat.zero_le _)
  · exact .refl d

/-- The estimates of a bank change no line's block (R155). -/
theorem Device.setEstimates_keeps (d : Device) (b : Bank) : d.Keeps (d.setEstimates b) := by
  refine .of_same (fun p => by cases p <;> rfl) (fun p => by cases p <;> rfl) (fun p => by cases p <;> rfl) rfl rfl rfl ?_
  unfold Device.setEstimates
  dsimp only
  rw [List.map_map]
  refine List.map_congr_left fun l _ => ?_
  dsimp only [Function.comp]
  split <;> rfl

/-- The reads that follow the page 0 reads of a bank keep all. -/
theorem Device.scanBank_keeps (d : Device) (b : Bank) : d.Keeps (d.scanBank b) := by
  unfold Device.scanBank
  split
  · exact .refl d
  · split
    · split
      · exact .refl d
      · exact d.scan_keeps _
    · dsimp only
      have lists : d.Keeps
          (if d.scan.detail[b] then d
           else
             { d with scan :=
                { d.scan.setTodo b (markTasks d.scan.found b ++ verifyTasks d.scan.verifies b) with
                  detail := d.scan.detail.set b true } }) := by
        split
        · exact .refl d
        · exact d.scan_keeps _
      have estimates (x : Device) (h : d.Keeps x) :
          d.Keeps (if x.scan.todo[b] = [] then x.setEstimates b else x) := by
        split
        · exact h.trans (x.setEstimates_keeps b)
        · exact h
      exact estimates _ lists
    · exact .refl d

/-- The states that the blocks of a key take keep all (R158). -/
theorem Device.placeFound_keeps (d : Device) (named : List BlockAddr) (f : FoundBlock) :
    d.Keeps (d.placeFound named f) := by
  unfold Device.placeFound
  split
  · exact .refl d
  · exact d.setBlock_keeps _ _

/-- The blocks of a key that take their states leave the directory and the active layout (R158). -/
theorem Device.placeAll_same (named : List BlockAddr) (fs : List FoundBlock) (d : Device) :
    (fs.foldl (fun d f => d.placeFound named f) d).dir = d.dir
    ∧ (fs.foldl (fun d f => d.placeFound named f) d).layout = d.layout := by
  induction fs generalizing d with
  | nil => exact ⟨rfl, rfl⟩
  | cons f fs ih =>
    have one : (d.placeFound named f).dir = d.dir ∧ (d.placeFound named f).layout = d.layout := by
      unfold Device.placeFound Device.setBlock
      repeat' split
      all_goals exact ⟨rfl, rfl⟩
    rw [List.foldl_cons, (ih _).1, (ih _).2]
    exact one

/-- An entry rebuilt for a key bears its name (R158). -/
theorem rebuiltEntry_name {gb : List GrownBad} {bodies : List BodyPage} {mirrored : Bool} {r : RecordName}
    {fs : List FoundBlock} {x : Entry × Bool} (h : rebuiltEntry gb bodies mirrored r fs = some x) : x.1.name = r := by
  unfold rebuiltEntry at h
  split at h
  · cases h
  · dsimp only at h
    split at h
    · cases h
    · cases h
      rfl

/-- A key resolved brings an entry only where there is room (R14). -/
theorem Device.resolveKey_keeps (d : Device) (fs : List FoundBlock) (r : RecordName) : d.Keeps (d.resolveKey fs r) := by
  unfold Device.resolveKey
  dsimp only
  split
  · exact .foldl (fun d f => d.placeFound_keeps _ f) _ d
  · rename_i e refresh found
    split at found
    · rename_i fits
      have name : e.name = r := rebuiltEntry_name found
      obtain ⟨dir, layout⟩ := Device.placeAll_same e.version.blocks (foundOf fs r) d
      unfold Device.fitsBounds at fits
      simp only [Bool.and_eq_true, decide_eq_true_eq] at fits
      obtain ⟨⟨-, room⟩, len⟩ := fits
      have inserted : d.Keeps (((foundOf fs r).foldl (fun d f => d.placeFound e.version.blocks f) d).insertRecord e) := by
        refine .trans (.foldl (fun d f => d.placeFound_keeps _ f) _ d) (Device.insertRecord_keeps ?_ ?_)
        · rw [dir]
          exact len
        · unfold Device.recordCount Device.desc at *
          rw [dir, layout, name]
          exact room
      split
      · exact inserted.trans (Device.joinRefresh_quiet (.refl _)).keeps
      · exact inserted
    · cases found

/-- The keys resolved keep all. -/
theorem Device.resolveAll_keeps (d : Device) (fs : List FoundBlock) : d.Keeps (d.resolveAll fs) :=
  .foldl (fun d r => d.resolveKey_keeps fs r) _ d

/-- The early namespace resolved and the full scan begun keep all (R160). -/
theorem Device.finishEarly_keeps (d : Device) : d.Keeps d.finishEarly := by
  refine (d.resolveAll_keeps d.earlyFound).trans ?_
  exact .outside rfl rfl rfl rfl rfl rfl

/-- Retire orders change no name (R74). -/
theorem numberRetired_names (es : List Entry) (n : Nat) : (numberRetired es n).map (·.name) = es.map (·.name) := by
  induction es generalizing n with
  | nil => rfl
  | cons e es ih =>
    unfold numberRetired
    split <;> rw [List.map_cons, List.map_cons, ih]

/-- The hand-over of the table keeps all (R161). -/
theorem Device.handOver_keeps (d : Device) : d.Keeps d.handOver := by
  have worn (x : Device) (h : d.Keeps x) : d.Keeps (if x.wornCondition then x.enterWorn else x) := by
    split
    · exact h.trans (Device.enterWorn_quiet (.refl x)).keeps
    · exact h
  refine worn _ ((d.resolveAll_keeps d.fullFound).trans ?_)
  exact .of_same (fun p => by cases p <;> rfl) (fun p => by cases p <;> rfl) (fun p => by cases p <;> rfl) rfl
    (numberRetired_names _ _) rfl rfl

/-- The next stage of the scan keeps all (R160, R161). -/
theorem Device.scanStage_keeps (d : Device) : d.Keeps d.scanStage := by
  unfold Device.scanStage
  split
  · split
    · exact .refl d
    · split
      · exact d.scan_keeps _
      · exact .outside rfl rfl rfl rfl rfl rfl
    · split
      · exact d.finishEarly_keeps
      · exact d.scan_keeps _
    · exact d.finishEarly_keeps
    · split
      · exact d.handOver_keeps
      · exact d.scan_keeps _
    · exact d.handOver_keeps
    · exact .refl d
  · exact .refl d

/-- What follows a job of the scanner keeps all. -/
theorem Device.scanOn_keeps (d : Device) (b : Bank) : d.Keeps (d.scanOn b) :=
  ((d.layoutSelected_keeps.trans (Device.scanBank_keeps _ b)).trans (Device.scanStage_keeps _)).trans
    (Device.scanPump_keeps _)

/-- A page read of the scanner keeps all. -/
theorem Device.scanReadDone_keeps (d : Device) (b : Bank) (j : Job) (o : ReadOutcome) (data : List Byte) :
    d.Keeps (d.scanReadDone b j o data) := by
  unfold Device.scanReadDone
  dsimp only
  refine .trans (d.scan_keeps { d.scan with out := d.scan.out.set b false }) (.trans ?_ (Device.scanOn_keeps _ b))
  change (d.scanJobOver b).Keeps _
  repeat' split
  · exact Device.identityRead_keeps _ b o data
  · exact Device.grownBadRead_keeps _ b o data
  · exact Device.scan_keeps _ _
  · exact Device.classify_keeps _ _ o data
  · exact Device.scan_keeps _ _
  · exact Device.scan_keeps _ _

/-- An erase verify of the scanner keeps all. -/
theorem Device.scanVerifyDone_keeps (d : Device) (b : Bank) (j : Job) (clean : Bool) :
    d.Keeps (d.scanVerifyDone b j clean) :=
  (d.scan_keeps { d.scan with out := d.scan.out.set b false }).trans
    ((Device.verifyRead_keeps (d.scanJobOver b) _ clean).trans (Device.scanOn_keeps _ b))

/-! ### The rows -/

/-- The end of a step in which a bank's job completed keeps all. -/
theorem Device.jobOver_keeps (d : Device) (b : Bank) : d.Keeps (d.jobOver b) := (Device.jobOver_quiet (.refl d)).keeps

/-- A program or erase that completes keeps all when its queuer does. -/
theorem State.programDone_keeps {s : State} {b : Bank} {o : OkFail} {work : Device → Job → Option Device}
    (h : ∀ j d, work s.toDevice j = some d → s.toDevice.Keeps d) : s.toDevice.Keeps (s.programDone b o work).toDevice := by
  unfold State.programDone
  split
  · exact .refl _
  · split
    · exact .refl _
    · rename_i d hd
      exact ((h _ d hd).trans (Device.eraseOver_quiet (.refl d)).keeps).trans (Device.jobOver_keeps _ b)

/-- A page read that completes keeps all when its queuer does. -/
theorem State.readDone_keeps {s : State} {b : Bank} {work : Device → Job → List Byte → Option Device}
    (h : ∀ j data d, work s.toDevice j data = some d → s.toDevice.Keeps d) :
    s.toDevice.Keeps (s.readDone b work).toDevice := by
  unfold State.readDone
  split
  · exact .refl _
  · split
    · exact .refl _
    · rename_i d hd
      exact (h _ _ d hd).trans (Device.jobOver_keeps _ b)

/-- An erase verify that completes keeps all when its queuer does. -/
theorem State.verifyDone_keeps {s : State} {b : Bank} {o : OkFail} {work : Device → Job → Bool → Option Device}
    (h : ∀ j clean d, work s.toDevice j clean = some d → s.toDevice.Keeps d) :
    s.toDevice.Keeps (s.verifyDone b o work).toDevice := by
  unfold State.verifyDone
  split
  · exact .refl _
  · split
    · exact .refl _
    · rename_i d hd
      exact ((h _ _ d hd).trans (Device.eraseOver_quiet (.refl d)).keeps).trans (Device.jobOver_keeps _ b)

/-- A request's work that is quiet whatever the body keeps all. -/
theorem Device.takes_keeps_of_quiet {d : Device} {k : RequestKind} {work : Device → Port → Nat → Req → Device}
    (h : ∀ (d : Device) p id body, d.Quiet (work d p id body)) : d.Keeps (d.takes k work) :=
  Device.takes_keeps fun d p id body => (h d p id body).keeps

/-- A command that changes the device when a test holds. -/
theorem State.ite_keeps {s : State} {q : Prop} [Decidable q] {d : Device} (h : s.toDevice.Keeps d) :
    s.toDevice.Keeps (if q then { s with toDevice := d } else s).toDevice := by
  split
  · exact h
  · exact .refl _

/-! ### What the queuers do with their jobs -/

section
variable {d d' : Device} {maint : Bool} {b : Bank} {o : OkFail} {ro : ReadOutcome} {j : Job} {data : List Byte}
  {free : BitVec 32} {clean : Bool}

/-- A put is quiet. -/
theorem Device.onPut_quiet (h : d.onPut b o j = some d') : d.Quiet d' := by
  unfold Device.onPut at h
  split at h
  · cases h; simp [Device.Quiet.refl]
  · cases h

/-- A commit, with its commit record, is quiet. -/
theorem Device.onCommitRecord_quiet (h : d.onCommitRecord b o j = some d') : d.Quiet d' := by
  unfold Device.onCommitRecord at h
  split at h
  · cases h; simp [Device.Quiet.refl]
  · cases h

/-- A commit, with its MIRROR commit record, is quiet. -/
theorem Device.onMirrorCommitRecord_quiet (h : d.onMirrorCommitRecord b o j = some d') : d.Quiet d' := by
  unfold Device.onMirrorCommitRecord at h
  split at h
  · cases h; simp [Device.Quiet.refl]
  · cases h

/-- Commit attempt 2, with a program, is quiet. -/
theorem Device.onCommitCopyProgram_quiet (h : d.onCommitCopyProgram b o j = some d') : d.Quiet d' := by
  unfold Device.onCommitCopyProgram at h
  split at h
  · cases h; simp [Device.Quiet.refl]
  · cases h

/-- Mark work, with its PRIMARY mark, is quiet. -/
theorem Device.onMark_quiet (h : d.onMark b o j = some d') : d.Quiet d' := by
  unfold Device.onMark at h
  split at h
  · cases h; simp [Device.Quiet.refl]
  · cases h

/-- Mark work, with its MIRROR mark, is quiet. -/
theorem Device.onMirrorMark_quiet (h : d.onMirrorMark b o j = some d') : d.Quiet d' := by
  unfold Device.onMirrorMark at h
  split at h
  · cases h; simp [Device.Quiet.refl]
  · cases h

/-- A relocation, with a program, is quiet. -/
theorem Device.onRelocProgram_quiet (h : d.onRelocProgram maint b o j = some d') : d.Quiet d' := by
  unfold Device.onRelocProgram at h
  split at h
  · split at h
    · cases h; simp [Device.Quiet.refl]
    · cases h
  · cases h

/-- A relocation, with its commit record, is quiet. -/
theorem Device.onRelocCommit_quiet (h : d.onRelocCommit maint b o j = some d') : d.Quiet d' := by
  unfold Device.onRelocCommit at h
  split at h
  · split at h
    · cases h; simp [Device.Quiet.refl]
    · cases h
  · cases h

/-- A relocation, with its MIRROR commit record, is quiet. -/
theorem Device.onRelocMirrorCommit_quiet (h : d.onRelocMirrorCommit maint b o j = some d') : d.Quiet d' := by
  unfold Device.onRelocMirrorCommit at h
  split at h
  · split at h
    · cases h; simp [Device.Quiet.refl]
    · cases h
  · cases h

/-- The Block Pool Manager, with a scrub erase, is quiet. -/
theorem Device.onScrubErase_quiet (h : d.onScrubErase b o j = some d') : d.Quiet d' := by
  unfold Device.onScrubErase at h
  split at h
  · cases h; simp [Device.Quiet.refl]
  · cases h

/-- The Block Pool Manager, with a wear stamp, is quiet. -/
theorem Device.onWearStamp_quiet (h : d.onWearStamp b o j = some d') : d.Quiet d' := by
  unfold Device.onWearStamp at h
  split at h
  · cases h; simp [Device.Quiet.refl]
  · cases h

/-- A purge, with its mark, is quiet. -/
theorem Device.onPurgeMark_quiet (h : d.onPurgeMark b o j = some d') : d.Quiet d' := by
  unfold Device.onPurgeMark at h
  split at h
  · cases h; simp [Device.Quiet.refl]
  · cases h

/-- A purge, with its erase, is quiet. -/
theorem Device.onPurgeErase_quiet (h : d.onPurgeErase b o j = some d') : d.Quiet d' := by
  unfold Device.onPurgeErase at h
  split at h
  · cases h; simp [Device.Quiet.refl]
  · cases h

/-- A purge, with a page of its overwrite, is quiet. -/
theorem Device.onPurgeOverwrite_quiet (h : d.onPurgeOverwrite b j = some d') : d.Quiet d' := by
  unfold Device.onPurgeOverwrite at h
  split at h
  · cases h; simp [Device.Quiet.refl]
  · cases h

/-- The Block Pool Manager, with a grown-bad entry, is quiet. -/
theorem Device.onGrownBad_quiet (h : d.onGrownBad j = some d') : d.Quiet d' := by
  unfold Device.onGrownBad at h
  split at h
  · cases h; simp [Device.Quiet.refl]
  · cases h

/-- A COMMIT LAYOUT is quiet. -/
theorem Device.onLayoutPage_quiet (h : d.onLayoutPage o j = some d') : d.Quiet d' := by
  unfold Device.onLayoutPage at h
  split at h
  · cases h; simp [Device.Quiet.refl]
  · cases h

/-- Commit attempt 2, with a page read, is quiet. -/
theorem Device.onCommitCopyRead_quiet (h : d.onCommitCopyRead ro j data = some d') : d.Quiet d' := by
  unfold Device.onCommitCopyRead at h
  split at h
  · cases h; simp [Device.Quiet.refl]
  · cases h

/-- A relocation, with a page read, is quiet. -/
theorem Device.onRelocRead_quiet (h : d.onRelocRead maint ro free j data = some d') : d.Quiet d' := by
  unfold Device.onRelocRead at h
  split at h
  · split at h
    · cases h; simp [Device.Quiet.refl]
    · cases h
  · cases h

/-- A READ is quiet. -/
theorem Device.onReadPage_quiet (h : d.onReadPage ro j data = some d') : d.Quiet d' := by
  unfold Device.onReadPage at h
  split at h
  · cases h; simp [Device.Quiet.refl]
  · cases h

/-- A CHECK is quiet. -/
theorem Device.onCheckPage_quiet (h : d.onCheckPage ro j data = some d') : d.Quiet d' := by
  unfold Device.onCheckPage at h
  split at h
  · cases h; simp [Device.Quiet.refl]
  · cases h

/-- A purge, with its verify, is quiet. -/
theorem Device.onPurgeVerify_quiet (h : d.onPurgeVerify b j clean = some d') : d.Quiet d' := by
  unfold Device.onPurgeVerify at h
  split at h
  · cases h; simp [Device.Quiet.refl]
  · cases h

/-- The scanner keeps all with a page. -/
theorem Device.onScanRead_keeps (h : d.onScanRead b ro j data = some d') : d.Keeps d' := by
  unfold Device.onScanRead at h
  split at h
  · rw [← Option.some.inj h]
    exact d.scanReadDone_keeps b j ro data
  · cases h

/-- The scanner keeps all with an erase verify. -/
theorem Device.onScanVerify_keeps (h : d.onScanVerify b j clean = some d') : d.Keeps d' := by
  unfold Device.onScanVerify at h
  split at h
  · rw [← Option.some.inj h]
    exact d.scanVerifyDone_keeps b j clean
  · cases h

end

/-- A row that takes a request keeps all. -/
theorem exec_takeRow_keeps (k : RequestKind) (s : State) :
    ∃ t, exec k.row s = .next t ∧ s.toDevice.Keeps t.toDevice := by
  cases k with
  | find =>
    refine ⟨_, rfl, ?_⟩
    refine Device.takes_keeps_of_quiet fun d p id body => ?_
    unfold Device.doFind
    split <;> simp [Device.Quiet.refl]
  | list =>
    refine ⟨_, rfl, ?_⟩
    refine Device.takes_keeps_of_quiet fun d p id body => ?_
    unfold Device.doList
    split <;> simp [Device.Quiet.refl]
  | read =>
    refine ⟨_, rfl, ?_⟩
    refine Device.takes_keeps_of_quiet fun d p id body => ?_
    unfold Device.doRead
    split <;> simp [Device.Quiet.refl]
  | check =>
    refine ⟨_, rfl, ?_⟩
    refine Device.takes_keeps_of_quiet fun d p id body => ?_
    unfold Device.doCheck
    split <;> simp [Device.Quiet.refl]
  | putChunk =>
    refine ⟨_, rfl, ?_⟩
    refine Device.takes_keeps_of_quiet fun d p id body => ?_
    unfold Device.doPut
    split <;> simp [Device.Quiet.refl]
  | commit =>
    refine ⟨_, rfl, ?_⟩
    refine Device.takes_keeps_of_quiet fun d p id body => ?_
    unfold Device.doCommit
    split <;> simp [Device.Quiet.refl]
  | abandon =>
    refine ⟨_, rfl, ?_⟩
    refine Device.takes_keeps_of_quiet fun d p id body => ?_
    unfold Device.doAbandon
    split <;> simp [Device.Quiet.refl]
  | retire =>
    refine ⟨_, rfl, ?_⟩
    refine Device.takes_keeps_of_quiet fun d p id body => ?_
    unfold Device.doRetire
    split <;> simp [Device.Quiet.refl]
  | restore =>
    refine ⟨_, rfl, ?_⟩
    refine Device.takes_keeps_of_quiet fun d p id body => ?_
    unfold Device.doRestore
    split <;> simp [Device.Quiet.refl]
  | purge =>
    refine ⟨_, rfl, ?_⟩
    refine Device.takes_keeps_of_quiet fun d p id body => ?_
    unfold Device.doPurge
    split <;> simp [Device.Quiet.refl]
  | hold =>
    refine ⟨_, rfl, ?_⟩
    refine Device.takes_keeps_of_quiet fun d p id body => ?_
    unfold Device.doHold
    split <;> simp [Device.Quiet.refl]
  | release =>
    refine ⟨_, rfl, ?_⟩
    refine Device.takes_keeps_of_quiet fun d p id body => ?_
    unfold Device.doRelease
    split <;> simp [Device.Quiet.refl]
  | freeze =>
    refine ⟨_, rfl, ?_⟩
    refine Device.takes_keeps_of_quiet fun d p id body => ?_
    unfold Device.doFreeze
    split <;> simp [Device.Quiet.refl]
  | maintain =>
    refine ⟨_, rfl, ?_⟩
    refine Device.takes_keeps_of_quiet fun d p id body => ?_
    unfold Device.doMaintain
    split <;> simp [Device.Quiet.refl]
  | health =>
    refine ⟨_, rfl, ?_⟩
    refine Device.takes_keeps_of_quiet fun d p id body => ?_
    unfold Device.doHealth
    split <;> simp [Device.Quiet.refl]
  | identify =>
    refine ⟨_, rfl, ?_⟩
    refine Device.takes_keeps_of_quiet fun d p id body => ?_
    unfold Device.doIdentify
    split <;> simp [Device.Quiet.refl]
  | openUpdate =>
    refine ⟨_, rfl, ?_⟩
    refine Device.takes_keeps fun d p id body => ?_
    unfold Device.doOpen
    split
    · exact d.workOpen_keeps ..
    · exact .refl d
  | lockNamespace =>
    refine ⟨_, rfl, ?_⟩
    refine Device.takes_keeps fun d p id body => ?_
    unfold Device.doLock
    split
    · exact d.workLock_keeps ..
    · exact .refl d
  | configure =>
    refine ⟨_, rfl, ?_⟩
    refine Device.takes_keeps fun d p id body => ?_
    unfold Device.doConfigure
    split
    · exact d.workConfigure_keeps ..
    · exact .refl d
  | defineNamespace =>
    refine ⟨_, rfl, ?_⟩
    refine Device.takes_keeps fun d p id body => ?_
    unfold Device.doDefine
    split
    · exact d.workDefine_keeps ..
    · exact .refl d
  | commitLayout =>
    refine ⟨_, rfl, ?_⟩
    refine Device.takes_keeps fun d p id body => ?_
    unfold Device.doCommitLayout
    split
    · exact d.workCommitLayout_keeps ..
    · exact .refl d
  | reset => exact ⟨_, rfl, Device.takes_keeps fun d p id body => d.doReset_keeps p id body⟩

/-- Every command keeps all. -/
theorem exec_keeps_all (c : Instr) (s : State) : ∃ t, exec c s = .next t ∧ s.toDevice.Keeps t.toDevice := by
  cases c with
  | find => exact exec_takeRow_keeps .find s
  | list => exact exec_takeRow_keeps .list s
  | read => exact exec_takeRow_keeps .read s
  | check => exact exec_takeRow_keeps .check s
  | openUpdate => exact exec_takeRow_keeps .openUpdate s
  | putChunk => exact exec_takeRow_keeps .putChunk s
  | commit => exact exec_takeRow_keeps .commit s
  | abandon => exact exec_takeRow_keeps .abandon s
  | retire => exact exec_takeRow_keeps .retire s
  | restore => exact exec_takeRow_keeps .restore s
  | purge => exact exec_takeRow_keeps .purge s
  | hold => exact exec_takeRow_keeps .hold s
  | release => exact exec_takeRow_keeps .release s
  | freeze => exact exec_takeRow_keeps .freeze s
  | lockNamespace => exact exec_takeRow_keeps .lockNamespace s
  | configure => exact exec_takeRow_keeps .configure s
  | maintain => exact exec_takeRow_keeps .maintain s
  | health => exact exec_takeRow_keeps .health s
  | identify => exact exec_takeRow_keeps .identify s
  | defineNamespace => exact exec_takeRow_keeps .defineNamespace s
  | commitLayout => exact exec_takeRow_keeps .commitLayout s
  | reset => exact exec_takeRow_keeps .reset s
  | submit p frame => exact ⟨_, rfl, State.ite_keeps (Device.submitted_keeps _ p frame)⟩
  | collect p x =>
    refine ⟨_, rfl, ?_⟩
    split
    · cases x
      · exact Device.setPort_keeps id (le_refl _) id
      · exact Device.collectCompletes_keeps _ p
      · exact Device.setPort_keeps id (le_refl _) id
    · exact .refl _
  | status p x =>
    refine ⟨_, rfl, ?_⟩
    split
    · cases x
      · exact Device.setPort_keeps id (le_refl _) id
      · exact Device.statusCompletes_keeps _ p
      · exact Device.setPort_keeps id (le_refl _) id
    · exact .refl _
  | portReset p frame =>
    refine ⟨_, rfl, ?_⟩
    exact State.ite_keeps ((Device.portCleared_keeps _ p).trans (Device.finishStep_quiet (.refl _)).keeps)
  | resetNAsserted =>
    refine ⟨_, rfl, ?_⟩
    split
    · exact .refl _
    · exact Device.assertReset_keeps _
  | resetNReleased =>
    refine ⟨_, rfl, ?_⟩
    exact State.ite_keeps (Device.releaseReset_keeps _)
  | coldStart => exact ⟨_, rfl, Device.coldStart_keeps _⟩
  | powerLoss =>
    refine ⟨_, rfl, ?_⟩
    split
    · exact .refl _
    · exact Device.Bare.keeps ⟨rfl, rfl, rfl, rfl, rfl⟩ _
  | drainJobDone b o =>
    refine ⟨_, rfl, ?_⟩
    split
    · exact .refl _
    · split
      · exact Device.drained_keeps _ b
      · exact .refl _
  | idleTimerExpiry i =>
    refine ⟨_, rfl, ?_⟩
    exact State.ite_keeps (Device.finishStep_quiet (Device.timerExpired_quiet (.refl _))).keeps
  | putProgramDone => exact ⟨_, rfl, State.programDone_keeps fun j d e => (Device.onPut_quiet e).keeps⟩
  | commitRecordDone => exact ⟨_, rfl, State.programDone_keeps fun j d e => (Device.onCommitRecord_quiet e).keeps⟩
  | mirrorCommitRecordDone => exact ⟨_, rfl, State.programDone_keeps fun j d e => (Device.onMirrorCommitRecord_quiet e).keeps⟩
  | commitCopyProgramDone => exact ⟨_, rfl, State.programDone_keeps fun j d e => (Device.onCommitCopyProgram_quiet e).keeps⟩
  | markProgramDone => exact ⟨_, rfl, State.programDone_keeps fun j d e => (Device.onMark_quiet e).keeps⟩
  | mirrorMarkProgramDone => exact ⟨_, rfl, State.programDone_keeps fun j d e => (Device.onMirrorMark_quiet e).keeps⟩
  | markRelocationProgramDone => exact ⟨_, rfl, State.programDone_keeps fun j d e => (Device.onRelocProgram_quiet e).keeps⟩
  | markRelocationCommitDone => exact ⟨_, rfl, State.programDone_keeps fun j d e => (Device.onRelocCommit_quiet e).keeps⟩
  | markRelocationMirrorCommitDone => exact ⟨_, rfl, State.programDone_keeps fun j d e => (Device.onRelocMirrorCommit_quiet e).keeps⟩
  | relocationProgramDone => exact ⟨_, rfl, State.programDone_keeps fun j d e => (Device.onRelocProgram_quiet e).keeps⟩
  | relocationCommitDone => exact ⟨_, rfl, State.programDone_keeps fun j d e => (Device.onRelocCommit_quiet e).keeps⟩
  | relocationMirrorCommitDone => exact ⟨_, rfl, State.programDone_keeps fun j d e => (Device.onRelocMirrorCommit_quiet e).keeps⟩
  | scrubEraseDone => exact ⟨_, rfl, State.programDone_keeps fun j d e => (Device.onScrubErase_quiet e).keeps⟩
  | wearStampDone => exact ⟨_, rfl, State.programDone_keeps fun j d e => (Device.onWearStamp_quiet e).keeps⟩
  | purgeMarkDone => exact ⟨_, rfl, State.programDone_keeps fun j d e => (Device.onPurgeMark_quiet e).keeps⟩
  | purgeEraseDone => exact ⟨_, rfl, State.programDone_keeps fun j d e => (Device.onPurgeErase_quiet e).keeps⟩
  | purgeOverwriteDone => exact ⟨_, rfl, State.programDone_keeps fun j d e => (Device.onPurgeOverwrite_quiet e).keeps⟩
  | grownBadEntryDone => exact ⟨_, rfl, State.programDone_keeps fun j d e => (Device.onGrownBad_quiet e).keeps⟩
  | layoutPageProgramDone => exact ⟨_, rfl, State.programDone_keeps fun j d e => (Device.onLayoutPage_quiet e).keeps⟩
  | commitCopyReadDone => exact ⟨_, rfl, State.readDone_keeps fun j data d e => (Device.onCommitCopyRead_quiet e).keeps⟩
  | markRelocationReadDone => exact ⟨_, rfl, State.readDone_keeps fun j data d e => (Device.onRelocRead_quiet e).keeps⟩
  | relocationReadDone => exact ⟨_, rfl, State.readDone_keeps fun j data d e => (Device.onRelocRead_quiet e).keeps⟩
  | readPageDone => exact ⟨_, rfl, State.readDone_keeps fun j data d e => (Device.onReadPage_quiet e).keeps⟩
  | checkPageDone => exact ⟨_, rfl, State.readDone_keeps fun j data d e => (Device.onCheckPage_quiet e).keeps⟩
  | scanReadDone => exact ⟨_, rfl, State.readDone_keeps fun j data d e => Device.onScanRead_keeps e⟩
  | purgeVerifyDone => exact ⟨_, rfl, State.verifyDone_keeps fun j clean d e => (Device.onPurgeVerify_quiet e).keeps⟩
  | scanVerifyDone => exact ⟨_, rfl, State.verifyDone_keeps fun j clean d e => Device.onScanVerify_keeps e⟩

/-- What a command makes of the device. -/
theorem exec_keeps {c : Instr} {s t : State} (h : exec c s = .next t) : s.toDevice.Keeps t.toDevice := by
  obtain ⟨t', ht, keeps⟩ := exec_keeps_all c s
  rw [h] at ht
  cases ht
  exact keeps

/-- Every step keeps all. -/
theorem step_keeps {s t : State} (h : step s = .next t) : s.toDevice.Keeps t.toDevice := by
  obtain rfl | ⟨c, rest, hc⟩ := step_cases h
  · exact .refl _
  · exact exec_keeps (s := s.withPending rest) hc

/-- Settles O6: the ports and the names of the requests in flight are two of the fields that every step keeps. -/
theorem everyStepKeepsThePortsWithinTheirDepths : Obligations.EveryStepKeepsThePortsWithinTheirDepths := by
  unfold Obligations.EveryStepKeepsThePortsWithinTheirDepths
  exact ⟨fun s t p q h => (step_keeps h).ports p q, fun s t n h => (step_keeps h).flights n⟩

/-- Settles O7: the orders and the bounds are the other two of the fields that every step keeps. -/
theorem everyStepKeepsTheTablesOrdered : Obligations.EveryStepKeepsTheTablesOrdered := by
  unfold Obligations.EveryStepKeepsTheTablesOrdered
  exact ⟨fun s t o l h => (step_keeps h).tables o l, fun s t o h => (step_keeps h).bounded o⟩

/-- Settles O8: the end of a step is made of quiet operations, with and without the interruption of a run. -/
theorem whatComesAboutWithinAStepIsQuiet : Obligations.WhatComesAboutWithinAStepIsQuiet := by
  unfold Obligations.WhatComesAboutWithinAStepIsQuiet
  intro d e b
  exact ⟨Device.finishStep_quiet (.refl d), Device.takeEnd_quiet (.refl d), Device.jobOver_quiet (.refl d)⟩

end Sys2Proof.Machine

/-!
The frames of R172, R176, R177 and R180, and commands out of turn: what each moment of a frame makes of its port, and the
settling of O9, O11, O12 and O13.
-/

namespace Sys2Proof.Machine

/-! ### Frames by their first byte -/

/-- Bytes that begin with a frame code begin that frame (R180). -/
theorem frameKind_of_head {frame : List Byte} {b : Byte} (h : frame.head? = some b) :
    frameKind frame = FrameKind.ofByte b := by
  unfold frameKind
  rw [h]
  rfl

/-- Bytes that begin with no frame code begin no frame (R180). -/
theorem frameKind_of_no_code {frame : List Byte} (h : ∀ b ∈ frame.head?, b ≠ 0xA1 ∧ b ≠ 0xA2 ∧ b ≠ 0xA3 ∧ b ≠ 0xA4) :
    frameKind frame = none := by
  cases hb : frame.head? with
  | none =>
    unfold frameKind
    rw [hb]
    rfl
  | some b =>
    obtain ⟨h1, h2, h3, h4⟩ := h b hb
    rw [frameKind_of_head hb]
    unfold FrameKind.ofByte
    rw [if_neg (show b ≠ submitCode from h1), if_neg (show b ≠ collectCode from h2), if_neg (show b ≠ statusCode from h3),
      if_neg (show b ≠ portResetCode from h4)]

/-- A frame that is no PORT RESET by its first byte is no valid one. -/
theorem portResetOk_of_kind {frame : List Byte} (h : frameKind frame ≠ some .portReset) : portResetOk frame = false := by
  unfold portResetOk
  simp [h]

/-! ### SUBMIT -/

section
variable {d : Device} {p : Port} {frame : List Byte} {r : Request}

/-- A frame that fails the form tests sets FRAME_ERROR (R172). -/
theorem Device.submitted_frameError (h : parseSubmit frame = none) :
    d.submitted p frame = d.setPort p { d.port p with lastSubmit := .frameError } := by
  unfold Device.submitted Device.submitResult
  rw [h]

/-- A frame with a tag in use sets TAG_IN_USE (R172). -/
theorem Device.submitted_tagInUse (h : parseSubmit frame = some r) (tag : r.tag ∈ (d.port p).tags) :
    d.submitted p frame = d.setPort p { d.port p with lastSubmit := .tagInUse } := by
  have result : d.submitResult p frame = .tagInUse := by
    unfold Device.submitResult
    rw [h]
    simp [tag]
  unfold Device.submitted
  rw [result]

/-- A frame that finds the request queue full sets QUEUE_FULL (R172). -/
theorem Device.submitted_queueFull (h : parseSubmit frame = some r) (tag : r.tag ∉ (d.port p).tags)
    (full : p.depth ≤ (d.port p).requests.length) :
    d.submitted p frame = d.setPort p { d.port p with lastSubmit := .queueFull } := by
  have result : d.submitResult p frame = .queueFull := by
    unfold Device.submitResult
    rw [h]
    simp [tag, full]
  unfold Device.submitted
  rw [result]

/-- Any other frame is ACCEPTED (R172). -/
theorem Device.submitted_accepted (h : parseSubmit frame = some r) (tag : r.tag ∉ (d.port p).tags)
    (room : (d.port p).requests.length < p.depth) :
    d.submitted p frame
      = d.setPort p { d.port p with
          lastSubmit := .accepted, requests := (d.port p).requests ++ [r], tags := r.tag :: (d.port p).tags } := by
  have result : d.submitResult p frame = .accepted := by
    unfold Device.submitResult
    rw [h]
    simp [tag, room]
  unfold Device.submitted
  rw [result, h]

end

/-- A SUBMIT frame acts on its port while the link is up (R172). -/
theorem State.execSubmit_up {p : Port} {frame : List Byte} {s : State} (up : s.linkUp = true)
    (h : frame.head? = some submitCode) :
    exec (.submit p frame) s = .next { s with toDevice := s.submitted p frame } := by
  change execSubmit p frame s = _
  unfold execSubmit
  rw [if_pos ⟨up, by rw [frameKind_of_head h]; rfl⟩]

/-- Settles O9: the four outcomes are the four lemmas on what the port becomes. -/
theorem submitSetsTheLastSubmitResult : Obligations.SubmitSetsTheLastSubmitResult := by
  unfold Obligations.SubmitSetsTheLastSubmitResult
  intro p frame s up head
  rw [State.execSubmit_up up head]
  refine ⟨fun h => ?_, fun r h tag => ?_, fun r h tag full => ?_, fun r h tag room => ?_⟩
  · rw [Device.submitted_frameError h]
  · rw [Device.submitted_tagInUse h tag]
  · rw [Device.submitted_queueFull h tag full]
  · rw [Device.submitted_accepted h tag room]

/-! ### COLLECT and STATUS -/

section
variable {s : State} {p : Port}

/-- The moments of a COLLECT frame act on the port while the link is up (R176). -/
theorem State.execCollect_up (up : s.linkUp = true) (x : Transfer) :
    exec (.collect p x) s
      = .next { s with
          toDevice := match x with
            | .begins => s.collectBegins p
            | .completes => s.collectCompletes p
            | .cut => s.transferCut p } := by
  change execCollect p x s = _
  unfold execCollect
  rw [if_pos up]
  cases x <;> rfl

/-- The moments of a STATUS frame act on the port while the link is up (R177). -/
theorem State.execStatus_up (up : s.linkUp = true) (x : Transfer) :
    exec (.status p x) s
      = .next { s with
          toDevice := match x with
            | .begins => s.statusBegins p
            | .completes => s.statusCompletes p
            | .cut => s.transferCut p } := by
  change execStatus p x s = _
  unfold execStatus
  rw [if_pos up]
  cases x <;> rfl

end

/-- Settles O12: each moment of a COLLECT is the change of the port that the model writes for it. -/
theorem collectRemovesWhatItTransferred : Obligations.CollectRemovesWhatItTransferred := by
  unfold Obligations.CollectRemovesWhatItTransferred
  intro p s up
  refine ⟨State.execCollect_up up .begins, fun c h => ?_, fun h => ?_, State.execCollect_up up .cut⟩
  all_goals
    rw [State.execCollect_up up .completes]
    unfold Device.collectCompletes
    dsimp only
    rw [h]

/-- Settles O13: each moment of a STATUS is the change of the port that the model writes for it, and so is a post. -/
theorem statusRemovesTheCapturedNotices : Obligations.StatusRemovesTheCapturedNotices := by
  unfold Obligations.StatusRemovesTheCapturedNotices
  refine ⟨fun p s up => ⟨State.execStatus_up up .begins, fun n h => ?_, State.execStatus_up up .cut⟩,
    fun d p n => rfl⟩
  intro since
  rw [State.execStatus_up up .completes]
  unfold Device.statusCompletes
  dsimp only
  rw [h]
  rfl

/-! ### Commands out of turn -/

/-- A frame while the link is down changes nothing (R180). -/
theorem State.frame_ignored {s : State} (down : s.linkUp = false) (p : Port) (frame : List Byte) (x : Transfer) :
    exec (.submit p frame) s = .next s ∧ exec (.collect p x) s = .next s ∧ exec (.status p x) s = .next s
      ∧ exec (.portReset p frame) s = .next s := by
  refine ⟨?_, ?_, ?_, ?_⟩
  · change execSubmit p frame s = _
    simp [execSubmit, down]
  · change execCollect p x s = _
    simp [execCollect, down]
  · change execStatus p x s = _
    simp [execStatus, down]
  · change execPortReset p frame s = _
    simp [execPortReset, down]

/-- A row that takes a request changes nothing when the next request is of another kind (log 1). -/
theorem State.takeRow_idle {s : State} {k : RequestKind} (h : ∀ p r, s.nextTake = some (p, r) → r.body.kind ≠ k) :
    exec k.row s = .next s := by
  have same (work : Device → Port → Nat → Req → Device) :
      (Host.Outcome.next { s with toDevice := s.toDevice.takes k work } : Host.Outcome State Fault Refusal)
        = .next s := by
    rw [Device.takes_other h work]
  cases k <;> exact same _

/-- With no job in progress while the part runs, a bank has none that completes. -/
theorem State.jobIn_none {s : State} {b : Bank} (h : s.power ≠ .running ∨ s.engines[b].current = none) :
    s.jobIn b = none := by
  unfold State.jobIn
  split
  · rename_i on
    exact h.resolve_left (not_not_intro on)
  · rfl

section
variable {s : State} {b : Bank}

/-- A program or erase row changes nothing when its bank has no job in progress (log 1). -/
theorem State.programDone_idle (h : s.jobIn b = none) (o : OkFail) (work : Device → Job → Option Device) :
    (Host.Outcome.next (s.programDone b o work) : Host.Outcome State Fault Refusal) = .next s := by
  unfold State.programDone
  rw [h]

/-- A page read row changes nothing when its bank has no job in progress (log 1). -/
theorem State.readDone_idle (h : s.jobIn b = none) (work : Device → Job → List Byte → Option Device) :
    (Host.Outcome.next (s.readDone b work) : Host.Outcome State Fault Refusal) = .next s := by
  unfold State.readDone
  rw [h]

/-- An erase verify row changes nothing when its bank has no job in progress (log 1). -/
theorem State.verifyDone_idle (h : s.jobIn b = none) (o : OkFail) (work : Device → Job → Bool → Option Device) :
    (Host.Outcome.next (s.verifyDone b o work) : Host.Outcome State Fault Refusal) = .next s := by
  unfold State.verifyDone
  rw [h]

end

/-- Settles O11: the first byte decides the frame, and each row that finds nothing to act on answers the state. -/
theorem commandsOutOfTurnChangeNothing : Obligations.CommandsOutOfTurnChangeNothing := by
  unfold Obligations.CommandsOutOfTurnChangeNothing
  refine ⟨fun p rest => ⟨rfl, rfl, rfl, rfl⟩, fun p frame s h => ?_, fun d frame rest => ⟨fun down => ?_, fun up => ?_⟩,
    fun s => ⟨fun down p frame x => State.frame_ignored down p frame x, fun k h => State.takeRow_idle h,
      fun b h => ?_⟩⟩
  · have none := frameKind_of_no_code h
    refine ⟨?_, ?_, ?_⟩
    · unfold frameRow
      rw [none]
      rfl
    · change execSubmit p frame s = _
      simp [execSubmit, none]
    · change execPortReset p frame s = _
      simp [execPortReset, portResetOk_of_kind (frame := frame) (by rw [none]; nofun)]
  · simp [Device.lineOut, down]
  · unfold Device.lineOut
    rw [up]
    exact ⟨rfl, rfl, rfl, rfl, fun p => ⟨rfl, rfl⟩⟩
  · have idle := State.jobIn_none h
    refine ⟨fun o => ?_, fun o => ?_⟩
    · have program := State.programDone_idle idle o
      have verify := State.verifyDone_idle idle o
      simp only [List.forall_mem_cons, List.not_mem_nil, false_imp_iff, implies_true, and_true]
      exact ⟨program _, program _, program _, program _, program _, program _, program _, program _, program _, program _,
        program _, program _, program _, program _, program _, program _, verify _, program _, program _, program _,
        verify _⟩
    · have read := State.readDone_idle idle
      simp only [List.forall_mem_cons, List.not_mem_nil, false_imp_iff, implies_true, and_true]
      exact ⟨read _, read _, read _, read _, read _, read _⟩

end Sys2Proof.Machine

/-!
The take of a request (R174), and the requests that are answered in the step of their take without an array job: FIND and
LIST (R19 to R21), LOCK NAMESPACE (R91), CONFIGURE (R170), MAINTAIN (R135), HEALTH and IDENTIFY (R168, R169). Settles
O16, O18, O19, O32, O33, O34 and O35.
-/

namespace Sys2Proof.Machine

/-! ### Which request is taken next -/

/-- What makes a port one that can be taken from (R174). -/
theorem Device.canTake_iff (d : Device) (p : Port) :
    d.canTake p = true ↔ (d.port p).requests ≠ [] ∧ d.flights.length < 12 ∧ d.load p < p.depth := by
  unfold Device.canTake Device.load Config.maxInFlight
  simp only [Bool.and_eq_true, Bool.not_eq_true', List.isEmpty_eq_false_iff, decide_eq_true_eq, and_assoc, ne_eq]

/-- Of two ports that can be taken from the one the turn names comes first (R174). -/
theorem Device.nextPort_eq_some {d : Device} {p : Port} :
    d.nextPort = some p ↔ d.canTake p = true ∧ (d.turn = p ∨ d.canTake p.other = false) := by
  unfold Device.nextPort
  cases p <;> cases hp : d.canTake .primary <;> cases hs : d.canTake .service <;> simp [Port.other, hp, hs]

/-- Settles O16: the next request is the head of the queue of the port that can be taken from, by the turn. -/
theorem theNextRequestTakenFollowsTheTurn : Obligations.TheNextRequestTakenFollowsTheTurn := by
  unfold Obligations.TheNextRequestTakenFollowsTheTurn
  intro d
  refine ⟨fun off => ?_, fun on p r => ?_, fun p r => ?_⟩
  · unfold Device.nextTake
    rw [if_neg off]
  · rw [Device.nextTake_eq_some, Device.nextPort_eq_some, ← Bool.not_eq_true, Device.canTake_iff, Device.canTake_iff]
    have some_request : (d.port p).requests.head? = some r → (d.port p).requests ≠ [] := fun h e => by
      rw [e] at h
      cases h
    constructor
    · rintro ⟨-, ⟨⟨-, few, room⟩, turn⟩, head⟩
      refine ⟨head, few, room, turn.imp_right fun other => ?_⟩
      by_cases empty : (d.port p.other).requests = []
      · exact .inl empty
      · exact .inr (Nat.le_of_not_lt fun h => other ⟨empty, few, h⟩)
    · rintro ⟨head, few, room, turn⟩
      refine ⟨on, ⟨⟨some_request head, few, room⟩, turn.imp_right ?_⟩, head⟩
      rintro other ⟨requests, -, slots⟩
      exact other.elim requests fun full => absurd slots (Nat.not_lt.2 full)
  · refine ⟨rfl, by cases p <;> rfl, by cases p <;> rfl, ?_, by cases p <;> rfl, d.newFlightId_fresh, rfl⟩
    unfold Device.reserved Device.takeIn
    dsimp only
    rw [List.countP_append, List.countP_singleton]
    simp

/-! ### FIND and LIST -/

/-- The checks of LIST (R19). -/
def Device.listChecks (d : Device) (p : Port) (ns count : Byte) : List (Bool × Result) :=
  d.lookupChecks p ns ++ [(decide (count.toNat = 0) || decide (listLimit p < count.toNat), .badParameter)]

/-- The first four checks of R19 read nothing that a take changes. -/
@[simp] theorem Device.takeIn_lookupChecks (d : Device) (p : Port) (r : Request) (q : Port) (ns : Byte) :
    (d.takeIn p r).lookupChecks q ns = d.lookupChecks q ns := by
  simp [Device.lookupChecks]

/-- The checks of LIST read nothing that a take changes. -/
@[simp] theorem Device.takeIn_listChecks (d : Device) (p : Port) (r : Request) (q : Port) (ns count : Byte) :
    (d.takeIn p r).listChecks q ns count = d.listChecks q ns count := by
  simp [Device.listChecks]

section
variable {d : Device} {p : Port} {ns count : Byte} {key start : Key} {r : Result}

/-- A FIND that fails a check does nothing but answer (R19). -/
theorem Device.workFind_refused (h : firstFailure (d.lookupChecks p ns) = some r) (id : Nat) :
    d.workFind p id ns key = d.complete id r [] := by
  unfold Device.workFind
  rw [h]

/-- A FIND of a key without an entry answers NOT_FOUND (R20). -/
theorem Device.workFind_absent (h : firstFailure (d.lookupChecks p ns) = none) (he : d.entryOf ns key = none)
    (id : Nat) : d.workFind p id ns key = d.complete id .notFound [] := by
  unfold Device.workFind
  rw [h, he]

/-- A FIND of a key with an entry reports it (R20). -/
theorem Device.workFind_present {e : Entry} (h : firstFailure (d.lookupChecks p ns) = none)
    (he : d.entryOf ns key = some e) (id : Nat) :
    d.workFind p id ns key = d.complete id .ok (findReply e (d.desc e.name.ns).mirrored) := by
  unfold Device.workFind
  rw [h, he]

/-- A LIST that fails a check does nothing but answer (R19). -/
theorem Device.workList_refused (h : firstFailure (d.listChecks p ns count) = some r) (id : Nat) :
    d.workList p id ns start count = d.complete id r [] := by
  unfold Device.listChecks at h
  unfold Device.workList
  rw [h]

/-- A LIST that passes its checks reports the namespace from the start key on (R21). -/
theorem Device.workList_passed {n : NsIndex} (h : firstFailure (d.listChecks p ns count) = none)
    (hn : d.nsOf ns = some n) (id : Nat) :
    d.workList p id ns start count
      = d.complete id .ok (listReply ((d.walk n start).take count.toNat) ((d.walk n start).drop count.toNat).head?) := by
  unfold Device.listChecks at h
  unfold Device.workList
  rw [h, hn]

end

/-- Settles O18: the statement's checks are the model's, and its three outcomes are the three of the work. -/
theorem findReportsTheEntry : Obligations.FindReportsTheEntry := by
  unfold Obligations.FindReportsTheEntry
  intro s p tag ns key h checks
  change s.Takes p tag _ at h
  have same : checks = s.lookupChecks p ns := rfl
  rw [same]
  refine ⟨fun r hr => ?_, fun pass he => ?_, fun e pass he => ?_⟩
  · exact State.takes_answered h Device.doFind (Device.workFind_refused (by simpa using hr) _)
  · exact State.takes_answered h Device.doFind (Device.workFind_absent (by simpa using pass) (by simpa using he) _)
  · refine State.takes_answered h Device.doFind
      ((Device.workFind_present (e := e) (by simpa using pass) (by simpa using he) _).trans ?_)
    rw [Device.takeIn_desc]
    rfl

/-- Settles O19: the statement's checks are the model's, and what it lists is the walk of the model. -/
theorem listWalksTheNamespace : Obligations.ListWalksTheNamespace := by
  unfold Obligations.ListWalksTheNamespace
  intro s p tag ns start count h checks
  have same : checks = s.listChecks p ns count := by
    unfold checks Device.listChecks Device.lookupChecks listLimit
    rfl
  rw [same]
  refine ⟨fun r hr => ?_, fun n pass hn => ?_⟩
  · exact State.takes_answered h Device.doList (Device.workList_refused (by simpa using hr) _)
  · refine State.takes_answered h Device.doList
      ((Device.workList_passed (n := n) (by simpa using pass) (by simpa using hn) _).trans ?_)
    rw [Device.takeIn_walk]
    rfl

/-! ### LOCK NAMESPACE -/

/-- A LOCK NAMESPACE that fails a check does nothing but answer (R91). -/
theorem Device.workLock_refused {d : Device} {p : Port} {ns : Byte} {r : Result}
    (h : firstFailure (d.claimChecks p ns) = some r) (id : Nat) : d.workLock p id ns = d.complete id r [] := by
  unfold Device.workLock
  rw [h]

/-- A LOCK NAMESPACE that passes its checks sets the lock, and answers with the one before it (R91). -/
theorem Device.workLock_passed {d : Device} {p : Port} {ns : Byte} {n : NsIndex}
    (h : firstFailure (d.claimChecks p ns) = none) (hn : d.nsOf ns = some n) (id : Nat) :
    d.workLock p id ns
      = { d with locks := d.locks.set n true }.complete id .ok (leBytes 1 (flagCode d.locks[n])) := by
  unfold Device.workLock
  rw [h, hn]

/-- An answer reads no lock. -/
theorem Device.complete_locks (d : Device) (locks : Vector Bool 8) (id : Nat) (r : Result) (reply : List Byte) :
    ({ d with locks := locks } : Device).complete id r reply = { d.complete id r reply with locks := locks } := by
  unfold Device.complete Device.flight?
  dsimp only
  split
  · rfl
  · rename_i f _
    split
    · rfl
    · cases f.port <;> rfl

/-- Settles O32: the checks are those of R91, and the lock set does not meet the answer. -/
theorem lockNamespaceSetsTheLock : Obligations.LockNamespaceSetsTheLock := by
  unfold Obligations.LockNamespaceSetsTheLock
  intro s p tag ns h checks
  have same : checks = s.claimChecks p ns := (Device.claimChecks_eq _ _ _).symm
  rw [same]
  refine ⟨fun r hr => ?_, fun n pass hn => ?_⟩
  · exact State.takes_answered h Device.doLock (Device.workLock_refused (by simpa using hr) _)
  · refine (State.takes_next h Device.doLock).trans ?_
    unfold Device.doLock
    dsimp only
    rw [Device.workLock_passed (by simpa using pass) (by simpa using hn), Device.complete_locks,
      Device.complete_takeIn, Device.takeIn_locks]
    rfl

/-! ### CONFIGURE -/

/-- The checks of CONFIGURE (R170). -/
def Device.configureChecks (d : Device) (p : Port) (timeout : BitVec 16) (threshold mode : Byte) (spread : BitVec 16)
    (pa sa : Byte) : List (Bool × Result) :=
  d.primaryChecks p ++ [(!configureOk timeout threshold mode spread pa sa, .badParameter)]

/-- A field of all ones or in its range, said of the field (R181). -/
theorem fieldOk_eq {w : Nat} (v ones : BitVec w) (lo hi : Nat) :
    fieldOk ones.toNat lo hi v.toNat
      = (decide (v = ones) || (decide (lo ≤ v.toNat) && decide (v.toNat ≤ hi))) := by
  unfold fieldOk
  rw [decide_eq_decide.2 BitVec.toNat_inj, Bool.decide_and]

/-- A new value, said of the field (R181). -/
theorem fieldNew_eq {w : Nat} (v ones : BitVec w) (old : Nat) :
    fieldNew ones.toNat v.toNat old = if v = ones then old else v.toNat := by
  unfold fieldNew
  rw [if_congr BitVec.toNat_inj rfl rfl]

/-- An answer reads no setting and no alert enable. -/
theorem Device.complete_configured (d : Device) (timeout : BitVec 16) (threshold mode : Byte) (spread : BitVec 16)
    (pa sa : Byte) (id : Nat) (r : Result) (reply : List Byte) :
    (d.configured timeout threshold mode spread pa sa).complete id r reply
      = (d.complete id r reply).configured timeout threshold mode spread pa sa := by
  unfold Device.complete Device.flight? Device.configured
  dsimp only
  split
  · rfl
  · rename_i f _
    split
    · rfl
    · cases f.port <;> rfl

section
variable {d : Device} {p : Port} {timeout spread : BitVec 16} {threshold mode pa sa : Byte}

/-- A CONFIGURE that fails a check does nothing but answer (R170). -/
theorem Device.workConfigure_refused {r : Result}
    (h : firstFailure (d.configureChecks p timeout threshold mode spread pa sa) = some r) (id : Nat) :
    d.workConfigure p id timeout threshold mode spread pa sa = d.complete id r [] := by
  unfold Device.configureChecks at h
  unfold Device.workConfigure
  rw [h]

/-- A CONFIGURE that passes its checks sets the settings and answers with them (R170). -/
theorem Device.workConfigure_passed
    (h : firstFailure (d.configureChecks p timeout threshold mode spread pa sa) = none) (id : Nat) :
    d.workConfigure p id timeout threshold mode spread pa sa
      = (d.configured timeout threshold mode spread pa sa).complete id .ok
          (d.configured timeout threshold mode spread pa sa).settingsReply := by
  unfold Device.configureChecks at h
  unfold Device.workConfigure
  rw [h]

/-- The device with every new value set, said of the settings it had (R170, R181). -/
theorem Device.configured_eq {x : Settings} {a b : Bool} (hx : d.settings = x) (ha : d.primary.alertEnable = a)
    (hb : d.service.alertEnable = b) :
    d.configured timeout threshold mode spread pa sa
      = { d with
          settings :=
            { timeout := if timeout = 0xFFFF then x.timeout else timeout.toNat
              threshold := if threshold = 0xFF then x.threshold else threshold.toNat
              mode := if mode = 0xFF then x.mode else if mode = 0 then .auto else .manual
              wearSpread := if spread = 0xFFFF then x.wearSpread else spread.toNat }
          primary := { d.primary with alertEnable := if pa = 0xFF then a else decide (pa = 1) }
          service := { d.service with alertEnable := if sa = 0xFF then b else decide (sa = 1) } } := by
  subst hx ha hb
  rw [← fieldNew_eq, ← fieldNew_eq, ← fieldNew_eq]
  rfl

/-- The checks of CONFIGURE as R170 and R181 word them. -/
theorem Device.configureChecks_eq :
    d.configureChecks p timeout threshold mode spread pa sa
      = [ (decide (p = .service), .denied), (decide (d.phase ≠ .ready) && decide (d.phase ≠ .worn), .notReady),
          (!((decide (timeout = 0xFFFF) || decide (timeout.toNat ≤ 255))
            && (decide (threshold = 0xFF) || (decide (4 ≤ threshold.toNat) && decide (threshold.toNat ≤ 8)))
            && (decide (mode = 0xFF) || decide (mode.toNat ≤ 1))
            && (decide (spread = 0xFFFF) || (decide (64 ≤ spread.toNat) && decide (spread.toNat ≤ 1024)))
            && (decide (pa = 0xFF) || decide (pa.toNat ≤ 1)) && (decide (sa = 0xFF) || decide (sa.toNat ≤ 1))),
            .badParameter) ] := by
  unfold Device.configureChecks Device.primaryChecks configureOk
  have word (v : BitVec 16) (lo hi : Nat) := fieldOk_eq v 0xFFFF lo hi
  have byte (v : Byte) (lo hi : Nat) := fieldOk_eq v 0xFF lo hi
  simp only [show (0xFFFF : BitVec 16).toNat = 0xFFFF from rfl, show (0xFF : Byte).toNat = 0xFF from rfl] at word byte
  rw [Phase.notReady_eq]
  simp only [word, byte, Nat.zero_le, decide_true, Bool.true_and]
  rfl

end

/-- Settles O33: the checks read as the rule words them, and the effect is the model's, which an answer does not meet. -/
theorem configureSetsEveryNewValue : Obligations.ConfigureSetsEveryNewValue := by
  unfold Obligations.ConfigureSetsEveryNewValue
  intro s p tag timeout threshold mode spread pa sa body h inRange checks
  have same : checks = s.configureChecks p timeout threshold mode spread pa sa := Device.configureChecks_eq.symm
  have taken : (s.takeIn p { tag := tag, body := body }).configureChecks p timeout threshold mode spread pa sa
      = s.configureChecks p timeout threshold mode spread pa sa := by
    rw [Device.configureChecks_eq, Device.configureChecks_eq, Device.takeIn_phase]
  rw [same]
  refine ⟨fun r hr => ?_, fun pass => ?_⟩
  · exact State.takes_answered h Device.doConfigure (Device.workConfigure_refused (by rw [taken]; exact hr) _)
  · intro t th m w a b
    have before : (s.takeIn p { tag := tag, body := body }).primary.alertEnable = s.primary.alertEnable
        ∧ (s.takeIn p { tag := tag, body := body }).service.alertEnable = s.service.alertEnable := by
      cases p <;> exact ⟨rfl, rfl⟩
    have after (reply : List Byte) :
        (s.answered p { tag := tag, body := body } .ok reply).settings = s.settings
        ∧ (s.answered p { tag := tag, body := body } .ok reply).primary.alertEnable = s.primary.alertEnable
        ∧ (s.answered p { tag := tag, body := body } .ok reply).service.alertEnable = s.service.alertEnable := by
      cases p <;> exact ⟨rfl, rfl, rfl⟩
    obtain ⟨settings, primary, service⟩ :=
      after (leBytes 1 t ++ leBytes 1 th ++ leBytes 1 m.code ++ leBytes 2 w ++ leBytes 1 (if a then 1 else 0)
        ++ leBytes 1 (if b then 1 else 0))
    have reply : ((s.takeIn p { tag := tag, body := body }).configured timeout threshold mode spread pa sa).settingsReply
        = leBytes 1 t ++ leBytes 1 th ++ leBytes 1 m.code ++ leBytes 2 w ++ leBytes 1 (if a then 1 else 0)
          ++ leBytes 1 (if b then 1 else 0) := by
      rw [Device.configured_eq (Device.takeIn_settings ..) before.1 before.2]
      rfl
    refine (State.takes_next h Device.doConfigure).trans ?_
    change Host.Outcome.next { s with toDevice := s.takeEnd (Device.workConfigure _ p s.newFlightId timeout threshold mode
      spread pa sa) } = _
    rw [Device.workConfigure_passed (by rw [taken]; exact pass), Device.complete_configured, Device.complete_takeIn,
      reply, Device.configured_eq settings primary service]
    rfl

/-! ### MAINTAIN -/

/-- Settles O34: a MAINTAIN that passes starts a run as the model starts it. -/
theorem maintainStartsARun : Obligations.MaintainStartsARun := by
  unfold Obligations.MaintainStartsARun
  intro s p tag h checks
  have same (d : Device) (hp : d.phase = s.phase) (hm : d.maint = s.maint) :
      [(d.phase.notReady, Result.notReady), (decide (d.maint.run ≠ .idle), .maintBusy)] = checks := by
    rw [hp, hm, Phase.notReady_eq]
  have refused (id : Nat) (r : Result) (hr : firstFailure checks = some r) :
      (s.takeIn p { tag := tag, body := .maintain }).workMaintain p id
        = (s.takeIn p { tag := tag, body := .maintain }).complete id r [] := by
    unfold Device.workMaintain
    rw [same _ (Device.takeIn_phase ..) (Device.takeIn_maint ..), hr]
  have passed (id : Nat) (pass : firstFailure checks = none) :
      (s.takeIn p { tag := tag, body := .maintain }).workMaintain p id
        = ((s.takeIn p { tag := tag, body := .maintain }).setWork id .maintain).startRun (.maintain p) := by
    unfold Device.workMaintain
    rw [same _ (Device.takeIn_phase ..) (Device.takeIn_maint ..), pass]
  refine ⟨fun r hr => ?_, fun pass => ?_⟩
  · exact State.takes_answered h Device.doMaintain (refused _ r hr)
  · refine State.takes_begun h Device.doMaintain ((passed _ pass).trans ?_)
    unfold Device.startRun
    dsimp only
    rw [Device.setWork_phase, Device.takeIn_phase]
    rfl

/-! ### HEALTH and IDENTIFY -/

/-- HEALTH reads the pool, the engines, the Maintenance Unit, the layout and the phase (R168). -/
theorem Device.healthReply_congr {d d' : Device} (hp : d'.pool = d.pool) (he : d'.engines = d.engines)
    (hm : d'.maint = d.maint) (hl : d'.layout = d.layout) (hf : d'.phase = d.phase) :
    d'.healthReply = d.healthReply := by
  have bank (b : Bank) : d'.bankHealth b = d.bankHealth b := by
    unfold Device.bankHealth Device.factoryBad Device.countStateIn
    rw [hp, he]
  have good : d'.goodTotal = d.goodTotal := by
    unfold Device.goodTotal
    rw [hp]
  have counts : d'.goodCounts = d.goodCounts := by
    unfold Device.goodCounts
    rw [hp]
  unfold Device.healthReply Device.margin Device.quotaSum Device.highestCount Device.lowestCount Device.averageCount
    Device.estimatedCount
  rw [bank, bank, bank, bank, good, counts, hp, hm, hl, hf]

/-- Settles O35: the replies are those of the model, read from what a take leaves alone. -/
theorem healthAndIdentifyAreServedInEveryPhase : Obligations.HealthAndIdentifyAreServedInEveryPhase := by
  unfold Obligations.HealthAndIdentifyAreServedInEveryPhase
  refine ⟨fun s p tag h => ?_, fun s p tag h => ?_⟩
  · intro blocks inState factory bank
    refine State.takes_answered h Device.doHealth (congrArg (Device.complete _ s.newFlightId .ok) ?_)
    exact Device.healthReply_congr (Device.takeIn_pool ..) (Device.takeIn_engines ..) (Device.takeIn_maint ..)
      (Device.takeIn_layout ..) (Device.takeIn_phase ..)
  · refine State.takes_answered h Device.doIdentify (congrArg (Device.complete _ s.newFlightId .ok) ?_)
    unfold Device.identifyReply
    rw [Device.takeIn_identity, Device.takeIn_layout]
    rfl

end Sys2Proof.Machine

/-!
Requests that name an update context: the checks of R25, PUT CHUNK (R30, R31), COMMIT (R36) with the CRC-32 of the body,
ABANDON (R42) and the idle timer (R44). Settles O23, O24, O25 and O27.
-/

namespace Sys2Proof.Machine

/-! ### Handles -/

/-- A slot number and a sequence make one handle (R24). -/
theorem Device.handle_slot_inj (d : Device) {i k : SlotIndex} (h : d.handle i = d.handle k) : i = k := by
  have hi := i.isLt
  have hk := k.isLt
  have si := d.slots[i].seq.isLt
  have sk := d.slots[k].seq.isLt
  have nums := congrArg BitVec.toNat h
  unfold Device.handle at nums
  rw [BitVec.toNat_ofNat, BitVec.toNat_ofNat] at nums
  exact Fin.ext (by omega)

/-- A handle names the slot in use that has it (R25). -/
theorem Device.slotOf_eq_some {d : Device} {i : SlotIndex} {handle : BitVec 16} :
    d.slotOf handle = some i ↔ d.handle i = handle ∧ d.ctx? i ≠ none := by
  unfold Device.slotOf
  constructor
  · intro h
    have found := List.find?_some h
    simpa [Option.isSome_iff_ne_none] using found
  · rintro ⟨same, used⟩
    have test : (decide (d.handle i = handle) && (d.ctx? i).isSome) = true := by
      simpa [Option.isSome_iff_ne_none] using ⟨same, used⟩
    cases found : allSlots.find? fun i => decide (d.handle i = handle) && (d.ctx? i).isSome with
    | none =>
      have mem : i ∈ allSlots := by rw [allSlots_eq_finRange]; exact List.mem_finRange i
      exact absurd test (List.find?_eq_none.1 found i mem)
    | some k =>
      have other := List.find?_some found
      simp only [Bool.and_eq_true, decide_eq_true_eq] at other
      rw [d.handle_slot_inj (other.1.trans same.symm)]

/-- A handle that no slot in use has names none (R25). -/
theorem Device.slotOf_eq_none {d : Device} {handle : BitVec 16} (h : ∀ i : SlotIndex, d.ctx? i ≠ none → handle ≠ d.handle i) :
    d.slotOf handle = none := by
  cases found : d.slotOf handle with
  | none => rfl
  | some i =>
    obtain ⟨same, used⟩ := Device.slotOf_eq_some.1 found
    exact absurd same.symm (h i used)

/-- In READY and WORN no phase check fails. -/
theorem Phase.notReady_of_serving {x : Phase} (h : x = .ready ∨ x = .worn) : x.notReady = false := by
  rcases h with rfl | rfl <;> rfl

/-- The checks of R25 read nothing that a take changes. -/
@[simp] theorem Device.takeIn_handleChecks (d : Device) (p : Port) (r : Request) (q : Port) (handle : BitVec 16) :
    (d.takeIn p r).handleChecks q handle = d.handleChecks q handle := by
  simp [Device.handleChecks]

section
variable {d : Device} {p : Port} {handle : BitVec 16} {i : SlotIndex} {c : Ctx}

/-- A phase before READY and HALTED answer NOT_READY (R25). -/
theorem Device.handleChecks_notReady (hr : d.phase ≠ .ready) (hw : d.phase ≠ .worn) :
    firstFailure (d.handleChecks p handle) = some .notReady := by
  unfold Device.handleChecks
  rw [Phase.notReady_eq]
  simp [firstFailure, hr, hw]

/-- A handle that names no slot answers HANDLE_STALE (R25). -/
theorem Device.handleChecks_stale (h : d.phase = .ready ∨ d.phase = .worn) (hs : d.slotOf handle = none) :
    firstFailure (d.handleChecks p handle) = some .handleStale := by
  unfold Device.handleChecks
  rw [Phase.notReady_of_serving h, hs]
  rfl

/-- A handle of another port's context answers DENIED (R25). -/
theorem Device.handleChecks_denied (h : d.phase = .ready ∨ d.phase = .worn) (hs : d.slotOf handle = some i)
    (hc : d.ctx? i = some c) (other : c.owner ≠ p) :
    firstFailure (d.handleChecks p handle) = some .denied := by
  unfold Device.handleChecks
  rw [Phase.notReady_of_serving h, hs]
  simp [firstFailure, hc, other]

/-- A handle of a context of the requester's passes the checks of R25. -/
theorem Device.handleChecks_passed (h : d.phase = .ready ∨ d.phase = .worn) (hs : d.slotOf handle = some i)
    (hc : d.ctx? i = some c) (own : c.owner = p) : firstFailure (d.handleChecks p handle) = none := by
  unfold Device.handleChecks
  rw [Phase.notReady_of_serving h, hs]
  simp [firstFailure, hc, own]

end

/-- A request that the checks of R25 refuse is answered, whichever of the three it is. -/
theorem State.handle_refused {s : State} {p : Port} {tag : Byte} {handle : BitVec 16} {index : Byte} {data : List Byte}
    {body : Req} {r : Result} (hb : body = .putChunk handle index data ∨ body = .commit handle ∨ body = .abandon handle)
    (h : s.Takes p tag body) (hr : firstFailure (s.handleChecks p handle) = some r) :
    exec body.kind.row s = .next (s.answers p tag body r []) := by
  have taken : firstFailure ((s.takeIn p { tag := tag, body := body }).handleChecks p handle) = some r := by
    simpa using hr
  rcases hb with rfl | rfl | rfl
  · refine State.takes_answered h Device.doPut ?_
    change Device.workPut _ _ _ _ _ _ = _
    unfold Device.workPut
    rw [taken]
  · refine State.takes_answered h Device.doCommit ?_
    change Device.workCommit _ _ _ _ = _
    unfold Device.workCommit
    rw [taken]
  · refine State.takes_answered h Device.doAbandon ?_
    change Device.workAbandon _ _ _ _ = _
    unfold Device.workAbandon
    rw [taken]

/-- Settles O23: each clause makes one check of R25 the first that fails. -/
theorem aHandleIsCheckedFirst : Obligations.AHandleIsCheckedFirst := by
  unfold Obligations.AHandleIsCheckedFirst
  intro s p tag handle index data body hb h
  refine ⟨fun hr hw => ?_, fun serving stale => ?_, fun i c serving hc same other => ?_⟩
  · exact State.handle_refused hb h (Device.handleChecks_notReady hr hw)
  · exact State.handle_refused hb h (Device.handleChecks_stale serving (Device.slotOf_eq_none stale))
  · have slot : s.slotOf handle = some i := Device.slotOf_eq_some.2 ⟨same.symm, by rw [hc]; nofun⟩
    exact State.handle_refused hb h (Device.handleChecks_denied serving slot hc other)

/-! ### A context that a request names -/

section
variable {d : Device} {i : SlotIndex} {c : Ctx}

/-- A request that names a context stops its timer and counts among its requests (R43). -/
theorem Device.enterContext_eq (h : d.ctx? i = some c) :
    d.enterContext i = d.setCtx i { c with requests := c.requests + 1, timer := none } := by
  unfold Device.enterContext
  rw [h]

/-- A request that names a context and is refused leaves the timer started, of an OPEN context with no other request, or
stopped (R43). -/
theorem Device.completeNaming_entered (d : Device) (i : SlotIndex) (c : Ctx) (id : Nat) (r : Result)
    (reply : List Byte) :
    (d.setCtx i { c with requests := c.requests + 1, timer := none }).completeNaming i id r reply
      = (d.complete id r reply).setCtx i { c with
          timer := if c.requests = 0 ∧ c.state = .open then d.timerStart else none } := by
  unfold Device.completeNaming Device.leaveContext
  rw [Device.ctx?_setCtx_self]
  dsimp only
  rw [Device.setCtx_setCtx, Device.complete_setCtx, Nat.add_sub_cancel]
  rfl

end

/-- The checks of PUT CHUNK after those of R25 read nothing that a take or a context changes. -/
theorem Device.putChecks_congr {d d' : Device} (hp : d'.phase = d.phase) (hl : d'.locks = d.locks) (c : Ctx)
    (index : Byte) (data : List Byte) : d'.putChecks c index data = d.putChecks c index data := by
  unfold Device.putChecks
  rw [hp, hl]

/-- The checks of COMMIT after those of R25 read nothing that a take or a context changes. -/
theorem Device.commitChecks_congr {d d' : Device} (hp : d'.phase = d.phase) (hl : d'.locks = d.locks) (c : Ctx) :
    d'.commitChecks c = d.commitChecks c := by
  unfold Device.commitChecks
  rw [hp, hl]

section
variable {d : Device} {p : Port} {handle : BitVec 16} {i : SlotIndex} {c : Ctx}

/-- A PUT CHUNK past the checks of R25 makes its own (R30). -/
theorem Device.workPut_named (h : firstFailure (d.handleChecks p handle) = none) (hs : d.slotOf handle = some i)
    (hc : d.ctx? i = some c) (id : Nat) (index : Byte) (data : List Byte) :
    d.workPut p id handle index data
      = match firstFailure (d.putChecks c index data) with
        | some r => (d.complete id r []).setCtx i { c with
            timer := if c.requests = 0 ∧ c.state = .open then d.timerStart else none }
        | none => (d.setCtx i { c with requests := c.requests + 1, timer := none }).beginPut i
            { c with requests := c.requests + 1, timer := none } id index.toNat data := by
  unfold Device.workPut
  rw [h, hs]
  dsimp only
  rw [Device.enterContext_eq hc, Device.ctx?_setCtx_self]
  dsimp only
  rw [Device.putChecks_congr (d := d) rfl rfl]
  change (match firstFailure (d.putChecks c index data) with | some _ => _ | none => _) = _
  cases firstFailure (d.putChecks c index data) with
  | none => rfl
  | some r => exact Device.completeNaming_entered d i c id r []

/-- A COMMIT past the checks of R25 makes its own (R36). -/
theorem Device.workCommit_named (h : firstFailure (d.handleChecks p handle) = none) (hs : d.slotOf handle = some i)
    (hc : d.ctx? i = some c) (id : Nat) :
    d.workCommit p id handle
      = match firstFailure (d.commitChecks c) with
        | some r => (d.complete id r []).setCtx i { c with
            timer := if c.requests = 0 ∧ c.state = .open then d.timerStart else none }
        | none => (d.setCtx i { c with requests := c.requests + 1, timer := none }).beginCommit i
            { c with requests := c.requests + 1, timer := none } id := by
  unfold Device.workCommit
  rw [h, hs]
  dsimp only
  rw [Device.enterContext_eq hc, Device.ctx?_setCtx_self]
  dsimp only
  rw [Device.commitChecks_congr (d := d) rfl rfl]
  change (match firstFailure (d.commitChecks c) with | some _ => _ | none => _) = _
  cases firstFailure (d.commitChecks c) with
  | none => rfl
  | some r => exact Device.completeNaming_entered d i c id r []

/-- An ABANDON past the checks of R25 turns on the state of its context (R42). -/
theorem Device.workAbandon_named (h : firstFailure (d.handleChecks p handle) = none) (hs : d.slotOf handle = some i)
    (hc : d.ctx? i = some c) (id : Nat) :
    d.workAbandon p id handle
      = if c.state ≠ .open then
          (d.complete id .recordBusy []).setCtx i { c with
            timer := if c.requests = 0 ∧ c.state = .open then d.timerStart else none }
        else ((d.setCtx i { c with requests := c.requests + 1, timer := none }).setWork id (.abandon i)).beginAbandon i := by
  unfold Device.workAbandon
  rw [h, hs]
  dsimp only
  rw [Device.enterContext_eq hc, Device.ctx?_setCtx_self]
  dsimp only
  rw [Device.completeNaming_entered]

end

/-- What the checks of R25 read before the take of a request that names a context of its own. -/
theorem State.named_passes {s : State} {p : Port} {handle : BitVec 16} {i : SlotIndex} {c : Ctx}
    (serving : s.phase = .ready ∨ s.phase = .worn) (hc : s.ctx? i = some c)
    (same : handle = BitVec.ofNat 16 (i.val * 256 + s.slots[i].seq.toNat)) (own : c.owner = p) (r : Request) :
    firstFailure ((s.takeIn p r).handleChecks p handle) = none ∧ (s.takeIn p r).slotOf handle = some i
      ∧ (s.takeIn p r).ctx? i = some c := by
  have slot : s.slotOf handle = some i := Device.slotOf_eq_some.2 ⟨same.symm, by rw [hc]; nofun⟩
  refine ⟨?_, ?_, ?_⟩
  · rw [Device.takeIn_handleChecks]
    exact Device.handleChecks_passed serving slot hc own
  · rw [Device.takeIn_slotOf]
    exact slot
  · rw [Device.takeIn_ctx]
    exact hc

/-- A row that answers its request and then changes the context it names (R175). -/
theorem State.takes_answeredWith_setCtx {s : State} {p : Port} {tag : Byte} {body : Req} {r : Result} {i : SlotIndex}
    {c : Ctx} (h : s.Takes p tag body) (w : Device → Port → Nat → Req → Device)
    (hw : w (s.takeIn p { tag := tag, body := body }) p s.newFlightId body
      = ((s.takeIn p { tag := tag, body := body }).complete s.newFlightId r []).setCtx i c) :
    (Host.Outcome.next { s with toDevice := s.toDevice.takes body.kind w } : Host.Outcome State Fault Refusal)
      = .next (s.answersWith p tag body r [] fun d => d.setCtx i c) := by
  rw [State.takes_next h w, hw, Device.complete_takeIn]
  rfl

/-- Settles O24: a PUT CHUNK past R25 does what its own list of checks says. -/
theorem putChunkAsksForItsBlocks : Obligations.PutChunkAsksForItsBlocks := by
  unfold Obligations.PutChunkAsksForItsBlocks
  intro s p tag handle index data i c h serving hc same own k checks
  obtain ⟨pass, slot, ctx⟩ := State.named_passes serving hc same own { tag := tag, body := .putChunk handle index data }
  have checks_eq : (s.takeIn p { tag := tag, body := .putChunk handle index data }).putChecks c index data = checks :=
    Device.putChecks_congr (Device.takeIn_phase ..) (Device.takeIn_locks ..) c index data
  have work := Device.workPut_named pass slot ctx s.newFlightId index data
  rw [checks_eq, Device.takeIn_timerStart] at work
  refine ⟨fun r hr => ?_, fun passed => ?_⟩
  · rw [hr] at work
    exact State.takes_answeredWith_setCtx h Device.doPut work
  · rw [passed] at work
    refine State.takes_begun h Device.doPut (work.trans ?_)
    unfold Device.beginPut
    dsimp only
    rw [Device.setCtx_setCtx]
    rfl

/-! ### The CRC-32 of two runs of bytes -/

/-- One bit of the CRC-32 register is linear. -/
theorem crc32Bit_xor (x y : BitVec 32) : crc32Bit (x ^^^ y) = crc32Bit x ^^^ crc32Bit y := by
  unfold crc32Bit
  rw [BitVec.getLsbD_xor, BitVec.ushiftRight_xor_distrib]
  cases x.getLsbD 0 <;> cases y.getLsbD 0 <;> simp
  · rw [BitVec.xor_assoc]
  · rw [BitVec.xor_assoc, BitVec.xor_assoc]
    congr 1
    rw [BitVec.xor_comm]
  · rw [BitVec.xor_assoc, BitVec.xor_comm (y >>> 1), ← BitVec.xor_assoc 0xEDB88320#32, BitVec.xor_self, BitVec.zero_xor]

/-- One byte of the CRC-32 register: a change of the register goes through as a byte of zero does. -/
theorem crc32Byte_xor (x y : BitVec 32) (b : Byte) : crc32Byte (x ^^^ y) b = crc32Byte x b ^^^ crc32Byte y 0 := by
  unfold crc32Byte
  dsimp only
  have start : x ^^^ y ^^^ b.setWidth 32 = (x ^^^ b.setWidth 32) ^^^ (y ^^^ (0 : Byte).setWidth 32) := by
    rw [show (0 : Byte).setWidth 32 = 0#32 from rfl, BitVec.xor_zero, BitVec.xor_assoc, BitVec.xor_assoc,
      BitVec.xor_comm y]
  rw [start]
  simp only [crc32Bit_xor]

/-- The register run over bytes: a change of its start goes through as a run of zeros does. -/
theorem crc32_register_xor (bytes : List Byte) (x y : BitVec 32) :
    bytes.foldl crc32Byte (x ^^^ y) = bytes.foldl crc32Byte x ^^^ crc32Zeros bytes.length y := by
  induction bytes generalizing x y with
  | nil => rfl
  | cons b bytes ih =>
    rw [List.foldl_cons, crc32Byte_xor, ih]
    rfl

/-- The join of two CRC-32 values is that of the two runs of bytes in order (R36). -/
theorem crc32Join_eq (first second : List Byte) :
    crc32Join (crc32 first) (crc32 second) second.length = crc32 (first ++ second) := by
  unfold crc32Join crc32
  rw [List.foldl_append]
  generalize first.foldl crc32Byte 0xFFFFFFFF = r
  have split : r = 0xFFFFFFFF ^^^ ~~~r := by
    rw [show (0xFFFFFFFF : BitVec 32) = BitVec.allOnes 32 from rfl, BitVec.allOnes_xor, BitVec.not_not]
  have run := crc32_register_xor second 0xFFFFFFFF (~~~r)
  rw [← split] at run
  rw [run, BitVec.not_xor_left, BitVec.xor_comm]

/-- The chunks of a body in order are the body, up to the last one taken. -/
theorem Ctx.bodyCrc_prefix {c : Ctx} {body : List Byte} (hl : body.length = c.bodyLength) (n : Nat)
    (hcrc : ∀ k, k < n → (c.chunkAt k).crc = crc32 (sliceBytes body (3328 * k) 3328)) :
    (List.range n).foldl
        (fun crc k => crc32Join crc (c.chunkAt k).crc (chunkLengthOf c.bodyLength k)) 0
      = crc32 (body.take (3328 * n)) := by
  induction n with
  | zero => simp [crc32]
  | succ n ih =>
    have length : (sliceBytes body (3328 * n) 3328).length = chunkLengthOf c.bodyLength n := by
      unfold sliceBytes chunkLengthOf Config.chunkBytes
      rw [List.length_take, List.length_drop, hl, Nat.min_comm]
    have joined : body.take (3328 * (n + 1)) = body.take (3328 * n) ++ sliceBytes body (3328 * n) 3328 := by
      unfold sliceBytes
      rw [Nat.mul_succ, List.take_add]
    rw [List.range_succ, List.foldl_append, ih fun k hk => hcrc k (by omega), List.foldl_cons, List.foldl_nil,
      hcrc n (by omega), ← length, crc32Join_eq, joined]

/-- The body CRC-32 that a context forms is that of the body, when its chunk CRC-32 values are those of its shares
(R36). -/
theorem Ctx.bodyCrc_eq {c : Ctx} {body : List Byte} (hl : body.length = c.bodyLength)
    (hn : c.chunkCount = (c.bodyLength + 3327) / 3328)
    (hcrc : ∀ k, k < c.chunkCount → (c.chunkAt k).crc = crc32 (sliceBytes body (3328 * k) 3328)) :
    c.bodyCrc = crc32 body := by
  unfold Ctx.bodyCrc
  rw [Ctx.bodyCrc_prefix hl _ hcrc, List.take_of_length_le (by omega)]

/-- Settles O25: a COMMIT past R25 does what its own list of checks says, and the CRC-32 values join. -/
theorem commitQueuesTheCommitRecord : Obligations.CommitQueuesTheCommitRecord := by
  unfold Obligations.CommitQueuesTheCommitRecord
  refine ⟨fun s p tag handle i c h serving hc same own => ?_, fun c body hl hn hcrc => Ctx.bodyCrc_eq hl hn hcrc⟩
  intro checks
  obtain ⟨pass, slot, ctx⟩ := State.named_passes serving hc same own { tag := tag, body := .commit handle }
  have checks_eq : (s.takeIn p { tag := tag, body := .commit handle }).commitChecks c = checks :=
    Device.commitChecks_congr (Device.takeIn_phase ..) (Device.takeIn_locks ..) c
  have work := Device.workCommit_named pass slot ctx s.newFlightId
  rw [checks_eq, Device.takeIn_timerStart] at work
  refine ⟨fun r hr => ?_, fun a passed ha => ?_⟩
  · rw [hr] at work
    exact State.takes_answeredWith_setCtx h Device.doCommit work
  · rw [passed] at work
    refine State.takes_begun h Device.doCommit (work.trans ?_)
    unfold Device.beginCommit
    rw [show Ctx.chunkAt { c with requests := c.requests + 1, timer := none } 0 = c.chunkAt 0 from rfl, ha]
    dsimp only
    rw [Device.setCtx_setCtx]
    rfl

/-! ### The idle timer -/

/-- Settles O27: the row tests that the timer runs, and a timer that runs is that of an OPEN context. -/
theorem anIdleTimerThatRunsOutAbandonsItsContext : Obligations.AnIdleTimerThatRunsOutAbandonsItsContext := by
  unfold Obligations.AnIdleTimerThatRunsOutAbandonsItsContext
  intro s i
  refine ⟨fun c on hc hopen timer => ?_, fun idle => ?_⟩
  · have started : c.timer.isSome = true := Option.isSome_iff_ne_none.2 timer
    have runs : s.timerRuns i = true := by
      unfold Device.timerRuns
      simp [hc, hopen, started]
    change execIdleTimerExpiry i s = _
    unfold execIdleTimerExpiry Device.timerExpired
    rw [if_pos ⟨on, runs⟩, hc]
    dsimp only
    rw [if_pos ⟨hopen, started⟩]
  · change execIdleTimerExpiry i s = _
    unfold execIdleTimerExpiry
    rw [if_neg]
    rintro ⟨on, runs⟩
    rcases idle with off | stopped
    · exact off on
    · rw [stopped] at runs
      cases runs

end Sys2Proof.Machine

/-!
CHECK (R50 to R52, R55, R57): its checks as the rules word them, the page reads it hands over in the step of its take up
to the first MISSING element, and the settling of O21.
-/

namespace Sys2Proof.Machine

/-! ### Checks -/

/-- The checks of CHECK (R50). -/
def Device.checkChecks (d : Device) (p : Port) (ns : Byte) (key : Key) : List (Bool × Result) :=
  [ (d.phase.notReady, .notReady), ((d.nsOf ns).isNone, .nsInvalid), (decide (d.rightOn p ns = .none), .denied),
    ((d.entryOf ns key).isNone, .notFound), (inState (d.entryOf ns key) .reserved, .recordBusy),
    (inState (d.entryOf ns key) .retired || inState (d.entryOf ns key) .purging, .recordRetired) ]

/-- The checks of CHECK read nothing that a take changes. -/
@[simp] theorem Device.takeIn_checkChecks (d : Device) (p : Port) (r : Request) (q : Port) (ns : Byte) (key : Key) :
    (d.takeIn p r).checkChecks q ns key = d.checkChecks q ns key := by
  simp [Device.checkChecks]

section
variable {d : Device} {p : Port} {ns : Byte} {key : Key}

/-- A CHECK that fails a check does nothing but answer (R50). -/
theorem Device.workCheck_refused {r : Result} (h : firstFailure (d.checkChecks p ns key) = some r) (id : Nat) :
    d.workCheck p id ns key = d.complete id r [] := by
  unfold Device.checkChecks at h
  unfold Device.workCheck
  dsimp only
  rw [h]

/-- A CHECK that passes its checks starts on the entry (R51). -/
theorem Device.workCheck_passed {e : Entry} (h : firstFailure (d.checkChecks p ns key) = none)
    (he : d.entryOf ns key = some e) (id : Nat) : d.workCheck p id ns key = d.startCheck id e := by
  unfold Device.checkChecks at h
  unfold Device.workCheck
  dsimp only
  rw [h, he]

end

/-! ### The page reads -/

/-- A CHECK of an entry while it hands its page reads over (R51, R52): what it has queued, and what it has lost. -/
def Entry.checkWork (e : Entry) (jobs : Nat) (lost : Option LostPage) : CheckWork :=
  { name := e.name, version := e.version, pins := e.version.blocks, got := [], pagesRead := 0, jobs := jobs,
    lost := lost }

/-- The page reads of chunks in order, the first with a given number (R55). -/
def Device.queueChecks (d : Device) (id : Nat) (pages : List Nat) (refs : List ChunkRef) (first : Nat) : Device :=
  (refs.zipIdx first).foldl
    (fun d x => pages.foldl
      (fun d g => d.queueJob x.1.addr.bank (readJob x.1.addr.block g (.checkPage id x.2 g .primary))) d) d

section
variable {e : Entry} {i jobs : Nat}

/-- A chunk that the list names has its pages read (R55). -/
theorem Device.checkChunk_present {x : ChunkRef} (h : e.version.chunkAt i = some x) (d : Device) (id : Nat)
    (pages : List Nat) :
    Device.checkChunk id pages (d, e.checkWork jobs none) i
      = (d.queueChecks id pages [x] i, e.checkWork (jobs + pages.length) none) := by
  unfold Device.checkChunk Entry.checkWork
  dsimp only
  rw [h]
  rfl

/-- A MISSING chunk loses its first page (R57). -/
theorem Device.checkChunk_missing (h : e.version.chunkAt i = none) (d : Device) (id : Nat) (pages : List Nat) :
    Device.checkChunk id pages (d, e.checkWork jobs none) i
      = (d, e.checkWork jobs (some { chunk := i, page := pages.headD 0 })) := by
  unfold Device.checkChunk Entry.checkWork
  dsimp only
  rw [h]
  rfl

/-- Nothing is read once a page is lost (R58). -/
theorem Device.checkChunks_lost (l : LostPage) (d : Device) (id : Nat) (pages : List Nat) (is : List Nat) :
    is.foldl (Device.checkChunk id pages) (d, e.checkWork jobs (some l)) = (d, e.checkWork jobs (some l)) := by
  induction is with
  | nil => rfl
  | cons i is ih => exact ih

end

/-- Chunks that the list names one after the other have their pages read in order (R55). -/
theorem Device.checkChunks_present {e : Entry} (id : Nat) (pages : List Nat) (refs : List ChunkRef) (first jobs : Nat)
    (d : Device) (h : ∀ k x, refs[k]? = some x → e.version.chunkAt (first + k) = some x) :
    (List.range' first refs.length).foldl (Device.checkChunk id pages) (d, e.checkWork jobs none)
      = (d.queueChecks id pages refs first, e.checkWork (jobs + pages.length * refs.length) none) := by
  induction refs generalizing first d jobs with
  | nil => rfl
  | cons x refs ih =>
    have later (k : Nat) (y : ChunkRef) (hk : refs[k]? = some y) : e.version.chunkAt (first + 1 + k) = some y := by
      rw [Nat.add_assoc, Nat.add_comm 1 k]
      exact h (k + 1) y hk
    have one : Device.checkChunk id pages (d, e.checkWork jobs none) first = _ :=
      Device.checkChunk_present (h 0 x rfl) d id pages
    rw [List.length_cons, List.range'_succ, List.foldl_cons, one, Nat.add_zero, ih (first + 1) _ _ later,
      Nat.mul_succ, Nat.add_assoc, Nat.add_comm pages.length]
    rfl

/-! ### The start -/

section
variable {e : Entry} {zero : ChunkRef} {rest : List ChunkRef} {lost : Option LostPage}

/-- A list whose first elements are those of the chunk list names them. -/
theorem Version.chunkAt_append {v : Version} {refs : List ChunkRef} {more : List (Option ChunkRef)}
    (h : v.chunks = refs.map some ++ more) {k : Nat} {x : ChunkRef} (hk : refs[k]? = some x) :
    v.chunkAt k = some x := by
  obtain ⟨lt, -⟩ := List.getElem?_eq_some_iff.mp hk
  unfold Version.chunkAt
  rw [h, List.getElem?_append_left (by simpa using lt), List.getElem?_map, hk]
  rfl

/-- The first MISSING element of the chunk list names no chunk. -/
theorem Version.chunkAt_missing {v : Version} {refs : List ChunkRef} {more : List (Option ChunkRef)}
    (h : v.chunks = refs.map some ++ none :: more) : v.chunkAt refs.length = none := by
  unfold Version.chunkAt
  rw [h, List.getElem?_append_right (by simp)]
  simp

/-- A CHECK starts with page 15 of chunk 0 and goes on through its chunks in order (R55). -/
theorem Device.startCheck_eq (d : Device) (id : Nat) (e : Entry) :
    d.startCheck id e
      = ((List.range e.version.chunks.length).foldl (Device.checkChunk id (List.range 14))
            (Device.checkChunk id [15] (d.pin e.version.blocks, e.checkWork 0 none) 0)).1.checkOn id
          ((List.range e.version.chunks.length).foldl (Device.checkChunk id (List.range 14))
            (Device.checkChunk id [15] (d.pin e.version.blocks, e.checkWork 0 none) 0)).2 := by
  rfl

/-- A CHECK goes on while a job of it is left (R53). -/
theorem Device.checkOn_of_jobs {w : CheckWork} (h : w.jobs ≠ 0) (d : Device) (id : Nat) :
    d.checkOn id w = d.setWork id (.check w) := by
  unfold Device.checkOn
  rw [if_pos h]

/-- What a CHECK whose first chunk is not MISSING does as it starts: it reads page 15 of that chunk, then pages 0 to 13
of each chunk up to the first that is MISSING (R55, R57). -/
theorem Device.startCheck_present
    (h : (e.version.chunks = (zero :: rest).map some ∧ lost = none)
      ∨ (∃ more, e.version.chunks = (zero :: rest).map some ++ none :: more)
          ∧ lost = some { chunk := rest.length + 1, page := 0 }) (d : Device) (id : Nat) :
    d.startCheck id e
      = (((d.pin e.version.blocks).queueChecks id [15] [zero] 0).queueChecks id (List.range 14) (zero :: rest) 0).setWork
          id (.check (e.checkWork (1 + 14 * (rest.length + 1)) lost)) := by
  have named {more : List (Option ChunkRef)} (all : e.version.chunks = (zero :: rest).map some ++ more) (k : Nat)
      (x : ChunkRef) (hk : (zero :: rest)[k]? = some x) : e.version.chunkAt (0 + k) = some x := by
    rw [Nat.zero_add]
    exact Version.chunkAt_append all hk
  have present {more : List (Option ChunkRef)} (all : e.version.chunks = (zero :: rest).map some ++ more) :
      (List.range' 0 (rest.length + 1)).foldl (Device.checkChunk id (List.range 14))
          (Device.checkChunk id [15] (d.pin e.version.blocks, e.checkWork 0 none) 0)
        = (((d.pin e.version.blocks).queueChecks id [15] [zero] 0).queueChecks id (List.range 14) (zero :: rest) 0,
            e.checkWork (1 + 14 * (rest.length + 1)) none) := by
    rw [Device.checkChunk_present (named all 0 zero rfl)]
    exact Device.checkChunks_present id (List.range 14) (zero :: rest) 0 1 _ (named all)
  have chunks : (List.range e.version.chunks.length).foldl (Device.checkChunk id (List.range 14))
        (Device.checkChunk id [15] (d.pin e.version.blocks, e.checkWork 0 none) 0)
      = (((d.pin e.version.blocks).queueChecks id [15] [zero] 0).queueChecks id (List.range 14) (zero :: rest) 0,
          e.checkWork (1 + 14 * (rest.length + 1)) lost) := by
    rcases h with ⟨all, none⟩ | ⟨⟨more, all⟩, missing⟩
    · rw [all, List.length_map, List.range_eq_range' (n := (zero :: rest).length), none]
      exact present (all.trans (List.append_nil _).symm)
    · have gone : e.version.chunkAt (rest.length + 1) = Option.none := Version.chunkAt_missing all
      have length : e.version.chunks.length = rest.length + 1 + (more.length + 1) := by
        rw [all, List.length_append, List.length_map, List.length_cons, List.length_cons]
      have cut := List.range'_append_1 (s := 0) (m := rest.length + 1) (n := more.length + 1)
      rw [length, List.range_eq_range' (n := rest.length + 1 + _), ← cut, List.foldl_append, present all, Nat.zero_add,
        List.range'_succ, List.foldl_cons, Device.checkChunk_missing gone, missing]
      exact Device.checkChunks_lost ..
  have jobs : (e.checkWork (1 + 14 * (rest.length + 1)) lost).jobs ≠ 0 := by
    change 1 + 14 * (rest.length + 1) ≠ 0
    omega
  rw [Device.startCheck_eq, chunks]
  dsimp only
  exact Device.checkOn_of_jobs jobs _ id

/-- A CHECK whose first chunk is MISSING loses page 15 of it in its step, and ends (R57, R58, R59). -/
theorem Device.startCheck_missing (h : e.version.chunkAt 0 = none) (d : Device) (id : Nat) :
    d.startCheck id e
      = (((d.pin e.version.blocks).modDamaged e.name e.version.generation (insertNat 0)).unpin
          e.version.blocks).complete id .dataLost (leBytes 1 0 ++ leBytes 1 15 ++ leBytes 1 0) := by
  have chunks : (List.range e.version.chunks.length).foldl (Device.checkChunk id (List.range 14))
        (Device.checkChunk id [15] (d.pin e.version.blocks, e.checkWork 0 none) 0)
      = (d.pin e.version.blocks, e.checkWork 0 (some { chunk := 0, page := 15 })) := by
    rw [Device.checkChunk_missing h]
    exact Device.checkChunks_lost ..
  rw [Device.startCheck_eq, chunks]
  dsimp only
  rfl

end

/-- Settles O21: the statement's list of checks is the model's, and what a CHECK that passes it starts turns on where
the first MISSING element of its chunk list stands. -/
theorem checkMakesItsChecksInOrder : Obligations.CheckMakesItsChecksInOrder := by
  unfold Obligations.CheckMakesItsChecksInOrder
  intro s p tag ns key h e? checks
  have same : checks = (s.takeIn p { tag := tag, body := .check ns key }).checkChecks p ns key := by
    rw [Device.takeIn_checkChecks]
    unfold checks Device.checkChecks
    rw [inState_or, Phase.notReady_eq]
    rfl
  rw [same]
  refine ⟨fun r hr => State.takes_answered h Device.doCheck (Device.workCheck_refused hr _), fun e pass he => ?_⟩
  have started : Device.doCheck (s.takeIn p { tag := tag, body := .check ns key }) p s.newFlightId (.check ns key)
      = (s.takeIn p { tag := tag, body := .check ns key }).startCheck s.newFlightId e :=
    Device.workCheck_passed pass (by simpa using he) _
  refine ⟨fun zero rest lost found => ?_, fun missing => ?_⟩
  · exact State.takes_begun h Device.doCheck (started.trans (Device.startCheck_present found _ _))
  · exact State.takes_begun h Device.doCheck (started.trans (Device.startCheck_missing missing _ _))

end Sys2Proof.Machine

/-!
Resets (R83, R128, R150): what a reset leaves, that nothing comes about in a part that a reset has cleared, and the
settling of O39.
-/

namespace Sys2Proof.Machine

/-! ### What a reset leaves -/

section
variable (d : Device)

/-- The part right after it enters STARTING: a start of the factory's part, but for the pins (R150, R152). -/
theorem Device.enterStarting_eq : d.enterStarting = { State.reset.toDevice with
    resetLow := d.resetLow, straps := d.straps, serviceAddress := 0x38 + d.straps.setWidth 7 } := by
  rfl

/-- A part whose Bank Engines drain (R128, R150): nothing but the pins and the jobs in progress. -/
def Device.draining : Device :=
  { State.reset.toDevice with
    power := .draining, resetLow := d.resetLow, straps := d.straps, serviceAddress := d.serviceAddress
    engines := d.engines.map fun e => { queue := [], waiting := [], current := e.current }
    scan := .cleared }

variable {d}

/-- The engines that hold no job, as a list. -/
theorem Device.engines_idle_iff :
    d.engines.toList.all (fun e => e.current.isNone) = true ↔ ∀ b : Bank, d.engines[b].current = none := by
  rw [List.all_eq_true]
  constructor
  · intro h b
    exact Option.isNone_iff_eq_none.mp (h _ (Vector.mem_toList_iff.mpr (Vector.getElem_mem b.isLt)))
  · intro h e he
    obtain ⟨i, hi, rfl⟩ := Vector.mem_iff_getElem.mp (Vector.mem_toList_iff.mp he)
    exact Option.isNone_iff_eq_none.mpr (h ⟨i, hi⟩)

/-- A reset is over when no engine holds a job and RESET_N is high (R150). -/
theorem Device.tryStart_over (power : d.power = .draining) (idle : ∀ b : Bank, d.engines[b].current = none)
    (high : d.resetLow = false) : d.tryStart = d.enterStarting :=
  if_pos ⟨power, Device.engines_idle_iff.mpr idle, high⟩

/-- A reset goes on while an engine holds a job, or RESET_N is low (R150). -/
theorem Device.tryStart_held (h : d.power ≠ .draining ∨ (∃ b : Bank, d.engines[b].current ≠ none) ∨ d.resetLow = true) :
    d.tryStart = d := by
  refine if_neg fun ⟨power, idle, high⟩ => ?_
  rcases h with off | ⟨b, job⟩ | low
  · exact off power
  · exact job (Device.engines_idle_iff.mp idle b)
  · exact Bool.false_ne_true (high.symm.trans low)

/-- A warm reset drains the engines, and is over when they hold no job (R128, R150). -/
theorem Device.beginReset_eq : d.beginReset = d.draining.tryStart := by
  rfl

/-- The jobs in progress stay while the engines drain (R128). -/
theorem Device.draining_current (b : Bank) : d.draining.engines[b].current = d.engines[b].current := by
  simp [Device.draining]

/-! ### Nothing comes about in a part that a reset has cleared -/

/-- A part that a reset has cleared: no run, no purge, no grant, and the phase STARTING. -/
structure Device.Cleared (d : Device) : Prop where
  phase : d.phase = .starting
  pool : d.pool = .cleared
  maint : d.maint = .cleared
  purge : d.purge = none

/-- The part is cleared as it enters STARTING. -/
theorem Device.enterStarting_cleared (d : Device) : d.enterStarting.Cleared := by
  rw [Device.enterStarting_eq]
  exact ⟨rfl, rfl, rfl, rfl⟩

/-- The part is cleared while its engines drain. -/
theorem Device.draining_cleared (d : Device) : d.draining.Cleared := ⟨rfl, rfl, rfl, rfl⟩

/-- The part is cleared in the step a warm reset begins. -/
theorem Device.beginReset_cleared (d : Device) : d.beginReset.Cleared := by
  rw [Device.beginReset_eq]
  unfold Device.tryStart
  split
  · exact Device.enterStarting_cleared _
  · exact d.draining_cleared

/-- Nothing is due in a cleared part (R99, log 19). -/
theorem Device.Cleared.standing (h : d.Cleared) : d.standing = none := by
  obtain ⟨phase, pool, maint, purge⟩ := h
  unfold Device.standing Device.drawStep Device.waitStep Device.purgeStep Device.urgencyStep Device.demandStep
    Device.resumeStep Device.maintStep
  rw [pool, purge, phase]
  rfl

/-- The end of a step changes nothing in a cleared part. -/
theorem Device.Cleared.finishStep (h : d.Cleared) : d.finishStep = d := by
  have worn : d.wornTest = d := by
    unfold Device.wornTest
    rw [h.phase]
    rfl
  have settled : Device.settle settleFuel d = d := by
    change (match d.standing with | none => d | some d' => Device.settle 65535 d') = d
    rw [h.standing]
  have places : d.pool = { d.pool with joined := [], head := d.pool.waits.head?, examine := false, recheck := false } := by
    rw [h.pool]
    rfl
  unfold Device.finishStep
  rw [worn, settled]
  unfold Device.stepOver
  rw [← places]

/-- The take of a request whose work clears the part ends with nothing more (R144). -/
theorem Device.takeEnd_cleared (h : d.Cleared) (before : Device) : before.takeEnd d = d := by
  have run : d.interruptRun = d := by
    unfold Device.interruptRun
    rw [h.maint]
    rfl
  unfold Device.takeEnd
  rw [run, ite_self]
  exact h.finishStep

end

/-! ### Resets -/

/-- A warm reset begins with the engines' jobs alone, whatever was taken in its step. -/
theorem Device.beginReset_takeIn (d : Device) (p : Port) (r : Request) : (d.takeIn p r).beginReset = d.beginReset := by
  have same : (d.takeIn p r).draining = d.draining := by
    obtain ⟨low, straps, address⟩ : (d.takeIn p r).resetLow = d.resetLow ∧ (d.takeIn p r).straps = d.straps
        ∧ (d.takeIn p r).serviceAddress = d.serviceAddress := by
      cases p <;> exact ⟨rfl, rfl, rfl⟩
    unfold Device.draining
    rw [low, straps, address, Device.takeIn_engines]
  rw [Device.beginReset_eq, Device.beginReset_eq, same]

/-- Settles O39: a reset keeps the pins and the jobs in progress, and nothing comes about in the part it leaves. -/
theorem warmResetsKeepOnlyTheJobsInProgress : Obligations.WarmResetsKeepOnlyTheJobsInProgress := by
  unfold Obligations.WarmResetsKeepOnlyTheJobsInProgress
  refine ⟨fun d => ⟨d.enterStarting_eq, fun ⟨idle, high⟩ => ?_, fun held => ?_⟩, fun s => ⟨fun p tag h => ?_, ?_⟩⟩
  · rw [Device.beginReset_eq]
    exact Device.tryStart_over rfl (fun b => (Device.draining_current b).trans (idle b)) high
  · rw [Device.beginReset_eq]
    refine Device.tryStart_held (.inr ?_)
    by_cases idle : ∀ b : Bank, d.engines[b].current = none
    · exact .inr (Bool.eq_true_of_not_eq_false fun high => held ⟨idle, high⟩)
    · obtain ⟨b, job⟩ := not_forall.mp idle
      exact .inl ⟨b, (Device.draining_current b).trans_ne job⟩
  · refine ⟨fun service => ?_, fun primary halted => ?_, fun primary served => ?_⟩
    · subst service
      exact State.takes_answered h Device.doReset rfl
    · subst primary
      refine State.takes_answered h Device.doReset (if_pos ?_)
      rw [Device.takeIn_phase, halted]
    · subst primary
      have work : Device.doReset (s.takeIn .primary { tag := tag, body := .reset }) .primary s.newFlightId .reset
          = s.beginReset := by
        refine (if_neg ?_).trans (Device.beginReset_takeIn ..)
        rw [Device.takeIn_phase]
        exact served
      refine (State.takes_next h Device.doReset).trans ?_
      rw [work, Device.takeEnd_cleared (Device.beginReset_cleared _)]
  · refine ⟨fun high running => ?_, fun high off => ?_, fun low => ?_, fun high => ?_, fun low power idle => ?_,
      fun low held => ?_⟩
    · refine congrArg Host.Outcome.next ((if_neg (ne_true_of_eq_false high)).trans ?_)
      unfold Device.assertReset
      dsimp only
      rw [running]
    · refine congrArg Host.Outcome.next ((if_neg (ne_true_of_eq_false high)).trans ?_)
      unfold Device.assertReset
      dsimp only
      cases power : s.power with
      | running => exact absurd power off
      | draining => rfl
      | off => rfl
    · exact congrArg Host.Outcome.next (if_pos low)
    · exact congrArg Host.Outcome.next (if_neg (ne_true_of_eq_false high))
    · refine congrArg Host.Outcome.next ((if_pos low).trans ?_)
      exact congrArg (fun d => ({ s with toDevice := d } : State))
        (Device.tryStart_over (d := { s.toDevice with resetLow := false }) power idle rfl)
    · refine congrArg Host.Outcome.next ((if_pos low).trans ?_)
      exact congrArg (fun d => ({ s with toDevice := d } : State))
        (Device.tryStart_held (d := { s.toDevice with resetLow := false }) (held.imp_right .inl))

end Sys2Proof.Machine

/-!
Power and the draining of jobs (R127, R128, R150), and the rows that complete jobs: what each job cut short leaves and
the blocks it leaves alone, that a record which fails its CRC is read as none, and the settling of O38 and O40.
-/

namespace Sys2Proof.Machine

/-! ### Rows that complete a job -/

section
variable {s : State} {b : Bank} {j : Job} {d : Device}

/-- A program or erase that its queuer takes up leaves the array as the job does and the device as the queuer does. -/
theorem State.programDone_working (h : s.Working b j) (o : OkFail) {work : Device → Job → Option Device}
    (hw : work s.toDevice j = some d) : s.programDone b o work = s.afterWork b j o d := by
  unfold State.programDone
  rw [State.jobIn_eq_some.mpr h]
  dsimp only
  rw [hw]
  rfl

/-- A page read that its queuer takes up leaves the array, and the device as the queuer does. -/
theorem State.readDone_working (h : s.Working b j) {work : Device → Job → List Byte → Option Device}
    (hw : work s.toDevice j (s.readBytes b j) = some d) : s.readDone b work = s.afterRead b d := by
  unfold State.readBytes at hw
  unfold State.readDone
  rw [State.jobIn_eq_some.mpr h]
  dsimp only
  rw [hw]
  rfl

/-- An erase verify that its queuer takes up leaves the array as the verify does and the device as the queuer does. -/
theorem State.verifyDone_working (h : s.Working b j) (o : OkFail) {work : Device → Job → Bool → Option Device}
    (hw : work s.toDevice j (s.verifyPasses { bank := b, block := j.block } j.target.1 o) = some d) :
    s.verifyDone b o work = s.afterWork b j o d := by
  unfold State.verifyDone
  rw [State.jobIn_eq_some.mpr h]
  have at_addr : work s.toDevice j (s.verifyPasses (j.addr b) j.target.1 o) = some d := hw
  dsimp only
  rw [at_addr]
  rfl

end

/-! ### Where the segments of a job lie -/

/-- The segments of a page stand in its block. -/
theorem segmentNum_div (a : BlockAddr) (page seg : Nat) : segmentNum a page seg / 256 = a.num := by
  unfold segmentNum pageBase blockBase
  omega

/-- The segments that a program stores into stand in its block. -/
theorem runSegments_div {a : BlockAddr} {page seg g : Nat} {data : List Byte} (h : g ∈ runSegments a page seg data) :
    g / 256 = a.num := by
  obtain ⟨lo, hi⟩ := (mem_runSegments a page seg data g).mp h
  have short : (runData seg data).length ≤ 256 - seg % 16 * 16 := List.length_take_le ..
  unfold runBase pageBase blockBase at lo hi
  omega

/-- Blocks of two banks have two numbers. -/
theorem blockNum_ne_of_bank {b b' : Bank} (h : b' ≠ b) (x y : BlockNo) :
    ({ bank := b', block := x } : BlockAddr).num ≠ ({ bank := b, block := y } : BlockAddr).num :=
  fun same => h (congrArg BlockAddr.bank (blockNum_inj same))

/-! ### A job cut short -/

/-- Two states whose arrays say the same of what no rule fixes, and of the records that fail their CRC, in the block of a
number. -/
structure State.SameAt (n : Nat) (s t : State) : Prop where
  weak : ∀ g, g / 256 = n → (g ∈ t.weak ↔ g ∈ s.weak)
  torn : ∀ g, g / 256 = n → (g ∈ t.torn ↔ g ∈ s.torn)
  spoilt : ∀ g, g / 16 = n → (g ∈ t.spoilt ↔ g ∈ s.spoilt)
  cut : n ∈ t.cut ↔ n ∈ s.cut

section
variable {n : Nat} {s t u : State}

/-- Every array says the same as itself. -/
theorem State.SameAt.refl (n : Nat) (s : State) : State.SameAt n s s :=
  ⟨fun _ _ => Iff.rfl, fun _ _ => Iff.rfl, fun _ _ => Iff.rfl, Iff.rfl⟩

/-- Arrays that say the same as a third say the same. -/
theorem State.SameAt.trans (h : State.SameAt n s t) (h' : State.SameAt n t u) : State.SameAt n s u :=
  ⟨fun g hg => (h'.weak g hg).trans (h.weak g hg), fun g hg => (h'.torn g hg).trans (h.torn g hg),
    fun g hg => (h'.spoilt g hg).trans (h.spoilt g hg), h'.cut.trans h.cut⟩

/-- A program cut short leaves the other blocks alone. -/
theorem State.runCut_same (s : State) {a : BlockAddr} (page seg : Nat) (data : List Byte) (h : a.num ≠ n) :
    State.SameAt n s (s.runCut a page seg data) := by
  have outside (g : Nat) (hg : g / 256 = n) : g ∉ runSegments a page seg data :=
    fun inside => h ((runSegments_div inside).symm.trans hg)
  refine ⟨fun g hg => ?_, fun g hg => ?_, fun _ _ => Iff.rfl, ?_⟩
  · simp [State.runCut, outside g hg]
  · simp [State.runCut, outside g hg]
  · unfold State.runCut
    dsimp only
    split
    · simp [Ne.symm h]
    · exact Iff.rfl

/-- A record that comes to fail its CRC is in its own block. -/
theorem State.recordTorn_same (s : State) {a : BlockAddr} (page seg : Nat) (h : a.num ≠ n) :
    State.SameAt n s (s.recordTorn a page seg) := by
  refine ⟨fun _ _ => Iff.rfl, fun g hg => ?_, fun _ _ => Iff.rfl, Iff.rfl⟩
  have other : g ≠ segmentNum a page seg := fun same => h (by rw [← hg, same, segmentNum_div])
  simp [State.recordTorn, other]

/-- A job cut short leaves the other blocks alone. -/
theorem State.jobCut_same (s : State) {b : Bank} {j : Job} (h : ({ bank := b, block := j.block } : BlockAddr).num ≠ n) :
    State.SameAt n s (s.jobCut b j) := by
  unfold State.jobCut
  dsimp only
  split
  · exact .refl n s
  · exact .refl n s
  next page data _ =>
    have run := s.runCut_same page 0 data h
    split
    · exact run.trans (State.recordTorn_same _ _ _ h)
    · exact run
  next page seg data _ =>
    have run := s.runCut_same page seg data h
    split
    · exact run.trans (State.recordTorn_same _ _ _ h)
    · exact run
  · have other (g m : Nat) (hg : g / m = n) : g / m ≠ ({ bank := b, block := j.block } : BlockAddr).num :=
      fun same => h (same.symm.trans hg)
    refine ⟨fun g hg => ?_, fun g hg => ?_, fun g hg => ?_, ?_⟩
    · simp [State.blockCut, State.blockSpoiled, other g 256 hg]
    · simp [State.blockCut, State.blockSpoiled, other g 256 hg]
    · simp [State.blockCut, State.blockSpoiled, other g 16 hg]
    · unfold State.blockCut
      dsimp only
      split
      · exact Iff.rfl
      · simp [Ne.symm h]

end

/-! ### A loss of power -/

/-- What the job of one bank leaves when power is lost (R127). -/
def State.bankCut (s : State) (b : Bank) : State := match s.engines[b].current with | none => s | some j => s.jobCut b j

/-- A loss of power cuts the jobs of the banks short, one after another. -/
theorem State.cutJobs_eq (s : State) : s.cutJobs = allBanks.foldl State.bankCut s := rfl

/-- A bank without a job leaves the array alone. -/
theorem State.bankCut_none {s : State} {b : Bank} (h : s.engines[b].current = none) : s.bankCut b = s := by
  unfold State.bankCut
  rw [h]

/-- A bank with a job leaves what its job cut short leaves. -/
theorem State.bankCut_some {s : State} {b : Bank} {j : Job} (h : s.engines[b].current = some j) :
    s.bankCut b = s.jobCut b j := by
  unfold State.bankCut
  rw [h]

/-- A job cut short leaves the part alone. -/
@[simp] theorem State.bankCut_toDevice (s : State) (b : Bank) : (s.bankCut b).toDevice = s.toDevice := by
  unfold State.bankCut
  split
  · rfl
  · exact s.jobCut_toDevice b _

/-- Jobs cut short leave the part alone. -/
@[simp] theorem State.banksCut_toDevice (s : State) (bs : List Bank) :
    (bs.foldl State.bankCut s).toDevice = s.toDevice := by
  induction bs generalizing s with
  | nil => rfl
  | cons b bs ih => rw [List.foldl_cons, ih, State.bankCut_toDevice]

/-- Jobs cut short leave what is not in the array alone. -/
theorem State.banksCut_fresh (s : State) (bs : List Bank) : (bs.foldl State.bankCut s).fresh = s.fresh := by
  induction bs generalizing s with
  | nil => rfl
  | cons b bs ih =>
    rw [List.foldl_cons, ih]
    unfold State.bankCut State.jobCut
    split
    · rfl
    · dsimp only
      split
      · rfl
      · rfl
      · split <;> rfl
      · split <;> rfl
      · rfl

/-- Every bank is one of the four. -/
theorem mem_allBanks (b : Bank) : b ∈ allBanks := by
  revert b
  decide

section
variable {s : State}

/-- What holds after the jobs are cut short held before, or one of them made it hold. -/
theorem State.banksCut_imp {M : State → Prop} {N : Bank → Job → Prop}
    (step : ∀ (s : State) (b : Bank) (j : Job), M (s.jobCut b j) → M s ∨ N b j) (bs : List Bank)
    (h : M (bs.foldl State.bankCut s)) : M s ∨ ∃ b j, s.engines[b].current = some j ∧ N b j := by
  induction bs generalizing s with
  | nil => exact .inl h
  | cons b bs ih =>
    rw [List.foldl_cons] at h
    rcases ih h with before | ⟨b', j, busy, made⟩
    · cases current : s.engines[b].current with
      | none =>
        rw [State.bankCut_none current] at before
        exact .inl before
      | some j =>
        rw [State.bankCut_some current] at before
        exact (step s b j before).imp_right fun made => ⟨b, j, current, made⟩
    · rw [State.bankCut_toDevice] at busy
      exact .inr ⟨b', j, busy, made⟩

/-- What a job of a bank leaves when power is lost, and the jobs of the others leave alone. -/
theorem State.cutJobs_imp {M : State → Prop} {N : Bank → Job → Prop}
    (step : ∀ (s : State) (b : Bank) (j : Job), M (s.jobCut b j) → M s ∨ N b j) (h : M s.cutJobs) :
    M s ∨ ∃ b j, s.engines[b].current = some j ∧ N b j := by
  rw [State.cutJobs_eq] at h
  exact State.banksCut_imp step allBanks h

/-- What held before the jobs are cut short, or what one of them makes hold, holds after. -/
theorem State.banksCut_of {M : State → Prop} {N : Bank → Job → Prop}
    (step : ∀ (s : State) (b : Bank) (j : Job), M s ∨ N b j → M (s.jobCut b j)) (bs : List Bank)
    (h : M s ∨ ∃ b ∈ bs, ∃ j, s.engines[b].current = some j ∧ N b j) : M (bs.foldl State.bankCut s) := by
  induction bs generalizing s with
  | nil => exact h.resolve_right (by simp)
  | cons b bs ih =>
    rw [List.foldl_cons]
    refine ih ?_
    rw [State.bankCut_toDevice]
    have one (made : M s ∨ ∃ j, s.engines[b].current = some j ∧ N b j) : M (s.bankCut b) := by
      cases current : s.engines[b].current with
      | none =>
        rw [State.bankCut_none current]
        exact made.resolve_right fun ⟨_, busy, _⟩ => nomatch current.symm.trans busy
      | some j =>
        rw [State.bankCut_some current]
        refine step s b j (made.imp_right fun ⟨k, busy, made⟩ => ?_)
        rwa [Option.some.inj (current.symm.trans busy)]
    rcases h with before | ⟨b', inside, j, busy, made⟩
    · exact .inl (one (.inl before))
    · rcases List.mem_cons.mp inside with rfl | later
      · exact .inl (one (.inr ⟨j, busy, made⟩))
      · exact .inr ⟨b', later, j, busy, made⟩

/-- What a loss of power leaves, when each job cut short leaves it by itself. -/
theorem State.cutJobs_iff {M : State → Prop} {N : Bank → Job → Prop}
    (step : ∀ (s : State) (b : Bank) (j : Job), M (s.jobCut b j) ↔ M s ∨ N b j) :
    M s.cutJobs ↔ M s ∨ ∃ b j, s.engines[b].current = some j ∧ N b j := by
  refine ⟨State.cutJobs_imp fun s b j => (step s b j).mp, fun h => ?_⟩
  rw [State.cutJobs_eq]
  refine State.banksCut_of (fun s b j => (step s b j).mpr) allBanks
    (h.imp_right fun ⟨b, made⟩ => ⟨b, mem_allBanks b, made⟩)

/-- The jobs of other banks leave a bank's blocks alone. -/
theorem State.banksCut_same {bs : List Bank} {b : Bank} (h : b ∉ bs) (x : BlockNo) :
    State.SameAt ({ bank := b, block := x } : BlockAddr).num s (bs.foldl State.bankCut s) := by
  induction bs generalizing s with
  | nil => exact .refl _ s
  | cons b' bs ih =>
    obtain ⟨ne, later⟩ := List.ne_and_not_mem_of_not_mem_cons h
    refine State.SameAt.trans ?_ (ih later)
    cases current : s.engines[b'].current with
    | none =>
      rw [State.bankCut_none current]
      exact .refl _ s
    | some j =>
      rw [State.bankCut_some current]
      exact s.jobCut_same (blockNum_ne_of_bank ne.symm _ _)

/-- A bank stands once among the banks. -/
theorem allBanks_split (b : Bank) : ∃ before after, allBanks = before ++ b :: after ∧ b ∉ before ∧ b ∉ after := by
  obtain ⟨before, after, split⟩ := List.append_of_mem (mem_allBanks b)
  have once : allBanks.Nodup := by decide
  rw [split] at once
  obtain ⟨-, later, apart⟩ := List.nodup_append.mp once
  exact ⟨before, after, split, fun h => apart _ h _ (List.mem_cons_self ..) rfl, (List.nodup_cons.mp later).1⟩

/-- In the blocks of a bank with a job, a loss of power leaves what that job cut short leaves. -/
theorem State.cutJobs_at {b : Bank} {j : Job} (h : s.engines[b].current = some j) (x : BlockNo) :
    ∃ t : State, State.SameAt ({ bank := b, block := x } : BlockAddr).num s t
      ∧ State.SameAt ({ bank := b, block := x } : BlockAddr).num (t.jobCut b j) s.cutJobs := by
  obtain ⟨before, after, split, earlier, later⟩ := allBanks_split b
  refine ⟨before.foldl State.bankCut s, State.banksCut_same earlier x, ?_⟩
  have busy : (before.foldl State.bankCut s).engines[b].current = some j := by
    rw [State.banksCut_toDevice]
    exact h
  rw [State.cutJobs_eq, split, List.foldl_append, List.foldl_cons, State.bankCut_some busy]
  exact State.banksCut_same later x

end

/-! ### Records that fail their CRC are read as none -/

section
variable {bytes : List Byte} {s : State} {a : BlockAddr}

/-- A record that has a CRC-16 and fails it. -/
theorem crc16Valid_of_not_matches (h : crcMatches bytes = false) (short : bytes.length ≠ 256) :
    crc16Valid bytes bytes.length = false := by
  unfold crcMatches at h
  rwa [if_neg short] at h

/-- A segment of a page has 16 bytes. -/
theorem segments_pageBytes_length {f n : Nat} (page : Nat) (h : f + n ≤ 16) :
    (segments (pageBytes s a page) f n).length = 16 * n :=
  segments_length (by rw [pageBytes_length]; omega)

/-- A record of a page that fails its CRC-16 in every page read. -/
theorem pageBytes_torn_crc16 {page f n : Nat} (hr : (f, n) ∈ recordRuns a page) (short : n < 16)
    (ht : segmentNum a page f ∈ s.torn) : crc16Valid (segments (pageBytes s a page) f n) (16 * n) = false := by
  obtain ⟨-, within⟩ := (recordRuns_apart hr hr).1
  have length : (segments (pageBytes s a page) f n).length = 16 * n := segments_pageBytes_length page within
  have invalid := crc16Valid_of_not_matches (pageBytes_torn hr ht).1 (by rw [length]; omega)
  rwa [length] at invalid

/-- A wear stamp that fails its CRC names no count. -/
theorem readStamp_of_not_valid (h : crc16Valid bytes 16 = false) : readStamp bytes = none := by
  unfold readStamp
  rw [h]
  rfl

/-- A header that fails its CRC is none. -/
theorem readHeader_of_not_valid (h : crc16Valid bytes 64 = false) : readHeader bytes = none :=
  dif_neg fun valid => Bool.false_ne_true (h.symm.trans valid.1)

/-- The CRC of a record at the front of a page is that of its own bytes. -/
theorem crc16Valid_take {n : Nat} (h2 : 2 ≤ n) (h : n ≤ bytes.length) :
    crc16Valid (bytes.take n) n = crc16Valid bytes n := by
  have field : sliceBytes (bytes.take n) (n - 2) 2 = sliceBytes bytes (n - 2) 2 := by
    unfold sliceBytes
    rw [List.drop_take, List.take_take, Nat.sub_sub_self h2]
    rfl
  unfold crc16Valid fieldAt
  rw [List.length_take, Nat.min_eq_left h, List.take_take, Nat.min_eq_left (Nat.sub_le n 2), field]
  simp [h]

/-- A commit record that fails its CRC is none. -/
theorem readCommit_of_not_valid (h : crc16Valid bytes 32 = false) : readCommit bytes = none := by
  unfold readCommit
  rw [h]
  rfl

/-- A mark that fails its CRC is none. -/
theorem readMark_of_not_valid {k : Nat} (h : crc16Valid (markSlot bytes k) 64 = false) : readMark bytes k = none := by
  unfold readMark
  dsimp only
  split
  · rfl
  · rw [h]
    rfl

/-- A grown-bad entry that fails its CRC is none. -/
theorem readGrownBad_of_not_valid {b : Bank} (h : crc16Valid bytes 16 = false) : readGrownBad b bytes = none := by
  unfold readGrownBad
  dsimp only
  split
  · rfl
  · exact dif_neg fun valid => Bool.false_ne_true (h.symm.trans valid.1)

/-- A layout page that fails its CRC is none. -/
theorem readLayout_of_not_matches {page : Nat} (full : bytes.length = 256) (h : crcMatches bytes = false) :
    readLayout page bytes = none := by
  unfold crcMatches at h
  rw [if_pos full, beq_eq_false_iff_ne] at h
  exact if_neg fun valid => h valid.1

/-- The record that fills a page is all its bytes. -/
theorem segments_full (h : bytes.length = 256) : segments bytes 0 16 = bytes := by
  unfold segments sliceBytes
  rw [Nat.mul_zero, List.drop_zero, List.take_of_length_le (by omega)]

/-- Records of a general block that fail their CRC are read as none (R47, R70, R128). -/
theorem torn_general (h : a.block ≠ 0) :
    (segmentNum a 0 0 ∈ s.torn → readStamp (segment (pageBytes s a 0) 0) = none)
    ∧ (segmentNum a 0 1 ∈ s.torn → readHeader (segments (pageBytes s a 0) 1 4) = none)
    ∧ (segmentNum a 15 0 ∈ s.torn → readCommit (pageBytes s a 15) = none)
    ∧ ∀ k, 1 ≤ k → k ≤ 4 → segmentNum a 14 (4 * (k - 1)) ∈ s.torn →
        readMark (pageBytes s a 14) k = none ∧ allOnes (markSlot (pageBytes s a 14) k) = false := by
  have page0 : recordRuns a 0 = [(0, 1), (1, 4)] := by
    unfold recordRuns
    rw [if_neg h]
    rfl
  have page14 : recordRuns a 14 = [(0, 4), (4, 4), (8, 4), (12, 4)] := by
    unfold recordRuns
    rw [if_neg h]
    rfl
  have page15 : recordRuns a 15 = [(0, 2)] := by
    unfold recordRuns
    rw [if_neg h]
    rfl
  refine ⟨fun torn => ?_, fun torn => ?_, fun torn => ?_, fun k lo hi torn => ?_⟩
  · exact readStamp_of_not_valid (pageBytes_torn_crc16 (f := 0) (n := 1) (by simp [page0]) (by omega) torn)
  · exact readHeader_of_not_valid (pageBytes_torn_crc16 (f := 1) (n := 4) (by simp [page0]) (by omega) torn)
  · refine readCommit_of_not_valid ?_
    rw [← crc16Valid_take (by omega) (by rw [pageBytes_length]; omega)]
    exact pageBytes_torn_crc16 (f := 0) (n := 2) (by simp [page15]) (by omega) torn
  · have slot : (4 * (k - 1), 4) ∈ recordRuns a 14 := by
      rw [page14]
      interval_cases k <;> simp
    have used : slotPage a 14 = true := by
      unfold slotPage
      rw [if_neg h]
      rfl
    exact ⟨readMark_of_not_valid (pageBytes_torn_crc16 slot (by omega) torn), (pageBytes_torn slot torn).2 used⟩

/-- Records of a descriptor block that fail their CRC are read as none, in slots that count as used (R119, R152,
R167). -/
theorem torn_descriptor (b : Bank) (page : Nat) (h : a.block = 0) :
    (∀ seg, 1 ≤ page → page ≤ 4 → seg ≤ 15 → segmentNum a page seg ∈ s.torn →
      readGrownBad b (segment (pageBytes s a page) seg) = none ∧ allOnes (segment (pageBytes s a page) seg) = false)
    ∧ (5 ≤ page → page ≤ 15 → segmentNum a page 0 ∈ s.torn →
      readLayout page (pageBytes s a page) = none ∧ allOnes (pageBytes s a page) = false) := by
  refine ⟨fun seg lo hi inside torn => ?_, fun lo hi torn => ?_⟩
  · have run : (seg, 1) ∈ recordRuns a page := by
      unfold recordRuns
      rw [if_pos h, if_neg (by omega), if_pos (by omega)]
      simp
      omega
    have used : slotPage a page = true := by
      unfold slotPage
      rw [if_pos h]
      exact decide_eq_true (by omega)
    exact ⟨readGrownBad_of_not_valid (pageBytes_torn_crc16 run (by omega) torn), (pageBytes_torn run torn).2 used⟩
  · have run : (0, 16) ∈ recordRuns a page := by
      unfold recordRuns
      rw [if_pos h, if_neg (by omega), if_neg (by omega)]
      simp
    have used : slotPage a page = true := by
      unfold slotPage
      rw [if_pos h]
      exact decide_eq_true (by omega)
    obtain ⟨unmatched, programmed⟩ := pageBytes_torn run torn
    dsimp only at unmatched programmed
    rw [segments_full (pageBytes_length s a page)] at unmatched programmed
    exact ⟨readLayout_of_not_matches (pageBytes_length s a page) unmatched, programmed used⟩

/-- A wear stamp that is still readable in a block whose erase was cut short names the count from before the erase
(R127). -/
theorem readStamp_cutStamp (old free : List Byte) :
    readStamp (cutStamp old free) = none ∨ readStamp (cutStamp old free) = readStamp old := by
  unfold cutStamp
  split
  next h => exact h
  next => exact .inr rfl

/-- A wear stamp has 16 bytes, whichever it is. -/
theorem cutStamp_length {old free : List Byte} {n : Nat} (ho : old.length = n) (hf : free.length = n) :
    (cutStamp old free).length = n := by
  unfold cutStamp
  split
  · exact hf
  · exact ho

/-- The same of the page read of such a block. -/
theorem readStamp_of_cut (h : a.num ∈ s.cut) :
    readStamp ((pageBytes s a 0).take 16) = none
      ∨ readStamp ((pageBytes s a 0).take 16)
          = readStamp ((List.range 16).map fun i => Memory.get s.cells (a.num * 4096 + i)) := by
  by_cases torn : a.block ≠ 0 ∧ segmentNum a 0 0 ∈ s.torn
  · exact .inl ((torn_general torn.1).1 torn.2)
  · have whole : sliceBytes (pageBytes s a 0) 0 16 = sliceBytes (stampedBytes s a 0) 0 16 := by
      refine sliceBytes_disturbed _ _ 0 16 fun k _ small inside => ?_
      obtain ⟨run, hrun, rfl⟩ := List.mem_map.mp inside
      obtain ⟨hrun, bad⟩ := List.mem_filter.mp hrun
      have fails : segmentNum a 0 run.1 ∈ s.torn := of_decide_eq_true (Bool.and_eq_true_iff.mp bad).1
      unfold recordRuns at hrun
      split at hrun
      next => simp at hrun; subst hrun; omega
      next general =>
        simp at hrun
        rcases hrun with rfl | rfl
        · exact torn ⟨general, fails⟩
        · omega
    have stamped : sliceBytes (stampedBytes s a 0) 0 16
        = cutStamp ((List.range 16).map fun i => Memory.get s.cells (blockBase a + i)) (segment (rawBytes s a 0) 0) := by
      have length := cutStamp_length (n := 16)
        (old := (List.range 16).map fun i => Memory.get s.cells (blockBase a + i)) (free := segment (rawBytes s a 0) 0)
        (by simp) (by simp [segment, sliceBytes, rawBytes])
      unfold stampedBytes sliceBytes
      rw [if_pos ⟨h, rfl⟩, List.drop_zero, List.take_append_of_le_length length.ge, List.take_of_length_le length.le]
    change readStamp (sliceBytes (pageBytes s a 0) 0 16) = none ∨ readStamp (sliceBytes (pageBytes s a 0) 0 16) = _
    rw [whole, stamped]
    exact readStamp_cutStamp _ _

end

/-! ### What a loss of power and a drain leave in the array -/

section
variable {s : State} {b : Bank} {j : Job}

/-- What a loss of power adds to the segments that no rule fixes (R127). -/
theorem State.jobCut_weak (s : State) (b : Bank) (j : Job) (g : Nat) :
    g ∈ (s.jobCut b j).weak ↔ g ∈ s.weak ∨ match j.op with
      | .pageRead _ => False
      | .eraseVerify _ => False
      | .pageProgram page data => g ∈ runSegments { bank := b, block := j.block } page 0 data
      | .segmentProgram page seg data => g ∈ runSegments { bank := b, block := j.block } page seg data
      | .blockErase => g / 256 = ({ bank := b, block := j.block } : BlockAddr).num := by
  unfold State.jobCut
  cases j.op with
  | pageRead => simp
  | eraseVerify => simp
  | pageProgram page data =>
    dsimp only
    split <;> simp [State.runCut]
  | segmentProgram page seg data =>
    dsimp only
    split <;> simp [State.runCut]
  | blockErase => simp [State.blockCut, State.blockSpoiled]

/-- A loss of power forgets a failed program just where a block is being erased (R127). -/
theorem State.jobCut_spoilt (s : State) (b : Bank) (j : Job) (g : Nat) :
    g ∈ (s.jobCut b j).spoilt
      ↔ g ∈ s.spoilt ∧ (j.op = .blockErase → g / 16 ≠ ({ bank := b, block := j.block } : BlockAddr).num) := by
  unfold State.jobCut
  cases j.op with
  | pageRead => simp
  | eraseVerify => simp
  | pageProgram page data =>
    dsimp only
    split <;> simp
  | segmentProgram page seg data =>
    dsimp only
    split <;> simp
  | blockErase => simp [State.blockCut, State.blockSpoiled]

/-- A block whose erase was cut short was so before, or its erase is cut short (R127). -/
theorem State.jobCut_cut (s : State) (b : Bank) (j : Job) (n : Nat) (h : n ∈ (s.jobCut b j).cut) :
    n ∈ s.cut ∨ j.op = .blockErase ∧ n = ({ bank := b, block := j.block } : BlockAddr).num := by
  have run (page seg : Nat) (data : List Byte)
      (inside : n ∈ (s.runCut { bank := b, block := j.block } page seg data).cut) : n ∈ s.cut := by
    unfold State.runCut at inside
    dsimp only at inside
    split at inside
    · exact ((mem_mended _ _ _).mp inside).1
    · exact inside
  unfold State.jobCut at h
  cases hop : j.op with
  | pageRead =>
    rw [hop] at h
    exact .inl h
  | eraseVerify =>
    rw [hop] at h
    exact .inl h
  | pageProgram page data =>
    rw [hop] at h
    dsimp only at h
    split at h <;> exact .inl (run page 0 data (by simpa using h))
  | segmentProgram page seg data =>
    rw [hop] at h
    dsimp only at h
    split at h <;> exact .inl (run page seg data (by simpa using h))
  | blockErase =>
    rw [hop] at h
    unfold State.blockCut at h
    dsimp only at h
    split at h
    · exact .inl h
    · exact ((mem_insertNums _ _ _).mp h).imp_right fun own => ⟨rfl, List.mem_singleton.mp own⟩

/-- What a drained job leaves in the array: what it leaves otherwise, and after FAIL the record it was to write fails its
CRC (R128). -/
theorem State.drainWorked_fail (s : State) (b : Bank) (j : Job) :
    ∃ torn, s.drainWorked b j .fail = { s.jobWorked b j .fail with torn := torn }
      ∧ (∀ g ∈ (s.jobWorked b j .fail).torn, g ∈ torn)
      ∧ (∀ page seg data, j.op = .segmentProgram page seg data →
          segmentNum { bank := b, block := j.block } page seg ∈ torn)
      ∧ ∀ page data id, j.op = .pageProgram page data → j.by_ = .layoutPage id →
          segmentNum { bank := b, block := j.block } page 0 ∈ torn := by
  cases record : j.record? with
  | none =>
    have plain : s.drainWorked b j .fail = s.jobWorked b j .fail := by
      unfold State.drainWorked
      rw [record]
    refine ⟨(s.jobWorked b j .fail).torn, plain, fun _ h => h, fun page seg data hop => ?_, fun page data id hop hby => ?_⟩
    · unfold Job.record? at record
      rw [hop] at record
      nomatch record
    · unfold Job.record? at record
      rw [hop, hby] at record
      nomatch record
  | some run =>
    obtain ⟨first, seg⟩ := run
    have torn : s.drainWorked b j .fail = (s.jobWorked b j .fail).recordTorn { bank := b, block := j.block } first seg := by
      unfold State.drainWorked
      rw [record]
    refine ⟨_, torn, fun g h => ?_, fun page seg' data hop => ?_, fun page data id hop hby => ?_⟩
    · simp [h]
    · unfold Job.record? at record
      rw [hop] at record
      obtain ⟨rfl, rfl⟩ := Prod.mk.inj (Option.some.inj record)
      simp
    · unfold Job.record? at record
      rw [hop, hby] at record
      obtain ⟨rfl, rfl⟩ := Prod.mk.inj (Option.some.inj record)
      simp

/-- A drained job that completed OK leaves what it leaves otherwise (R128). -/
theorem State.drainWorked_ok (s : State) (b : Bank) (j : Job) : s.drainWorked b j .ok = s.jobWorked b j .ok := by
  unfold State.drainWorked
  cases j.record? <;> rfl

/-- A block whose erase is cut short, of whose wear stamp a rule fixed what it reads as (R127). -/
theorem State.cutJobs_cut (h : s.engines[b].current = some j) (hop : j.op = .blockErase)
    (weak : ({ bank := b, block := j.block } : BlockAddr).num * 256 ∉ s.weak)
    (spoilt : ({ bank := b, block := j.block } : BlockAddr).num * 16 ∉ s.spoilt) :
    ({ bank := b, block := j.block } : BlockAddr).num ∈ s.cutJobs.cut := by
  obtain ⟨t, earlier, later⟩ := State.cutJobs_at h j.block
  generalize haddr : ({ bank := b, block := j.block } : BlockAddr) = a at *
  have fixed : t.unfixed (blockBase a) = false := by
    have segs : blockBase a / 16 = a.num * 256 := by unfold blockBase; omega
    have pages : blockBase a / 256 = a.num * 16 := by unfold blockBase; omega
    unfold State.unfixed
    rw [segs, pages, Bool.or_eq_false_iff]
    exact ⟨decide_eq_false (mt (earlier.spoilt _ (by omega)).mp spoilt),
      decide_eq_false (mt (earlier.weak _ (by omega)).mp weak)⟩
  refine later.cut.mpr ?_
  unfold State.jobCut
  rw [hop]
  dsimp only
  rw [haddr]
  unfold State.blockCut
  simp [fixed]

/-- A commit record, a mark or a layout page whose program is cut short fails its CRC (R47, R70, R152). -/
theorem State.cutJobs_torn (h : s.engines[b].current = some j) {page seg : Nat}
    (made : ∀ t : State, segmentNum { bank := b, block := j.block } page seg ∈ (t.jobCut b j).torn) :
    segmentNum { bank := b, block := j.block } page seg ∈ s.cutJobs.torn := by
  obtain ⟨t, -, later⟩ := State.cutJobs_at h j.block
  exact (later.torn _ (segmentNum_div _ _ _)).mpr (made t)

/-- A segment program of page 14 or 15 of a general block writes a mark or a commit record. -/
theorem State.jobCut_torn_segment (s : State) {page seg : Nat} {data : List Byte}
    (hop : j.op = .segmentProgram page seg data) (record : page = 14 ∨ page = 15) (general : j.block ≠ 0) :
    segmentNum { bank := b, block := j.block } page seg ∈ (s.jobCut b j).torn := by
  unfold State.jobCut
  rw [hop]
  dsimp only
  rw [if_pos ⟨by omega, general⟩]
  simp [State.recordTorn]

/-- A page program of a descriptor block writes a layout page. -/
theorem State.jobCut_torn_page (s : State) {page : Nat} {data : List Byte} (hop : j.op = .pageProgram page data)
    (descriptor : j.block = 0) : segmentNum { bank := b, block := j.block } page 0 ∈ (s.jobCut b j).torn := by
  unfold State.jobCut
  rw [hop]
  dsimp only
  rw [if_pos descriptor]
  simp [State.recordTorn]

end

/-! ### Power -/

section
variable {s : State}

/-- Engines with no job have none in any bank. -/
theorem Engine.idle_current (b : Bank) : (Vector.replicate 4 Engine.idle)[b].current = none := by
  simp [Engine.idle]

/-- A cold start without power enters STARTING while RESET_N is high (R150). -/
theorem Device.coldStart_enters {d : Device} (off : d.power = .off) (high : d.resetLow = false) :
    d.coldStart = d.enterStarting := by
  unfold Device.coldStart
  rw [off]
  exact Device.tryStart_over (d := { d with power := .draining, engines := Vector.replicate 4 .idle }) rfl
    Engine.idle_current high

/-- A cold start without power is held while RESET_N is low (R150). -/
theorem Device.coldStart_held {d : Device} (off : d.power = .off) (low : d.resetLow = true) :
    d.coldStart = { d with power := .draining, engines := Vector.replicate 4 .idle } := by
  unfold Device.coldStart
  rw [off]
  exact Device.tryStart_held (d := { d with power := .draining, engines := Vector.replicate 4 .idle }) (.inr (.inr low))

/-- A cold start with power on changes nothing (log 1). -/
theorem Device.coldStart_on {d : Device} (h : d.power ≠ .off) : d.coldStart = d := by
  unfold Device.coldStart
  cases power : d.power with
  | off => exact absurd power h
  | draining => rfl
  | running => rfl

/-- A bank has no job once its own is over, and every other bank has the one it had. -/
theorem Device.drained_current (d : Device) (b c : Bank) :
    (d.engines.set b .idle)[c].current = if c = b then none else d.engines[c].current := by
  by_cases same : c = b
  · subst same
    simp [Engine.idle]
  · rw [if_neg same, Fin.getElem_fin, Vector.getElem_set_ne _ _ fun h => same (Fin.ext h.symm)]
    rfl

/-- The last job of a drain lets the part enter STARTING while RESET_N is high (R128, R150). -/
theorem Device.drained_over {d : Device} {b : Bank} (draining : d.power = .draining) (high : d.resetLow = false)
    (idle : ∀ c : Bank, c ≠ b → d.engines[c].current = none) :
    d.drained b = ({ d with engines := d.engines.set b .idle } : Device).enterStarting := by
  refine Device.tryStart_over (d := { d with engines := d.engines.set b .idle }) draining (fun c => ?_) high
  rw [Device.drained_current]
  split
  · rfl
  next other => exact idle c other

/-- The drain goes on while another engine holds a job, or RESET_N is low (R128, R150). -/
theorem Device.drained_held {d : Device} {b : Bank}
    (h : d.resetLow = true ∨ ∃ c : Bank, c ≠ b ∧ d.engines[c].current ≠ none) :
    d.drained b = { d with engines := d.engines.set b .idle } := by
  refine Device.tryStart_held (d := { d with engines := d.engines.set b .idle }) (.inr ?_)
  rcases h with low | ⟨c, other, job⟩
  · exact .inr low
  · exact .inl ⟨c, by rwa [Device.drained_current, if_neg other]⟩

/-- DRAIN_JOB_DONE acts on the job in progress of a bank of a part that drains (R128). -/
theorem State.execDrainJobDone_draining {b : Bank} {j : Job} (h : s.power = .draining)
    (busy : s.engines[b].current = some j) (o : OkFail) :
    exec (.drainJobDone b o) s = .next { s.drainWorked b j o with toDevice := s.toDevice.drained b } := by
  change execDrainJobDone b o s = _
  unfold execDrainJobDone
  rw [busy]
  exact congrArg Host.Outcome.next (if_pos h)

/-- Settles O40: each clause is a fact about the pins, about one job cut short, or about the reading of a page. -/
theorem powerEndsAndStartsThePart : Obligations.PowerEndsAndStartsThePart := by
  unfold Obligations.PowerEndsAndStartsThePart
  refine fun s => ⟨fun off high => ?_, fun off low => ?_, fun on => ?_, fun off => ?_, fun on => ?_, s.cutJobs_cells,
    State.banksCut_fresh s allBanks, s.cutJobs_pending, fun g => ?_, fun b j busy hop => State.cutJobs_cut busy hop,
    fun n => State.cutJobs_imp (M := fun t => n ∈ t.cut) fun s b j => s.jobCut_cut b j n, fun a h => readStamp_of_cut h, fun g => ?_,
    fun b j page seg data busy hop record general => ?_, fun b j page data busy hop descriptor => ?_,
    fun b j => ⟨s.drainWorked_ok b j, s.drainWorked_fail b j⟩, fun a => torn_general,
    fun b page => torn_descriptor b page rfl, fun b j o draining busy => ⟨fun high idle => ?_, fun held => ?_⟩⟩
  · change Host.Outcome.next { s with toDevice := s.coldStart } = _
    rw [Device.coldStart_enters off high]
  · change Host.Outcome.next { s with toDevice := s.coldStart } = _
    rw [Device.coldStart_held off low]
  · change Host.Outcome.next { s with toDevice := s.coldStart } = _
    rw [Device.coldStart_on on]
  · exact congrArg Host.Outcome.next (if_pos off)
  · exact congrArg Host.Outcome.next (if_neg on)
  · exact State.cutJobs_iff (M := fun t => g ∈ t.weak) fun s b j => s.jobCut_weak b j g
  · have gone := State.cutJobs_iff (s := s) (M := fun t => g ∉ t.spoilt)
      (N := fun b j => j.op = .blockErase ∧ g / 16 = ({ bank := b, block := j.block } : BlockAddr).num)
      fun s b j => by
        rw [s.jobCut_spoilt b j g]
        tauto
    refine not_iff_not.mp (gone.trans ?_)
    push Not
    exact ⟨fun h inside => (h.resolve_left fun out => out inside), fun h => (em (g ∈ s.spoilt)).symm.imp_right h⟩
  · exact State.cutJobs_torn busy fun t => t.jobCut_torn_segment hop record general
  · have torn := State.cutJobs_torn (page := page) (seg := 0) busy fun t => t.jobCut_torn_page hop descriptor
    rwa [descriptor] at torn
  · rw [State.execDrainJobDone_draining draining busy, Device.drained_over draining high idle]
  · rw [State.execDrainJobDone_draining draining busy, Device.drained_held held]

end

/-! ### Layout pages -/

section
variable {s : State} {b : Bank} {j : Job} {id : Nat}

/-- A layout page program that completes goes to the COMMIT LAYOUT that queued it (R167). -/
theorem State.execLayoutPageProgramDone_working (h : s.Working b j) (hby : j.by_ = .layoutPage id) (o : OkFail) :
    exec (.layoutPageProgramDone b o) s = .next (s.afterWork b j o (s.layoutPageDone id o)) := by
  refine congrArg Host.Outcome.next (State.programDone_working h o ?_)
  unfold Device.onLayoutPage
  rw [hby]

/-- A page program of a descriptor block that fails leaves a page that fails its CRC (R121, R152). -/
theorem State.jobWorked_torn_layout (hby : j.by_ = .layoutPage id) (descriptor : j.block = 0) {page : Nat}
    {data : List Byte} (hop : j.op = .pageProgram page data) (s : State) :
    segmentNum { bank := b, block := 0 } page 0 ∈ (s.jobWorked b j .fail).torn := by
  unfold State.jobWorked
  rw [hop]
  dsimp only
  rw [if_neg (by simp [hby]), if_neg (by simp), State.runFailed_torn, if_pos descriptor, descriptor]
  simp

end

/-- A layout page that fails its CRC counts as used and gives no layout (R152, R167). -/
theorem Device.layoutRead_torn {page : Nat} {data : List Byte} (invalid : readLayout page data = none)
    (programmed : allOnes data = false) (d : Device) (b : Bank) (r : ReadOutcome) :
    d.layoutRead b page r data = { d with scan := { d.scan with topPage := max d.scan.topPage page } } := by
  unfold Device.layoutRead
  cases r with
  | corrected n => simp [invalid, programmed]
  | uncorrectable => simp

/-- Settles O38: a layout page is programmed in bank 1 after bank 0, and one that failed in either bank is read as
none. -/
theorem layoutPagesAreProgrammedOneAfterTheOther : Obligations.LayoutPagesAreProgrammedOneAfterTheOther := by
  unfold Obligations.LayoutPagesAreProgrammedOneAfterTheOther
  refine fun s b j id v o h hby => ⟨fun first => ?_, fun first second => ⟨fun done => ?_, fun first_fail second_fail => ?_⟩,
    fun t data step fail descriptor hop => ?_, fun t lo hi torn => ?_⟩
  · rw [State.execLayoutPageProgramDone_working h hby]
    unfold Device.layoutPageDone
    rw [first]
    rfl
  · rw [State.execLayoutPageProgramDone_working h hby]
    unfold Device.layoutPageDone
    rw [second]
    dsimp only
    rw [if_pos done]
    rfl
  · rw [State.execLayoutPageProgramDone_working h hby]
    unfold Device.layoutPageDone
    rw [second]
    dsimp only
    rw [if_neg (by simp [first_fail, second_fail])]
  · rw [State.execLayoutPageProgramDone_working h hby] at step
    subst fail
    have array := State.jobWorked_torn_layout (b := b) hby descriptor hop s
    rwa [← Host.Outcome.next.inj step]
  · obtain ⟨invalid, programmed⟩ := (torn_descriptor (a := { bank := b, block := 0 }) b (4 + v) rfl).2 (by omega)
      (by omega) torn
    refine ⟨invalid, fun erased => ?_, fun d r => Device.layoutRead_torn invalid programmed d b r⟩
    rw [erased] at programmed
    revert programmed
    decide +kernel

end Sys2Proof.Machine

/-!
The choice of the next job (R120, R123): which jobs of a queue are eligible, and the settling of O59.
-/

namespace Sys2Proof.Machine

/-- A job of a queue with no older job of it for its block (R123). -/
def EligibleAt (queue : List Job) (i : Nat) (j : Job) : Prop :=
  queue[i]? = some j ∧ ∀ k j', k < i → queue[k]? = some j' → j'.block ≠ j.block

/-- The order of the classes, the highest first (R122). -/
def JobClass.rank : JobClass → Nat
  | .read => 0
  | .program => 1
  | .erase => 2

section
variable {queue : List Job} {cls : JobClass} {i : Nat} {j : Job}

/-- The test that `nextIndex` makes of a place in the queue. -/
theorem nextIndex_test (queue : List Job) (cls : JobClass) (i : Nat) :
    (match queue[i]? with
      | none => false
      | some j => decide (j.cls = cls) && !((queue.take i).any fun o => decide (o.block = j.block))) = true
      ↔ ∃ j, EligibleAt queue i j ∧ j.cls = cls := by
  cases at_i : queue[i]? with
  | none => simp [EligibleAt, at_i]
  | some j =>
    have older : ((queue.take i).any fun o => decide (o.block = j.block)) = false
        ↔ ∀ k j', k < i → queue[k]? = some j' → j'.block ≠ j.block := by
      simp only [List.any_eq_false, decide_eq_true_eq, List.mem_take_iff_getElem]
      constructor
      · intro h k j' lt at_k
        obtain ⟨inside, rfl⟩ := List.getElem?_eq_some_iff.mp at_k
        exact h _ ⟨k, by omega, rfl⟩
      · rintro h x ⟨k, lt, rfl⟩
        exact h k _ (by omega) (List.getElem?_eq_getElem (by omega))
    simp only [Bool.and_eq_true, decide_eq_true_eq, Bool.not_eq_true', older]
    constructor
    · rintro ⟨class_, apart⟩
      exact ⟨j, ⟨at_i, apart⟩, class_⟩
    · rintro ⟨j', ⟨at_i', apart⟩, class_⟩
      obtain rfl := Option.some.inj (at_i.symm.trans at_i')
      exact ⟨class_, apart⟩

/-- No job of a class is next when none of it is eligible. -/
theorem nextIndex_eq_none : nextIndex queue cls = none ↔ ∀ i j, EligibleAt queue i j → j.cls ≠ cls := by
  unfold nextIndex
  rw [List.find?_eq_none]
  constructor
  · intro h i j eligible class_
    obtain ⟨inside, -⟩ := List.getElem?_eq_some_iff.mp eligible.1
    exact h i (List.mem_range.mpr inside) ((nextIndex_test queue cls i).mpr ⟨j, eligible, class_⟩)
  · intro h i _ test
    obtain ⟨j, eligible, class_⟩ := (nextIndex_test queue cls i).mp test
    exact h i j eligible class_

/-- The next job of a class is the oldest eligible one of it. -/
theorem nextIndex_eq_some (eligible : EligibleAt queue i j)
    (oldest : ∀ i' j', EligibleAt queue i' j' → j'.cls = j.cls → i ≤ i') : nextIndex queue j.cls = some i := by
  unfold nextIndex
  rw [List.find?_range_eq_some]
  obtain ⟨inside, -⟩ := List.getElem?_eq_some_iff.mp eligible.1
  refine ⟨(nextIndex_test queue j.cls i).mpr ⟨j, eligible, rfl⟩, List.mem_range.mpr inside, fun k lt => ?_⟩
  rw [Bool.not_eq_true']
  refine Bool.eq_false_of_not_eq_true fun test => ?_
  obtain ⟨j', eligible', class_⟩ := (nextIndex_test queue j.cls k).mp test
  exact Nat.not_le_of_lt lt (oldest k j' eligible' class_)

end

/-- The place of the job that an engine takes next (R123). -/
def Engine.nextPlace (e : Engine) : Option Nat :=
  (nextIndex e.queue .read).orElse fun _ => (nextIndex e.queue .program).orElse fun _ => nextIndex e.queue .erase

section
variable {e : Engine} {i : Nat} {j : Job}

/-- The place is that of the oldest eligible job of the highest class present. -/
theorem Engine.nextPlace_eq_some (eligible : EligibleAt e.queue i j)
    (first : ∀ i' j', EligibleAt e.queue i' j' →
      j.cls.rank < j'.cls.rank ∨ (j.cls.rank = j'.cls.rank ∧ i ≤ i')) : e.nextPlace = some i := by
  have own : nextIndex e.queue j.cls = some i :=
    nextIndex_eq_some eligible fun i' j' eligible' class_ => by
      rcases first i' j' eligible' with lower | ⟨-, older⟩
      · rw [class_] at lower
        exact absurd lower (Nat.lt_irrefl _)
      · exact older
  have none_above (c : JobClass) (above : c.rank < j.cls.rank) : nextIndex e.queue c = none := by
    refine nextIndex_eq_none.mpr fun i' j' eligible' class_ => ?_
    subst class_
    rcases first i' j' eligible' with lower | ⟨same, -⟩ <;> omega
  unfold Engine.nextPlace
  cases class_ : j.cls with
  | read =>
    rw [class_] at own
    rw [own]
    rfl
  | program =>
    rw [class_] at own none_above
    rw [none_above .read (by decide), own]
    rfl
  | erase =>
    rw [class_] at own none_above
    rw [none_above .read (by decide), none_above .program (by decide), own]
    rfl

/-- The next place is that of a class, and there is none when no class has one. -/
theorem Engine.nextPlace_cases (e : Engine) :
    (∃ cls, e.nextPlace = nextIndex e.queue cls ∧ e.nextPlace ≠ none)
      ∨ (e.nextPlace = none ∧ ∀ cls, nextIndex e.queue cls = none) := by
  cases read : nextIndex e.queue .read with
  | some i => exact .inl ⟨.read, by simp [Engine.nextPlace, read]⟩
  | none =>
    cases program : nextIndex e.queue .program with
    | some i => exact .inl ⟨.program, by simp [Engine.nextPlace, read, program]⟩
    | none =>
      cases erase : nextIndex e.queue .erase with
      | some i => exact .inl ⟨.erase, by simp [Engine.nextPlace, read, program, erase]⟩
      | none => exact .inr ⟨by simp [Engine.nextPlace, read, program, erase], fun cls => by cases cls <;> assumption⟩

/-- A queue with a job has a next one: the oldest job of all is eligible. -/
theorem Engine.nextPlace_isSome (h : e.queue ≠ []) : e.nextPlace ≠ none := by
  obtain ⟨j, rest, queue⟩ := List.exists_cons_of_ne_nil h
  have eligible : EligibleAt e.queue 0 j := ⟨by rw [queue]; rfl, fun k _ lt => absurd lt (Nat.not_lt_zero k)⟩
  rcases e.nextPlace_cases with ⟨cls, -, some_⟩ | ⟨-, none_⟩
  · exact some_
  · exact absurd rfl (nextIndex_eq_none.mp (none_ j.cls) 0 j eligible)

/-- The next job is one of the queue. -/
theorem Engine.nextPlace_lt (h : e.nextPlace = some i) : i < e.queue.length := by
  rcases e.nextPlace_cases with ⟨cls, at_, -⟩ | ⟨none_, -⟩
  · exact List.mem_range.mp (List.mem_of_find?_eq_some (at_.symm.trans h))
  · nomatch none_.symm.trans h

/-- An engine with a job in progress takes none. -/
theorem Engine.takeNext_busy (h : e.current = some j) : e.takeNext = e := by
  unfold Engine.takeNext
  rw [h]

/-- An engine without a job takes the next one of its queue, and the oldest waiting job enters the queue. -/
theorem Engine.takeNext_takes (h : e.current = none) (next : e.nextPlace = some i) :
    e.takeNext
      = { queue := e.queue.eraseIdx i ++ e.waiting.take 1, waiting := e.waiting.drop 1, current := e.queue[i]? } := by
  unfold Engine.nextPlace at next
  unfold Engine.takeNext
  rw [h]
  dsimp only
  rw [next]

end

/-- Settles O59: the model's place of the next job is that of the oldest eligible one of the highest class. -/
theorem enginesTakeTheOldestJobOfTheHighestClass : Obligations.EnginesTakeTheOldestJobOfTheHighestClass := by
  unfold Obligations.EnginesTakeTheOldestJobOfTheHighestClass
  refine fun e => ⟨fun x busy => Engine.takeNext_busy busy, fun idle empty => ?_, fun idle full => ?_,
    fun i j idle eligible first => ?_, fun j => ⟨fun room none_waits => ?_, fun full => ?_⟩⟩
  · unfold Engine.takeNext
    rw [idle, empty]
    rfl
  · obtain ⟨i, next⟩ := Option.ne_none_iff_exists'.mp (Engine.nextPlace_isSome full)
    rw [Engine.takeNext_takes idle next]
    simp [Engine.nextPlace_lt next]
  · rw [Engine.takeNext_takes idle (Engine.nextPlace_eq_some eligible first), eligible.1]
  · exact congrArg Engine.takeNext (if_pos ⟨room, none_waits⟩)
  · refine congrArg Engine.takeNext (if_neg fun ⟨room, none_waits⟩ => ?_)
    rcases full with sixteen | waits
    · exact Nat.not_lt.mpr sixteen room
    · exact waits none_waits

end Sys2Proof.Machine

/-!
Bytes and records (R129, R130, R181, section 11.7): what a field of a record reads as once it is written, that the CRC of
what is written matches, and the settling of O10 and O58.
-/

namespace Sys2Proof.Machine

/-! ### Fields -/

section
variable {bytes : List Byte} {n v : Nat}

/-- Numbers are written in as many bytes as they are given (R129). -/
@[simp] theorem leBytes_length (n v : Nat) : (leBytes n v).length = n := by
  induction n generalizing v with
  | zero => rfl
  | succ n ih => simp [leBytes, ih]

/-- A number that fits its bytes is read back as written (R129). -/
theorem leValue_leBytes (h : v < 256 ^ n) : leValue (leBytes n v) = v := by
  induction n generalizing v with
  | zero => simpa [leBytes, leValue] using (Nat.lt_one_iff.mp h).symm
  | succ n ih =>
    have rest : leValue (leBytes n (v / 256)) = v / 256 := ih (Nat.div_lt_of_lt_mul (by rwa [← Nat.pow_succ']))
    unfold leBytes leValue
    rw [rest, BitVec.toNat_ofNat]
    omega

/-- What stands between a front and the bytes after it. -/
theorem sliceBytes_append (front bytes rest : List Byte) :
    sliceBytes (front ++ bytes ++ rest) front.length bytes.length = bytes := by
  unfold sliceBytes
  rw [List.append_assoc, List.drop_left, List.take_left]

/-- A field that stands at the end of bytes. -/
theorem fieldAt_append_leBytes (h : v < 256 ^ n) (front : List Byte) :
    fieldAt (front ++ leBytes n v) front.length n = v := by
  have slice := sliceBytes_append front (leBytes n v) []
  rw [List.append_nil, leBytes_length] at slice
  unfold fieldAt
  rw [slice, leValue_leBytes h]

/-- What is written with a CRC-16 has two bytes more. -/
@[simp] theorem withCrc16_length (bytes : List Byte) : (withCrc16 bytes).length = bytes.length + 2 := by
  simp [withCrc16]

/-- What is written with its CRC-16 has a CRC-16 that matches (R129). -/
theorem withCrc16_valid (bytes : List Byte) : crc16Valid (withCrc16 bytes) (bytes.length + 2) = true := by
  have field : fieldAt (withCrc16 bytes) bytes.length 2 = (crc16 bytes).toNat :=
    fieldAt_append_leBytes (BitVec.isLt _) bytes
  have front : (withCrc16 bytes).take bytes.length = bytes := List.take_left
  unfold crc16Valid
  rw [Nat.add_sub_cancel, field, front]
  simp

/-- The same of bytes whose number is known. -/
theorem crc16Valid_withCrc16 {body : List Byte} (h : body.length + 2 = n) : crc16Valid (withCrc16 body) n = true :=
  h ▸ withCrc16_valid body

end

/-! ### Records that are read back as written -/

/-- A wear stamp names the count it was written with. -/
theorem readStamp_wearStamp {n : Nat} (h : n < 120000) : readStamp (wearStamp n) = some n := by
  have count : fieldAt (wearStamp n) 0 4 = n := leValue_leBytes (n := 4) (by omega)
  have valid : crc16Valid (wearStamp n) 16 = true := crc16Valid_withCrc16 rfl
  unfold readStamp
  rw [count, valid]
  exact if_pos (decide_eq_true (Nat.le_pred_of_lt h))

/-- The copy of a code in a header. -/
theorem Copy.ofCode_code (c : Copy) : (if c.code = 1 then Copy.primary else Copy.mirror) = c := by cases c <;> rfl

/-- A copy has the code 1 or 2. -/
theorem Copy.code_range (c : Copy) : 1 ≤ c.code ∧ c.code ≤ 2 := by cases c <;> decide

/-- The code of the two flags of a header. -/
def flagsCode (frozen retired : Bool) : Nat := (if frozen then 1 else 0) + (if retired then 2 else 0)

/-- The two flags are read back from their code. -/
theorem flagsCode_read (frozen retired : Bool) :
    flagsCode frozen retired < 4 ∧ (decide (flagsCode frozen retired % 2 = 1)) = frozen
      ∧ (decide (flagsCode frozen retired / 2 = 1)) = retired := by
  cases frozen <;> cases retired <;> decide

section
variable {h : Header}

/-- The fields of a block header as it is written (section 7.8). -/
theorem headerRecord_fields (count : h.count < 256) (chunk : h.chunk < 256) (length : h.bodyLength < 256 ^ 4)
    (generation : h.generation < 256 ^ 4) :
    fieldAt (headerRecord h) 0 4 = h.name.key.toNat ∧ fieldAt (headerRecord h) 4 1 = h.name.ns.val
      ∧ fieldAt (headerRecord h) 5 1 = h.chunk ∧ fieldAt (headerRecord h) 6 1 = h.count
      ∧ fieldAt (headerRecord h) 7 1 = h.copy.code ∧ fieldAt (headerRecord h) 8 4 = h.generation
      ∧ fieldAt (headerRecord h) 12 4 = h.bodyLength
      ∧ fieldAt (headerRecord h) 16 1 = flagsCode h.frozen h.retired := by
  refine ⟨leValue_leBytes (n := 4) h.name.key.isLt, leValue_leBytes (n := 1) ?_, leValue_leBytes (n := 1) chunk,
    leValue_leBytes (n := 1) count, leValue_leBytes (n := 1) ?_, leValue_leBytes (n := 4) generation,
    leValue_leBytes (n := 4) length, leValue_leBytes (n := 1) ?_⟩
  · exact Nat.lt_trans h.name.ns.isLt (by decide)
  · exact Nat.lt_of_le_of_lt h.copy.code_range.2 (by decide)
  · exact Nat.lt_trans (flagsCode_read h.frozen h.retired).1 (by decide)

/-- A block header is read back as written (R130). -/
theorem readHeader_headerRecord (count : h.count = (h.bodyLength + 3327) / 3328) (some_ : 1 ≤ h.bodyLength)
    (length : h.bodyLength ≤ 53248) (chunk : h.chunk < h.count) (first : 1 ≤ h.generation)
    (generation : h.generation ≤ 4294967294) : readHeader (headerRecord h) = some h := by
  obtain ⟨key, ns, index, number, copy, gen, body, flags⟩ :=
    headerRecord_fields (h := h) (by omega) (by omega) (by omega) (by omega)
  obtain ⟨flag_range, frozen, retired⟩ := flagsCode_read h.frozen h.retired
  have valid : crc16Valid (headerRecord h) 64 = true := crc16Valid_withCrc16 rfl
  unfold readHeader
  simp only [key, ns, index, number, copy, gen, body, flags]
  rw [dif_pos ⟨valid, h.name.ns.isLt, chunk, by omega, by omega, h.copy.code_range.1, h.copy.code_range.2, first,
    generation, some_, length, count, flag_range⟩, frozen, retired, Copy.ofCode_code, BitVec.ofNat_toNat,
    BitVec.setWidth_eq]

end

/-- A commit record at the front of a page is read back as written (R130). -/
theorem readCommit_commitRecord {generation count length crc : Nat} (rest : List Byte) (h1 : 1 ≤ generation)
    (h2 : generation ≤ 4294967294) (h3 : 1 ≤ count) (h4 : count ≤ 16) (h5 : 1 ≤ length) (h6 : length ≤ 53248)
    (h7 : crc < 4294967296) :
    readCommit (Machine.commitRecord generation count length (leBytes 4 crc) ++ rest)
      = some { generation := generation, count := count, bodyLength := length, crc := BitVec.ofNat 32 crc } := by
  set page := Machine.commitRecord generation count length (leBytes 4 crc) ++ rest with hpage
  have gen : fieldAt page 0 4 = generation := leValue_leBytes (n := 4) (by omega)
  have number : fieldAt page 4 1 = count := leValue_leBytes (n := 1) (by omega)
  have body : fieldAt page 8 4 = length := leValue_leBytes (n := 4) (by omega)
  have sum : fieldAt page 12 4 = crc := leValue_leBytes (n := 4) (by omega)
  have valid : crc16Valid page 32 = true := by
    have front : page.take 32 = Machine.commitRecord generation count length (leBytes 4 crc) :=
      List.take_left (l₁ := Machine.commitRecord generation count length (leBytes 4 crc))
    rw [← crc16Valid_take (by decide) (by simp [hpage, Machine.commitRecord, fill, padded]), front]
    exact crc16Valid_withCrc16 rfl
  unfold readCommit
  rw [gen, number, body, sum, valid]
  exact if_pos (decide_eq_true ⟨h1, h2, h3, h4, h5, h6⟩)

/-- The kind of a mark is read back from its code. -/
theorem MarkKind.ofCode_code (k : MarkKind) : MarkKind.ofCode k.code = some k := by cases k <;> rfl

/-- A mark is read back as written (R130). -/
theorem readMark_markRecord {kind : MarkKind} {k generation : Nat} {page : List Byte} (h1 : 1 ≤ k) (h2 : k ≤ 4)
    (purge : kind = .purge ↔ k = 4) (h3 : 1 ≤ generation) (h4 : generation ≤ 4294967294)
    (slot : markSlot page k = markRecord kind k generation) :
    readMark page k = some { kind := kind, slot := k, generation := generation } := by
  have code : fieldAt (markRecord kind k generation) 0 1 = kind.code :=
    leValue_leBytes (n := 1) (by cases kind <;> decide)
  have own : fieldAt (markRecord kind k generation) 1 1 = k := leValue_leBytes (n := 1) (by omega)
  have gen : fieldAt (markRecord kind k generation) 4 4 = generation := leValue_leBytes (n := 4) (by omega)
  have valid : crc16Valid (markRecord kind k generation) 64 = true := crc16Valid_withCrc16 rfl
  unfold readMark
  dsimp only
  rw [slot, code, MarkKind.ofCode_code]
  dsimp only
  rw [own, gen, valid]
  refine if_pos ?_
  simp [purge, h3, Config.maxGeneration, h4]

/-- The cause of a bad block is read back from its code. -/
theorem BadCause.ofCode_code (c : BadCause) : BadCause.ofCode c.code = some c := by cases c <;> rfl

/-- A grown-bad entry is read back as written (R130). -/
theorem readGrownBad_grownBadRecord {a : BlockAddr} {cause : BadCause} {page seg : Nat} (general : a.block ≠ 0)
    (h1 : page ≤ 15) (h2 : seg ≤ 15) (only : cause ≠ .program → page = 0 ∧ seg = 0) :
    readGrownBad a.bank (grownBadRecord a.block.val cause page seg)
      = some { addr := a, cause := cause, page := page, segment := seg } := by
  have lt := a.block.isLt
  have pos : 1 ≤ a.block.val := Nat.one_le_iff_ne_zero.mpr fun zero => general (Fin.ext zero)
  have block : fieldAt (grownBadRecord a.block.val cause page seg) 0 2 = a.block.val :=
    leValue_leBytes (n := 2) (by omega)
  have code : fieldAt (grownBadRecord a.block.val cause page seg) 2 1 = cause.code :=
    leValue_leBytes (n := 1) (by cases cause <;> decide)
  have at_page : fieldAt (grownBadRecord a.block.val cause page seg) 3 1 = page := leValue_leBytes (n := 1) (by omega)
  have at_seg : fieldAt (grownBadRecord a.block.val cause page seg) 4 1 = seg := leValue_leBytes (n := 1) (by omega)
  have valid : crc16Valid (grownBadRecord a.block.val cause page seg) 16 = true := crc16Valid_withCrc16 rfl
  unfold readGrownBad
  simp only [block, code, at_page, at_seg, BadCause.ofCode_code]
  rw [dif_pos ⟨valid, pos, lt, h1, h2, Decidable.or_iff_not_imp_left.mpr only⟩]

/-! ### Layout pages -/

/-- A descriptor takes 24 bytes of its layout page. -/
theorem descRecord_length (d : NsDesc) : (descRecord d).length = 24 := by
  unfold descRecord
  split <;> simp [fill]

/-- The descriptor of a namespace is read back as written (R130). -/
theorem readDesc_descRecord {n : Nat} {d : NsDesc}
    (range : d.enabled = true → d.recordLimit ≤ 1024 ∧ d.quota ≤ 1792 ∧ (d.early = true → n = 0))
    (disabled : d.enabled = false → d = NsDesc.disabled) : readDesc n (descRecord d) = some d := by
  cases on : d.enabled with
  | false =>
    rw [disabled on]
    rfl
  | true =>
    obtain ⟨limit, quota, early⟩ := range on
    have written : descRecord d = leBytes 1 1 ++ leBytes 1 (flagCode d.mirrored) ++ leBytes 1 (flagCode d.early)
        ++ leBytes 1 d.primaryRight.code ++ leBytes 1 d.serviceRight.code ++ fill 3 0 ++ leBytes 2 d.recordLimit
        ++ leBytes 2 d.quota ++ fill 12 0 := if_pos on
    have flag (b : Bool) : flagOf (leValue (leBytes 1 (flagCode b))) = some b := by cases b <;> rfl
    have right (r : Right) : Right.ofCode (leValue (leBytes 1 r.code)) = some r := by cases r <;> rfl
    have one : flagOf (fieldAt (descRecord d) 0 1) = some true := by
      rw [written]
      rfl
    have mirrored : flagOf (fieldAt (descRecord d) 1 1) = some d.mirrored := by
      rw [written]
      exact flag d.mirrored
    have isEarly : flagOf (fieldAt (descRecord d) 2 1) = some d.early := by
      rw [written]
      exact flag d.early
    have primary : Right.ofCode (fieldAt (descRecord d) 3 1) = some d.primaryRight := by
      rw [written]
      exact right d.primaryRight
    have service : Right.ofCode (fieldAt (descRecord d) 4 1) = some d.serviceRight := by
      rw [written]
      exact right d.serviceRight
    have atLimit : fieldAt (descRecord d) 8 2 = d.recordLimit := by
      rw [written]
      exact leValue_leBytes (n := 2) (by omega)
    have atQuota : fieldAt (descRecord d) 10 2 = d.quota := by
      rw [written]
      exact leValue_leBytes (n := 2) (by omega)
    unfold readDesc
    rw [one, mirrored, isEarly, primary, service, atLimit, atQuota]
    simp only [Option.bind_eq_bind, Option.bind_some]
    rw [if_pos ⟨limit, quota, early⟩, if_true, ← on]

/-- The descriptors of a layout stand one after another in its page. -/
theorem slice_descriptors (front rest : List Byte) (ds : List NsDesc) (n : Nat) (h : n < ds.length) :
    sliceBytes (front ++ ds.flatMap descRecord ++ rest) (front.length + 24 * n) 24 = descRecord ds[n] := by
  have before : ((ds.take n).flatMap descRecord).length = 24 * n := by
    simp [List.length_flatMap, descRecord_length, Nat.min_eq_left (Nat.le_of_lt h), Nat.mul_comm]
  have split : ds.flatMap descRecord
      = (ds.take n).flatMap descRecord ++ (descRecord ds[n] ++ (ds.drop (n + 1)).flatMap descRecord) := by
    have cut := congrArg (List.flatMap descRecord) (List.take_append_drop n ds).symm
    rwa [List.flatMap_append, List.drop_eq_getElem_cons h, List.flatMap_cons] at cut
  have slice := sliceBytes_append (front ++ (ds.take n).flatMap descRecord) (descRecord ds[n])
    ((ds.drop (n + 1)).flatMap descRecord ++ rest)
  rw [List.length_append, before, descRecord_length] at slice
  rw [split]
  simpa using slice

section
variable {v : Nat} {l : Layout}

/-- The bytes of a layout page before its CRC-32 (section 7.8). -/
def layoutBody (v : Nat) (l : Layout) : List Byte :=
  leBytes 1 v ++ fill 7 0 ++ l.toList.flatMap descRecord ++ fill 52 0

/-- A layout page is its body and the body's CRC-32. -/
theorem layoutPage_eq (v : Nat) (l : Layout) : layoutPage v l = layoutBody v l ++ leBytes 4 (crc32 (layoutBody v l)).toNat :=
  rfl

/-- The body of a layout page has 252 bytes. -/
theorem layoutBody_length (v : Nat) (l : Layout) : (layoutBody v l).length = 252 := by
  simp [layoutBody, fill, List.length_flatMap, descRecord_length]

/-- A layout page names its descriptors. -/
theorem layoutPage_descriptor (v : Nat) (l : Layout) (n : NsIndex) :
    sliceBytes (layoutPage v l) (8 + 24 * n.val) 24 = descRecord l[n] := by
  have slice := slice_descriptors (leBytes 1 v ++ fill 7 0)
    (fill 52 0 ++ leBytes 4 (crc32 (layoutBody v l)).toNat) l.toList n (by simp)
  rw [layoutPage_eq]
  unfold layoutBody
  rw [List.append_assoc _ (fill 52 0)]
  exact slice

/-- A layout page is read back as written (R130, R152). -/
theorem readLayout_layoutPage (h1 : 1 ≤ v) (h2 : v ≤ 11)
    (range : ∀ n : NsIndex, l[n].enabled = true →
      l[n].recordLimit ≤ 1024 ∧ l[n].quota ≤ 1792 ∧ (l[n].early = true → n = 0))
    (disabled : ∀ n : NsIndex, l[n].enabled = false → l[n] = NsDesc.disabled) :
    readLayout (4 + v) (layoutPage v l) = some l := by
  have version : fieldAt (layoutPage v l) 0 1 = v := leValue_leBytes (n := 1) (by omega)
  have front : (layoutPage v l).take 252 = layoutBody v l := by
    rw [layoutPage_eq, ← layoutBody_length v l]
    exact List.take_left
  have sum : fieldAt (layoutPage v l) 252 4 = (crc32 (layoutBody v l)).toNat := by
    rw [layoutPage_eq, ← layoutBody_length v l]
    exact fieldAt_append_leBytes (BitVec.isLt _) _
  have desc (i : Nat) (hi : i < 8) : readDesc i (sliceBytes (layoutPage v l) (8 + 24 * i) 24) = some l[i] := by
    let n : NsIndex := ⟨i, hi⟩
    rw [layoutPage_descriptor v l n]
    exact readDesc_descRecord (fun on => (range n on).imp_right fun ⟨quota, early⟩ =>
      ⟨quota, fun is => congrArg Fin.val (early is)⟩) (disabled n)
  have all : #v[l[0], l[1], l[2], l[3], l[4], l[5], l[6], l[7]] = l := by
    ext i hi
    interval_cases i <;> rfl
  unfold readLayout
  rw [version, front, sum, if_pos ⟨rfl, Nat.add_comm .., h1, h2⟩]
  dsimp only
  rw [desc 0 (by decide), desc 1 (by decide), desc 2 (by decide), desc 3 (by decide), desc 4 (by decide),
    desc 5 (by decide), desc 6 (by decide), desc 7 (by decide)]
  exact congrArg some all

end

/-- Settles O58: each record's fields are read back as written, and its CRC matches. -/
theorem recordsOfTheArrayAreReadBackAsWritten : Obligations.RecordsOfTheArrayAreReadBackAsWritten := by
  unfold Obligations.RecordsOfTheArrayAreReadBackAsWritten
  exact ⟨fun h => readHeader_headerRecord, fun generation count length crc rest => readCommit_commitRecord rest,
    fun n => readStamp_wearStamp, fun kind k generation page => readMark_markRecord,
    fun a cause page seg => readGrownBad_grownBadRecord,
    fun v l h1 h2 range disabled => readLayout_layoutPage h1 h2 range disabled⟩

/-! ### SUBMIT frames -/

/-- A request kind is read back from its code. -/
theorem RequestKind.ofCode_code (k : RequestKind) : RequestKind.ofCode k.code = some k := by cases k <;> rfl

/-- The parameters of a kind are a request of the kind. -/
@[simp] theorem Req.kind_parse (k : RequestKind) (params : List Byte) : (Req.parse k params).kind = k := by
  cases k <;> rfl

/-- The parameters of a kind have a length that two bytes hold. -/
theorem RequestKind.length_lt {k : RequestKind} {n : Nat} (h : k.lengthOk n = true) : n < 65536 := by
  cases k with
  | putChunk =>
    have range : 4 ≤ n ∧ n ≤ 3 + 3328 := of_decide_eq_true h
    omega
  | _ =>
    simp only [RequestKind.lengthOk, decide_eq_true_eq] at h
    omega

section
variable {tag : Byte} {k : RequestKind} {params : List Byte}

/-- A SUBMIT frame is its front and the CRC-16 of the front (section 11.7). -/
def submitFront (tag : Byte) (k : RequestKind) (params : List Byte) : List Byte :=
  [submitCode, tag] ++ leBytes 1 k.code ++ leBytes 2 params.length ++ params

/-- A SUBMIT frame is read as it is laid (R172, R181). -/
theorem parseSubmit_submitFrame (h : k.lengthOk params.length = true) :
    parseSubmit (submitFrame tag k params) = some { tag := tag, body := Req.parse k params } := by
  have frame : submitFrame tag k params = withCrc16 (submitFront tag k params) := rfl
  have total : (submitFront tag k params).length + 2 = 7 + params.length := by
    simp [submitFront]
    omega
  have length : fieldAt (submitFrame tag k params) 3 2 = params.length :=
    leValue_leBytes (n := 2) (RequestKind.length_lt h)
  have code : fieldAt (submitFrame tag k params) 2 1 = k.code := leValue_leBytes (n := 1) (by cases k <;> decide)
  have body : sliceBytes (submitFrame tag k params) 5 params.length = params :=
    sliceBytes_append ([submitCode, tag] ++ leBytes 1 k.code ++ leBytes 2 params.length) params _
  have valid : crc16Valid (submitFrame tag k params) (7 + params.length) = true := by
    rw [frame]
    exact crc16Valid_withCrc16 total
  have whole : (submitFrame tag k params).length = 7 + params.length := by
    rw [frame, withCrc16_length, total]
  unfold parseSubmit
  dsimp only
  rw [length, code, body, if_pos ⟨whole, valid⟩, RequestKind.ofCode_code]
  dsimp only
  rw [if_pos h]
  rfl

end

/-- A frame that is read has the form R172 asks for. -/
theorem parseSubmit_eq_some {frame : List Byte} {r : Request} (h : parseSubmit frame = some r) :
    frame.length = 7 + fieldAt frame 3 2 ∧ crc16Valid frame frame.length = true
      ∧ RequestKind.ofCode (fieldAt frame 2 1) = some r.body.kind ∧ r.body.kind.lengthOk (fieldAt frame 3 2) = true
      ∧ r.tag = param8 frame 1 := by
  unfold parseSubmit at h
  dsimp only at h
  split at h
  next form =>
    obtain ⟨length, valid⟩ := form
    split at h
    · nomatch h
    next k code =>
      split at h
      next ok =>
        obtain rfl := Option.some.inj h
        refine ⟨length, by rwa [length], ?_, ?_, rfl⟩
        · rw [code, Req.kind_parse]
        · rwa [Req.kind_parse]
      · nomatch h
  · nomatch h

/-- The two bytes of a parameter (section 11.7). -/
def twoBytes (v : BitVec 16) : List Byte := [v.setWidth 8, (v >>> 8).setWidth 8]

/-- The four bytes of a key (section 11.7). -/
def fourBytes (v : Key) : List Byte :=
  [v.setWidth 8, (v >>> 8).setWidth 8, (v >>> 16).setWidth 8, (v >>> 24).setWidth 8]

/-- The bytes of a parameter are those of its number. -/
theorem twoBytes_eq (v : BitVec 16) : twoBytes v = leBytes 2 v.toNat := by
  have := v.isLt
  simp only [twoBytes, leBytes, List.cons.injEq, and_true]
  constructor <;> apply BitVec.eq_of_toNat_eq <;> simp [Nat.shiftRight_eq_div_pow]

/-- The bytes of a key are those of its number. -/
theorem fourBytes_eq (v : Key) : fourBytes v = leBytes 4 v.toNat := by
  have := v.isLt
  simp only [fourBytes, leBytes, List.cons.injEq, and_true]
  refine ⟨?_, ?_, ?_, ?_⟩ <;> apply BitVec.eq_of_toNat_eq <;> simp [Nat.shiftRight_eq_div_pow, Nat.div_div_eq_div_mul]

/-- A parameter of two bytes is read as written. -/
theorem leValue_twoBytes (v : BitVec 16) : BitVec.ofNat 16 (leValue (twoBytes v)) = v := by
  rw [twoBytes_eq, leValue_leBytes (n := 2) v.isLt, BitVec.ofNat_toNat, BitVec.setWidth_eq]

/-- A key is read as written. -/
theorem leValue_fourBytes (v : Key) : BitVec.ofNat 32 (leValue (fourBytes v)) = v := by
  rw [fourBytes_eq, leValue_leBytes (n := 4) v.isLt, BitVec.ofNat_toNat, BitVec.setWidth_eq]

/-- A frame whose bytes are written out is the SUBMIT frame of its kind and parameters. -/
theorem submitFrame_eq {tag : Byte} {k : RequestKind} {params : List Byte} (h : k.lengthOk params.length = true)
    {front : List Byte}
    (hf : front = [0xA1, tag, BitVec.ofNat 8 k.code] ++ twoBytes (BitVec.ofNat 16 params.length) ++ params) :
    front ++ twoBytes (crc16 front) = submitFrame tag k params := by
  have length : twoBytes (BitVec.ofNat 16 params.length) = leBytes 2 params.length := by
    rw [twoBytes_eq, BitVec.toNat_ofNat, Nat.mod_eq_of_lt (RequestKind.length_lt h)]
  have same : front = submitFront tag k params := by
    rw [hf, length]
    rfl
  rw [twoBytes_eq, same]
  rfl

/-- A frame that is written out byte by byte carries the request that its parameters are. -/
theorem parseSubmit_written {tag : Byte} {k : RequestKind} {params : List Byte} {body : Req}
    (h : k.lengthOk params.length = true) (hb : Req.parse k params = body) {front : List Byte}
    (hf : front = [0xA1, tag, BitVec.ofNat 8 k.code] ++ twoBytes (BitVec.ofNat 16 params.length) ++ params) :
    parseSubmit (front ++ twoBytes (crc16 front)) = some { tag := tag, body := body } := by
  rw [submitFrame_eq h hf, parseSubmit_submitFrame h, hb]

/-- Settles O10: a frame is its front and CRC-16, and each parameter is read from the bytes it was written to. -/
theorem submitFramesAreReadAsTheyAreLaid : Obligations.SubmitFramesAreReadAsTheyAreLaid := by
  unfold Obligations.SubmitFramesAreReadAsTheyAreLaid
  refine ⟨fun tag k params => parseSubmit_submitFrame, ?_, fun frame r => parseSubmit_eq_some⟩
  intro tag ns key x y z p q r t u data two name reads
  have kx : BitVec.ofNat 16 (leValue (twoBytes x)) = x := leValue_twoBytes x
  have ky : BitVec.ofNat 16 (leValue (twoBytes y)) = y := leValue_twoBytes y
  have kz : BitVec.ofNat 16 (leValue (twoBytes z)) = z := leValue_twoBytes z
  have kk : BitVec.ofNat 32 (leValue (fourBytes key)) = key := leValue_fourBytes key
  have laid (k : RequestKind) (params : List Byte) {body : Req} (h : k.lengthOk params.length = true)
      (hb : Req.parse k params = body) : reads (BitVec.ofNat 8 k.code) params body := parseSubmit_written h hb rfl
  refine ⟨?find, ?list, ?read, ?check, ?openUpdate, ?putChunk, ?commit, ?abandon, ?retire, ?restore, ?hold, ?release,
    ?freeze, ?lockNamespace, ?configure, ?maintain, ?health, ?identify, ?defineNamespace, ?commitLayout, ?reset,
    ?purge⟩
  case find => exact laid .find name rfl (congrArg (Req.find ns) kk)
  case list => exact laid .list (name ++ [p]) rfl (congrArg (Req.list ns · p) kk)
  case read =>
    refine laid .read (name ++ two x ++ two y) rfl ?_
    change Req.read ns (BitVec.ofNat 32 (leValue (fourBytes key))) (BitVec.ofNat 16 (leValue (twoBytes x)))
      (BitVec.ofNat 16 (leValue (twoBytes y))) = _
    rw [kk, kx, ky]
  case check => exact laid .check name rfl (congrArg (Req.check ns) kk)
  case openUpdate =>
    exact laid .openUpdate (name ++ two x ++ [p]) rfl (congrArg₂ (Req.openUpdate ns · · p) kk kx)
  case putChunk =>
    intro some_ most
    have length : (two x ++ [p] ++ data).length = 3 + data.length := by
      simp [two]
      omega
    refine laid .putChunk (two x ++ [p] ++ data) (decide_eq_true ?_) (congrArg (Req.putChunk · p data) kx)
    rw [length]
    exact ⟨Nat.add_le_add_left some_ 3, Nat.add_le_add_left most 3⟩
  case commit => exact laid .commit (two x) rfl (congrArg Req.commit kx)
  case abandon => exact laid .abandon (two x) rfl (congrArg Req.abandon kx)
  case retire => exact laid .retire name rfl (congrArg (Req.retire ns) kk)
  case restore => exact laid .restore name rfl (congrArg (Req.restore ns) kk)
  case hold => exact laid .hold name rfl (congrArg (Req.hold ns) kk)
  case release => exact laid .release name rfl (congrArg (Req.release ns) kk)
  case freeze => exact laid .freeze name rfl (congrArg (Req.freeze ns) kk)
  case lockNamespace => exact laid .lockNamespace [ns] rfl rfl
  case configure =>
    exact laid .configure (two x ++ [p, q] ++ two y ++ [r, t]) rfl (congrArg₂ (Req.configure · p q · r t) kx ky)
  case maintain => exact laid .maintain [] rfl rfl
  case health => exact laid .health [] rfl rfl
  case identify => exact laid .identify [] rfl rfl
  case defineNamespace =>
    exact laid .defineNamespace ([ns, p] ++ two x ++ two z ++ [q, r, t, u]) rfl
      (congrArg₂ (Req.defineNamespace ns p · · q r t u) kx kz)
  case commitLayout => exact laid .commitLayout [] rfl rfl
  case reset => exact laid .reset [] rfl rfl
  case purge => exact laid .purge [] rfl rfl

end Sys2Proof.Machine

/-!
What jobs leave in the array (R115, R121, R125): the bytes and the pages of a run of segments by their numbers, and the
settling of O56.
-/

namespace Sys2Proof.Machine

/-! ### Places in the array by their numbers -/

section
variable {a : BlockAddr} {page seg first g x : Nat}

/-- A byte of the array that a run of bytes of a page covers. -/
def InRun (a : BlockAddr) (page first length x : Nat) : Prop :=
  x / 256 = a.num * 16 + page ∧ first ≤ x % 256 ∧ x % 256 < first + length

/-- The bytes from a place in a page on are those of a run. -/
theorem inRun_iff {length : Nat} (hp : page < 16) (fits : first + length ≤ 256) :
    InRun a page first length x ↔ pageBase a page + first ≤ x ∧ x < pageBase a page + first + length := by
  unfold InRun pageBase blockBase
  omega

/-- A byte of a run is one of its data. -/
theorem InRun.eq_add {length : Nat} (h : InRun a page first length x) (hp : page < 16) :
    x = pageBase a page + first + (x % 256 - first) ∧ x % 256 - first < length := by
  obtain ⟨at_page, lo, hi⟩ := h
  unfold pageBase blockBase
  omega

/-- A program that stays in its page stores from its segment on. -/
theorem runBase_eq (hs : seg < 16) : runBase a page seg = pageBase a page + 16 * seg := by
  unfold runBase
  rw [Nat.mod_eq_of_lt hs, Nat.mul_comm]

/-- A program that stays in its page stores all its data. -/
theorem runData_eq {data : List Byte} (hs : seg < 16) (fits : seg * 16 + data.length ≤ 256) : runData seg data = data := by
  unfold runData
  rw [Nat.mod_eq_of_lt hs, List.take_of_length_le (by omega)]

/-- The segments of a run are those whose first byte it covers. -/
theorem mem_runSegments_iff {data : List Byte} (hp : page < 16) (hs : seg < 16) (fits : seg * 16 + data.length ≤ 256) :
    g ∈ runSegments a page seg data ↔ InRun a page (16 * seg) data.length (16 * g) := by
  rw [mem_runSegments, runBase_eq hs, runData_eq hs fits, inRun_iff hp (by omega)]

/-- The number of a page. -/
theorem pageNum_eq (hp : page < 16) : pageNum a page = a.num * 16 + page := by
  unfold pageNum pageBase blockBase
  omega

/-- The number of a segment. -/
theorem segmentNum_eq (hp : page < 16) (hs : seg < 16) : segmentNum a page seg = (a.num * 16 + page) * 16 + seg := by
  unfold segmentNum pageBase blockBase
  omega

/-- The bytes that a verify from a first page on reads. -/
def VerifyReads (a : BlockAddr) (first x : Nat) : Prop := x / 4096 = a.num ∧ (first = 1 → 256 ≤ x % 4096)

/-- What a verify reads, by places. -/
theorem verifyReads_iff (h : first ≤ 1) :
    VerifyReads a first x ↔ blockBase a + 256 * first ≤ x ∧ x < blockBase a + 4096 := by
  unfold VerifyReads blockBase
  interval_cases first <;> omega

/-- The units of the pages that a verify reads. -/
theorem inPagesFrom_iff {n : Nat} (h : first ≤ 1) : inPagesFrom a first n g = true ↔ VerifyReads a first (n * g) := by
  unfold inPagesFrom
  rw [Bool.and_eq_true, decide_eq_true_iff, decide_eq_true_iff, verifyReads_iff h]

end

/-! ### Programs -/

section
variable {s : State} {a : BlockAddr} {page seg : Nat} {data : List Byte}

/-- What a program leaves of what no rule fixes, and of the records that fail their CRC (R121). -/
theorem State.programmed_marks (hp : page < 16) (hs : seg < 16) (fits : seg * 16 + data.length ≤ 256) :
    (∀ g, g ∈ (s.programmed a page seg data).weak ↔ g ∈ s.weak ∧ ¬InRun a page (16 * seg) data.length (16 * g))
      ∧ (∀ g, g ∈ (s.programmed a page seg data).torn ↔ g ∈ s.torn ∧ ¬InRun a page (16 * seg) data.length (16 * g))
      ∧ ∀ n, n ∈ (s.programmed a page seg data).cut ↔ n ∈ s.cut ∧ (page = 0 ∧ 16 * seg = 0 → n ≠ a.num) := by
  have outside (g : Nat) : (runSegments a page seg data).contains g = false
      ↔ ¬InRun a page (16 * seg) data.length (16 * g) := by
    rw [← mem_runSegments_iff hp hs fits, ← Bool.not_eq_true, List.contains_iff_mem]
  refine ⟨fun g => ?_, fun g => ?_, fun n => ?_⟩
  · change g ∈ dropNums s.weak _ ↔ _
    rw [mem_dropNums, outside]
  · change g ∈ dropNums s.torn _ ↔ _
    rw [mem_dropNums, outside]
  · change n ∈ (if page % 16 = 0 ∧ seg % 16 = 0 then mended s.cut a else s.cut) ↔ _
    rw [Nat.mod_eq_of_lt hp, Nat.mod_eq_of_lt hs]
    by_cases start : page = 0 ∧ seg = 0
    · rw [if_pos start, mem_mended]
      simp [start]
    · rw [if_neg start]
      exact ⟨fun h => ⟨h, fun at_ => absurd ⟨at_.1, by omega⟩ start⟩, And.left⟩

/-- What a program leaves in the cells: each byte keeps its zeros and takes those of the data (R115, R121). -/
theorem State.programmed_get (hp : page < 16) (hs : seg < 16) (fits : seg * 16 + data.length ≤ 256) (x : Nat) :
    (InRun a page (16 * seg) data.length x → Memory.get (s.programmed a page seg data).cells x
        = if x / 16 ∈ s.weak then data.getD (x % 256 - 16 * seg) 0xFF
          else Memory.get s.cells x &&& data.getD (x % 256 - 16 * seg) 0xFF)
      ∧ (¬InRun a page (16 * seg) data.length x →
        Memory.get (s.programmed a page seg data).cells x = Memory.get s.cells x) := by
  have cells : (s.programmed a page seg data).cells
      = Memory.program s.weak s.cells (pageBase a page + 16 * seg) data := by
    change Memory.program s.weak s.cells (runBase a page seg) (runData seg data) = _
    rw [runBase_eq hs, runData_eq hs fits]
  rw [cells]
  refine ⟨fun inside => ?_, fun outside => ?_⟩
  · obtain ⟨place, lt⟩ := inside.eq_add hp
    rw [List.getD_eq_getElem _ _ lt]
    conv_lhs => rw [place]
    rw [Memory.get_program_inside _ _ _ _ _ lt, ← place]
  · rw [inRun_iff hp (by omega)] at outside
    exact Memory.get_program_outside _ _ _ _ _ (by omega)

end

/-! ### Verifies -/

section
variable {s : State} {a : BlockAddr} {first : Nat}

/-- An ERASE VERIFY passes when the command says so and every fixed byte it reads is erased (R121). -/
theorem State.verifyPasses_iff (h : first ≤ 1) (o : OkFail) :
    s.verifyPasses a first o = true
      ↔ o = .ok ∧ ∀ x, VerifyReads a first x → s.unfixed x = false → Memory.get s.cells x = 0xFF := by
  unfold State.verifyPasses
  dsimp only
  rw [Bool.and_eq_true, decide_eq_true_iff, List.all_eq_true]
  refine and_congr_right fun _ => ⟨fun all x reads fixed => ?_, fun all i hi => ?_⟩
  · rw [verifyReads_iff h] at reads
    have one := all (x - (blockBase a + 256 * first)) (List.mem_range.mpr (by omega))
    rw [Nat.add_sub_cancel' reads.1, fixed, Bool.false_or, beq_iff_eq, Memory.get_window _ (by omega)] at one
    exact one
  · have lt := List.mem_range.mp hi
    rw [Bool.or_eq_true, beq_iff_eq, Memory.get_window _ (by omega)]
    refine (Bool.eq_false_or_eq_true _).imp_right fun fixed => all _ ?_ fixed
    rw [verifyReads_iff h]
    omega

/-- What a verify that passes leaves of what no rule fixes, and of the records that fail their CRC (R121). -/
theorem State.verified_marks (h : first ≤ 1) :
    (∀ g, g ∈ (s.verified a first).weak ↔ g ∈ s.weak ∧ ¬VerifyReads a first (16 * g))
      ∧ (∀ g, g ∈ (s.verified a first).spoilt ↔ g ∈ s.spoilt ∧ ¬VerifyReads a first (256 * g))
      ∧ (∀ g, g ∈ (s.verified a first).torn ↔ g ∈ s.torn ∧ ¬VerifyReads a first (16 * g))
      ∧ ∀ n, n ∈ (s.verified a first).cut ↔ n ∈ s.cut ∧ (first = 0 → n ≠ a.num) := by
  have outside (n g : Nat) : inPagesFrom a first n g = false ↔ ¬VerifyReads a first (n * g) := by
    rw [← inPagesFrom_iff h, Bool.not_eq_true]
  refine ⟨fun g => ?_, fun g => ?_, fun g => ?_, fun n => ?_⟩
  · change g ∈ dropNums s.weak _ ↔ _
    rw [mem_dropNums, outside]
  · change g ∈ dropNums s.spoilt _ ↔ _
    rw [mem_dropNums, outside]
  · change g ∈ dropNums s.torn _ ↔ _
    rw [mem_dropNums, outside]
  · change n ∈ (if first = 0 then mended s.cut a else s.cut) ↔ _
    split
    next zero => simp [zero]
    next other => simp [other]

/-- The bytes of an erased block (R115). -/
theorem Memory.get_eraseBlock (m : List Host.Cell) (a : BlockAddr) (x : Nat) :
    Memory.get (Memory.eraseBlock m a) x = if x / 4096 = a.num then 0xFF else Memory.get m x := by
  split
  next inside =>
    have place : x = blockBase a + (x - blockBase a) ∧ x - blockBase a < 4096 := by
      unfold blockBase
      omega
    rw [place.1]
    exact Memory.get_eraseBlock_inside _ _ _ place.2
  next outside => exact Memory.get_eraseBlock_outside _ _ _ outside

/-- What a verify that passes leaves in the cells: the pages it read are erased (R121). -/
theorem State.verified_get (h : first ≤ 1) (x : Nat) :
    (VerifyReads a first x → Memory.get (s.verified a first).cells x = 0xFF)
      ∧ (¬VerifyReads a first x → Memory.get (s.verified a first).cells x = Memory.get s.cells x) := by
  change (_ → Memory.get (if first = 0 then Memory.eraseBlock s.cells a
    else s.cells.filter fun c => !inPagesFrom a first 1 c.1) x = _) ∧ (_ → Memory.get (if first = 0 then
      Memory.eraseBlock s.cells a else s.cells.filter fun c => !inPagesFrom a first 1 c.1) x = _)
  have reads : inPagesFrom a first 1 x = true ↔ VerifyReads a first x := by
    rw [inPagesFrom_iff h, Nat.one_mul]
  split
  next zero =>
    rw [Memory.get_eraseBlock]
    subst zero
    unfold VerifyReads
    exact ⟨fun inside => if_pos inside.1, fun outside => if_neg fun at_ => outside ⟨at_, by simp⟩⟩
  next other =>
    obtain rfl : first = 1 := by omega
    refine ⟨fun inside => ?_, fun outside => ?_⟩
    · rw [Memory.get_unlisted fun c hc at_ => ?_]
      · exact factoryByte_erased (by have := inside.2 rfl; omega)
      · have kept := (List.mem_filter.mp hc).2
        rw [at_, reads.mpr inside] at kept
        nomatch kept
    · refine Memory.get_filter (keep := fun x => !inPagesFrom a 1 1 x) ?_
      rw [Bool.not_eq_true', ← Bool.not_eq_true, reads]
      exact outside

/-- What a page read returns of a byte that a rule fixes, in a page with no record that fails its CRC and a block whose
erase was not cut short (R116). -/
theorem pageBytes_getElem? {page i : Nat} (hp : page < 16) (hi : i < 256)
    (fixed : s.unfixed (a.num * 4096 + page * 256 + i) = false)
    (whole : ∀ g ∈ s.torn, g / 16 ≠ a.num * 16 + page) (erased : a.num ∉ s.cut) :
    (pageBytes s a page)[i]? = some (Memory.get s.cells (a.num * 4096 + page * 256 + i)) := by
  have place : pageBase a page + i = a.num * 4096 + page * 256 + i := by
    unfold pageBase blockBase
    omega
  have none_torn (bytes : List Byte) : tornEnds s a page bytes = [] := by
    unfold tornEnds
    rw [List.map_eq_nil_iff, List.filter_eq_nil_iff]
    intro run _ fails
    have torn : segmentNum a page run.1 ∈ s.torn := of_decide_eq_true (Bool.and_eq_true_iff.mp fails).1
    refine whole _ torn ?_
    unfold segmentNum pageBase blockBase
    omega
  have raw : stampedBytes s a page = rawBytes s a page := by
    unfold stampedBytes
    exact if_neg fun h => erased h.1
  unfold pageBytes
  rw [disturbed_get, none_torn, raw]
  unfold rawBytes
  simp only [List.getElem?_map, List.getElem?_range hi, Option.map_some, List.not_mem_nil, if_false]
  rw [place, fixed, Memory.get_window _ (by omega)]
  rfl

end

/-! ### Jobs -/

section
variable {s : State} {b : Bank} {j : Job}

/-- A page program that completes OK (R121). -/
theorem State.jobWorked_page_ok {page : Nat} {data : List Byte} (hop : j.op = .pageProgram page data)
    (plain : j.by_ ≠ .purgeOverwrite) :
    s.jobWorked b j .ok = s.programmed { bank := b, block := j.block } page 0 data := by
  unfold State.jobWorked
  rw [hop]
  dsimp only
  rw [if_neg plain, if_pos rfl]

/-- A segment program that completes OK (R121). -/
theorem State.jobWorked_segment_ok {page seg : Nat} {data : List Byte} (hop : j.op = .segmentProgram page seg data) :
    s.jobWorked b j .ok = s.programmed { bank := b, block := j.block } page seg data := by
  unfold State.jobWorked
  rw [hop]

/-- A page program that completes FAIL (R121). -/
theorem State.jobWorked_page_fail {page : Nat} {data : List Byte} (hop : j.op = .pageProgram page data)
    (plain : j.by_ ≠ .purgeOverwrite) :
    s.jobWorked b j .fail = s.runFailed { bank := b, block := j.block } page 0 := by
  unfold State.jobWorked
  rw [hop]
  dsimp only
  rw [if_neg plain, if_neg (by decide)]

/-- A segment program that completes FAIL (R121). -/
theorem State.jobWorked_segment_fail {page seg : Nat} {data : List Byte} (hop : j.op = .segmentProgram page seg data) :
    s.jobWorked b j .fail = s.runFailed { bank := b, block := j.block } page seg := by
  unfold State.jobWorked
  rw [hop]

/-- A page of a zero overwrite, with either outcome (R125). -/
theorem State.jobWorked_overwrite {page : Nat} {data : List Byte} (hop : j.op = .pageProgram page data)
    (hby : j.by_ = .purgeOverwrite) (o : OkFail) :
    s.jobWorked b j o = s.pageOverwritten { bank := b, block := j.block } page := by
  unfold State.jobWorked
  rw [hop]
  dsimp only
  rw [if_pos hby]

/-- A verify, by whether it passes (R121). -/
theorem State.jobWorked_verify {first : Nat} (hop : j.op = .eraseVerify first) (o : OkFail) :
    s.jobWorked b j o = if s.verifyPasses { bank := b, block := j.block } first o = true
      then s.verified { bank := b, block := j.block } first else s := by
  unfold State.jobWorked
  rw [hop]

/-- What a zero overwrite leaves in the cells (R125). -/
theorem State.pageOverwritten_get {a : BlockAddr} {page : Nat} (hp : page < 16) (x : Nat) :
    Memory.get (s.pageOverwritten a page).cells x = if x / 256 = a.num * 16 + page then 0 else Memory.get s.cells x := by
  change Memory.get (Memory.store s.cells (pageBase a page) (fill 256 0)) x = _
  have base : pageBase a page = (a.num * 16 + page) * 256 := by
    unfold pageBase blockBase
    omega
  split
  next inside =>
    have place : x = pageBase a page + x % 256 := by omega
    have length : (fill 256 0).length = 256 := List.length_replicate
    rw [place, Memory.get_store_inside _ _ _ _ (by rw [length]; omega)]
    exact List.getElem_replicate _
  next outside =>
    refine Memory.get_store_outside _ _ _ _ ?_
    simp only [fill, List.length_replicate]
    omega

/-- What a zero overwrite leaves of what no rule fixes, and of the records that fail their CRC (R125). -/
theorem State.pageOverwritten_marks {a : BlockAddr} {page : Nat} (hp : page < 16) :
    (∀ g, g ∈ (s.pageOverwritten a page).weak ↔ g ∈ s.weak ∧ ¬g / 16 = a.num * 16 + page)
      ∧ (∀ g, g ∈ (s.pageOverwritten a page).spoilt ↔ g ∈ s.spoilt ∧ ¬g = a.num * 16 + page)
      ∧ (∀ g, g ∈ (s.pageOverwritten a page).torn ↔ g ∈ s.torn ∧ ¬g / 16 = a.num * 16 + page)
      ∧ ∀ n, n ∈ (s.pageOverwritten a page).cut ↔ n ∈ s.cut ∧ (page = 0 → n ≠ a.num) := by
  rw [← pageNum_eq hp]
  refine ⟨fun g => ?_, fun g => ?_, fun g => ?_, fun n => ?_⟩
  · simp [State.pageOverwritten]
  · simp [State.pageOverwritten]
  · simp [State.pageOverwritten]
  · change n ∈ (if page % 16 = 0 then mended s.cut a else s.cut) ↔ _
    rw [Nat.mod_eq_of_lt hp]
    split
    next zero => simp [zero]
    next other => simp [other]

end

/-- What a program that failed leaves (R121). -/
theorem State.runFailed_marks {s : State} {a : BlockAddr} {page seg : Nat} (hp : page < 16) :
    (s.runFailed a page seg).cells = s.cells ∧ (s.runFailed a page seg).weak = s.weak
      ∧ (∀ g, g ∈ (s.runFailed a page seg).spoilt ↔ g ∈ s.spoilt ∨ g = a.num * 16 + page)
      ∧ (a.block ≠ 0 → (s.runFailed a page seg).torn = s.torn)
      ∧ ∀ n, n ∈ (s.runFailed a page seg).cut ↔ n ∈ s.cut ∧ (page = 0 → n ≠ a.num) := by
  refine ⟨s.runFailed_cells a page seg, s.runFailed_weak a page seg, fun g => ?_, fun general => ?_, fun n => ?_⟩
  · simp [pageNum_eq hp]
  · rw [State.runFailed_torn, if_neg general]
  · rw [State.runFailed_cut, Nat.mod_eq_of_lt hp]
    split
    next zero => simp [zero]
    next other => simp [other]

/-- In a descriptor block the record of a program that failed fails its CRC (R110, R152). -/
theorem State.runFailed_torn_iff {s : State} {a : BlockAddr} {page seg : Nat} (descriptor : a.block = 0) (hp : page < 16)
    (hs : seg < 16) (g : Nat) :
    g ∈ (s.runFailed a page seg).torn ↔ g ∈ s.torn ∨ g = (a.num * 16 + page) * 16 + seg := by
  rw [State.runFailed_torn, if_pos descriptor, segmentNum_eq hp hs]
  simp

/-- Settles O56: each kind of job leaves what its own rule about the array says. -/
theorem jobsWorkTheArrayAsTheirKindSays : Obligations.JobsWorkTheArrayAsTheirKindSays := by
  unfold Obligations.JobsWorkTheArrayAsTheirKindSays
  intro s b j o _ a after readsAs keeps programs
  have programmed (page seg : Nat) (data : List Byte) (hp : page < 16) (hs : seg < 16)
      (fits : seg * 16 + data.length ≤ 256) (left : after = s.programmed a page seg data) :
      programs page (16 * seg) data := by
    obtain ⟨weak, torn, cut⟩ := State.programmed_marks (s := s) (a := a) hp hs fits
    unfold programs keeps readsAs
    rw [left]
    refine ⟨⟨weak, by simp, torn, cut⟩, fun x _ => ?_⟩
    obtain ⟨inside, outside⟩ := State.programmed_get (s := s) (a := a) hp hs fits x
    dsimp only
    split
    next covered => exact inside covered
    next apart => exact outside apart
  have failed (page seg : Nat) (hp : page < 16) (left : after = s.runFailed a page seg) :
      after.cells = s.cells ∧ after.weak = s.weak ∧ (∀ g, g ∈ after.spoilt ↔ g ∈ s.spoilt ∨ g = a.num * 16 + page)
        ∧ (j.block ≠ 0 → after.torn = s.torn) ∧ ∀ n, n ∈ after.cut ↔ n ∈ s.cut ∧ (page = 0 → n ≠ a.num) := by
    rw [left]
    exact State.runFailed_marks hp
  refine ⟨fun page hop => ?_, fun page data hop plain ok hp full => ?_, fun page seg data hop ok hp hs _ fits => ?_,
    fun page fail hp kind => ?_, fun page first fail descriptor hp hf kind => ?_, fun hop ok => ?_, fun hop fail => ?_,
    fun page data hop hby hp => ?_, fun first hop hf => ?_, fun x page i hp hi => ⟨?_, fun fixed whole erased => ?_⟩⟩
  · unfold after State.jobWorked
    rw [hop]
  · subst ok
    exact programmed page 0 data hp (by omega) (by omega) (State.jobWorked_page_ok hop plain)
  · subst ok
    exact programmed page seg data hp hs fits (State.jobWorked_segment_ok hop)
  · subst fail
    rcases kind with ⟨data, hop, plain⟩ | ⟨seg, data, hop⟩
    · exact failed page 0 hp (State.jobWorked_page_fail hop plain)
    · exact failed page seg hp (State.jobWorked_segment_fail hop)
  · subst fail
    have left : after = s.runFailed a page first := by
      rcases kind with ⟨data, hop, plain, rfl⟩ | ⟨data, hop⟩
      · exact State.jobWorked_page_fail hop plain
      · exact State.jobWorked_segment_fail hop
    rw [left]
    exact State.runFailed_torn_iff descriptor hp hf
  · subst ok
    have left : after = s.blockErased a := by
      unfold after State.jobWorked
      rw [hop]
    unfold keeps readsAs
    rw [left]
    exact ⟨⟨by simp [State.blockErased], by simp [State.blockErased], by simp [State.blockErased],
      by simp [State.blockErased]⟩, fun x _ => Memory.get_eraseBlock _ _ x⟩
  · subst fail
    have left : after = s.blockSpoiled a := by
      unfold after State.jobWorked
      rw [hop]
    rw [left]
    exact ⟨rfl, by simp [State.blockSpoiled], by simp [State.blockSpoiled], by simp [State.blockSpoiled],
      by simp [State.blockSpoiled]⟩
  · have left : after = s.pageOverwritten a page := State.jobWorked_overwrite hop hby o
    unfold keeps readsAs
    rw [left]
    exact ⟨State.pageOverwritten_marks hp, fun x _ => State.pageOverwritten_get hp x⟩
  · have passes := State.verifyPasses_iff (s := s) (a := a) hf o
    have left : after = if s.verifyPasses a first o = true then s.verified a first else s :=
      State.jobWorked_verify hop o
    refine ⟨passes, fun not_ => ?_, fun ok erased => ?_⟩
    · rw [left, if_neg]
      rw [passes]
      rintro ⟨ok, erased⟩
      rcases not_ with fail | not_erased
      · nomatch ok.symm.trans fail
      · exact not_erased erased
    · rw [if_pos (passes.mpr ⟨ok, erased⟩)] at left
      unfold keeps
      rw [left]
      exact ⟨State.verified_marks hf, fun x _ => State.verified_get hf x⟩
  · unfold State.unfixed
    rw [Bool.or_eq_true, decide_eq_true_iff, decide_eq_true_iff]
  · exact pageBytes_getElem? hp hi fixed whole erased

end Sys2Proof.Machine

/-!
Completions, commits and the end of an abandonment (R8, R36 to R43, R175): what a completion and a run of completions
leave, what a new committed version leaves, and the settling of O42 and O43.
-/

namespace Sys2Proof.Machine

/-! ### Completions -/

/-- What a request in flight posts when it completes (R175). -/
def Flight.posts (f : Flight) (r : Result) (reply : List Byte) : Completion :=
  { tag := f.tag, kind := f.kind, result := r, reply := reply }

/-- Whether a request in flight posts to a port when it completes: one marked for discard does not (R175). -/
def Flight.postsTo (f : Flight) (p : Port) : Bool := decide (f.port = p) && !f.discard

section
variable (d : Device) (id : Nat) (r : Result) (reply : List Byte)

/-- A completion touches only the in-flight set and the completion queues: what is read of the rest stays. -/
theorem Device.complete_same {α : Type} (g : Device → α)
    (h : ∀ (d : Device) fl pr se, g { d with flights := fl, primary := pr, service := se } = g d) :
    g (d.complete id r reply) = g d := by
  obtain ⟨fl, pr, se, e⟩ := d.complete_fields id r reply
  rw [e, h]

/-- A completion leaves the pool alone. -/
@[simp] theorem Device.complete_pool : (d.complete id r reply).pool = d.pool := d.complete_same id r reply _ fun _ _ _ _ => rfl

/-- A completion leaves the directory alone. -/
@[simp] theorem Device.complete_dir : (d.complete id r reply).dir = d.dir := d.complete_same id r reply _ fun _ _ _ _ => rfl

/-- A completion leaves the contexts alone. -/
@[simp] theorem Device.complete_slots : (d.complete id r reply).slots = d.slots :=
  d.complete_same id r reply _ fun _ _ _ _ => rfl

/-- A completion leaves the engines alone. -/
@[simp] theorem Device.complete_engines : (d.complete id r reply).engines = d.engines :=
  d.complete_same id r reply _ fun _ _ _ _ => rfl

/-- A completion leaves the Maintenance Unit alone. -/
@[simp] theorem Device.complete_maint : (d.complete id r reply).maint = d.maint :=
  d.complete_same id r reply _ fun _ _ _ _ => rfl

/-- A completion leaves the settings alone. -/
@[simp] theorem Device.complete_settings : (d.complete id r reply).settings = d.settings :=
  d.complete_same id r reply _ fun _ _ _ _ => rfl

/-- A completed request leaves the in-flight set, and the others stay (R175). -/
theorem Device.complete_flights :
    (d.complete id r reply).flights = d.flights.filter fun g => decide (g.id ≠ id) := by
  unfold Device.complete
  cases found : d.flight? id with
  | none =>
    have others (g : Flight) (hg : g ∈ d.flights) : g.id ≠ id := by
      have miss := List.find?_eq_none.mp found g hg
      simpa using miss
    exact (List.filter_eq_self.mpr fun g hg => decide_eq_true (others g hg)).symm
  | some f =>
    dsimp only
    split
    · rfl
    · rw [Device.setPort_flights]

/-- A completed request posts its completion to its port, unless it is marked for discard (R175). -/
theorem Device.complete_completions (p : Port) :
    ((d.complete id r reply).port p).completions
      = (d.port p).completions ++ ((d.flight? id).toList.filter (·.postsTo p)).map (·.posts r reply) := by
  unfold Device.complete
  cases d.flight? id with
  | none => simp
  | some f =>
    dsimp only
    cases discard : f.discard with
    | true => simp [Flight.postsTo, discard]; cases p <;> rfl
    | false =>
      simp only [Bool.false_eq_true, if_false, Device.setPort_port]
      by_cases own : f.port = p
      · subst own
        simp [Flight.postsTo, discard, Flight.posts]
        cases f.port <;> rfl
      · simp [Flight.postsTo, own, Ne.symm own]
        cases p <;> rfl

end

section
variable {d : Device} {f : Flight}

/-- A request in flight is found by its name. -/
theorem Device.flight?_of_mem (named : d.FlightsNamed) (h : f ∈ d.flights) : d.flight? f.id = some f := by
  unfold Device.flight?
  unfold Device.FlightsNamed at named
  generalize d.flights = fs at named h
  induction fs with
  | nil => nomatch h
  | cons g gs ih =>
    rw [List.map_cons, List.nodup_cons] at named
    rw [List.find?_cons]
    rcases List.mem_cons.mp h with rfl | later
    · simp
    · have other : g.id ≠ f.id := fun same => named.1 (same ▸ List.mem_map_of_mem later)
      rw [decide_eq_false other]
      exact ih named.2 later

/-- The request that is found by a name has it. -/
theorem Device.flight?_eq_some {id : Nat} (h : d.flight? id = some f) : f ∈ d.flights ∧ f.id = id :=
  ⟨List.mem_of_find?_eq_some h, by simpa using List.find?_some h⟩

end

/-! ### Runs of completions -/

section
variable (d : Device) (ids : List Nat) (r : Result) (reply : List Byte)

/-- Requests complete one after another with one result. -/
def Device.completes (d : Device) (ids : List Nat) (r : Result) (reply : List Byte) : Device :=
  ids.foldl (fun d id => d.complete id r reply) d

/-- A run of completions touches only the in-flight set and the completion queues. -/
theorem Device.completes_same {α : Type} (g : Device → α)
    (h : ∀ (d : Device) fl pr se, g { d with flights := fl, primary := pr, service := se } = g d) :
    g (d.completes ids r reply) = g d := by
  obtain ⟨fl, pr, se, e⟩ := Device.foldComplete_fields ids r reply d
  exact (congrArg g e).trans (h ..)

/-- A run of completions leaves the pool alone. -/
@[simp] theorem Device.completes_pool : (d.completes ids r reply).pool = d.pool :=
  d.completes_same ids r reply _ fun _ _ _ _ => rfl

/-- A run of completions leaves the directory alone. -/
@[simp] theorem Device.completes_dir : (d.completes ids r reply).dir = d.dir :=
  d.completes_same ids r reply _ fun _ _ _ _ => rfl

/-- A run of completions leaves the contexts alone. -/
@[simp] theorem Device.completes_slots : (d.completes ids r reply).slots = d.slots :=
  d.completes_same ids r reply _ fun _ _ _ _ => rfl

/-- A run of completions leaves the engines alone. -/
@[simp] theorem Device.completes_engines : (d.completes ids r reply).engines = d.engines :=
  d.completes_same ids r reply _ fun _ _ _ _ => rfl

/-- A run of completions leaves the Maintenance Unit alone. -/
@[simp] theorem Device.completes_maint : (d.completes ids r reply).maint = d.maint :=
  d.completes_same ids r reply _ fun _ _ _ _ => rfl

/-- A run of completions leaves the locks alone. -/
@[simp] theorem Device.completes_locks : (d.completes ids r reply).locks = d.locks :=
  d.completes_same ids r reply _ fun _ _ _ _ => rfl

/-- A run of completions leaves the settings alone. -/
@[simp] theorem Device.completes_settings : (d.completes ids r reply).settings = d.settings :=
  d.completes_same ids r reply _ fun _ _ _ _ => rfl

/-- A run of completions leaves the layout alone. -/
@[simp] theorem Device.completes_layout : (d.completes ids r reply).layout = d.layout :=
  d.completes_same ids r reply _ fun _ _ _ _ => rfl

/-- Completed requests leave the in-flight set, and the others stay (R175). -/
theorem Device.completes_flights :
    (d.completes ids r reply).flights = d.flights.filter fun g => decide (g.id ∉ ids) := by
  unfold Device.completes
  induction ids generalizing d with
  | nil => simp
  | cons id ids ih =>
    rw [List.foldl_cons, ih, Device.complete_flights, List.filter_filter]
    refine List.filter_congr fun g _ => ?_
    simp [Bool.and_comm]

end

section
variable {d : Device} {f : Flight}

/-- The requests in flight of a kind of work complete in the order they were taken (R175). -/
theorem Device.completes_completions (named : d.FlightsNamed) (which : Flight → Bool) (r : Result) (reply : List Byte)
    (p : Port) :
    ((d.completes ((d.flights.filter which).map (·.id)) r reply).port p).completions
      = (d.port p).completions ++ (d.flights.filter fun f => which f && f.postsTo p).map (·.posts r reply) := by
  have run (fs : List Flight) (d : Device) (named : d.FlightsNamed) (inside : ∀ f ∈ fs, f ∈ d.flights)
      (apart : (fs.map (·.id)).Nodup) : ((d.completes (fs.map (·.id)) r reply).port p).completions
        = (d.port p).completions ++ (fs.filter (·.postsTo p)).map (·.posts r reply) := by
    induction fs generalizing d with
    | nil => simp [Device.completes]
    | cons f fs ih =>
      rw [List.map_cons, List.nodup_cons] at apart
      have left : (d.complete f.id r reply).FlightsNamed := by
        unfold Device.FlightsNamed
        rw [Device.complete_flights]
        exact List.Nodup.sublist (List.filter_sublist.map _) named
      have still (g : Flight) (hg : g ∈ fs) : g ∈ (d.complete f.id r reply).flights := by
        rw [Device.complete_flights, List.mem_filter]
        exact ⟨inside g (List.mem_cons_of_mem _ hg),
          decide_eq_true fun same => apart.1 (same ▸ List.mem_map_of_mem hg)⟩
      have rest := ih (d.complete f.id r reply) left still apart.2
      unfold Device.completes at rest ⊢
      rw [List.map_cons, List.foldl_cons, rest, Device.complete_completions,
        Device.flight?_of_mem named (inside f (List.mem_cons_self ..)), List.append_assoc]
      congr 1
      cases posts : f.postsTo p <;> simp [posts]
  rw [run (d.flights.filter which) d named (fun f hf => (List.mem_filter.mp hf).1)
    (named.sublist (List.filter_sublist.map _)), List.filter_filter]
  simp only [Bool.and_comm]

/-- The requests whose work is the given one, as a filter. -/
theorem Device.flightsWith_eq (d : Device) (w : Work) :
    d.flightsWith w = (d.flights.filter fun f => decide (f.work = w)).map (·.id) := by
  unfold Device.flightsWith
  induction d.flights with
  | nil => rfl
  | cons f fs ih => by_cases same : f.work = w <;> simp [same, ih]

/-- The only request with a work is the one of its name. -/
theorem Device.filter_of_flightsWith {w : Work} (named : d.FlightsNamed) (hf : f ∈ d.flights)
    (only : d.flightsWith w = [f.id]) : (d.flights.filter fun f => decide (f.work = w)) = [f] := by
  rw [Device.flightsWith_eq] at only
  obtain ⟨g, single, same⟩ := List.map_eq_singleton_iff.mp only
  have inside : g ∈ d.flights := (List.mem_filter.mp (single ▸ List.mem_singleton_self g)).1
  have found := Device.flight?_of_mem named inside
  rw [same, Device.flight?_of_mem named hf] at found
  rw [single, Option.some.inj found]

/-- The only request with a work completes: it leaves the in-flight set and posts its result (R175). -/
theorem Device.completes_single {w : Work} (named : d.FlightsNamed) (hf : f ∈ d.flights)
    (only : d.flightsWith w = [f.id]) (r : Result) (reply : List Byte) :
    (d.completes (d.flightsWith w) r reply).flights = d.flights.filter (fun g => decide (g.id ≠ f.id))
      ∧ (f.discard = false → ((d.completes (d.flightsWith w) r reply).port f.port).completions
          = (d.port f.port).completions ++ [{ tag := f.tag, kind := f.kind, result := r, reply := reply }]) := by
  refine ⟨?_, fun kept => ?_⟩
  · rw [only, Device.completes_flights]
    simp
  · have posted := Device.completes_completions named (fun f => decide (f.work = w)) r reply f.port
    rw [← Device.flightsWith_eq] at posted
    have one : (d.flights.filter fun g => decide (g.work = w) && g.postsTo f.port) = [f] := by
      have swap : (fun g : Flight => decide (g.work = w) && g.postsTo f.port)
          = fun g => g.postsTo f.port && decide (g.work = w) := funext fun g => Bool.and_comm _ _
      rw [swap, ← List.filter_filter, Device.filter_of_flightsWith named hf only]
      simp [Flight.postsTo, kept]
    rw [posted, one]
    rfl

end

/-! ### A new committed version -/

/-- The entry after it has taken a new committed version (R8). -/
def Entry.taken (e : Entry) (v : Version) : Entry :=
  { e with version := v, marks := 0, damaged := [], state := if e.state = .reserved then .live else e.state }

/-- The clearing of the allowance flags of blocks (R16, R108). -/
def Device.clearFlags (d : Device) (as : List BlockAddr) : Device :=
  as.foldl (fun d a => d.modBlock a fun e => { e with flag := false }) d

/-- The clearing of allowance flags leaves the directory and every state of a block alone. -/
theorem Device.clearFlags_keeps (d : Device) (as : List BlockAddr) :
    (d.clearFlags as).dir = d.dir ∧ ∀ x, (d.clearFlags as).blockState x = d.blockState x := by
  unfold Device.clearFlags
  induction as generalizing d with
  | nil => exact ⟨rfl, fun _ => rfl⟩
  | cons a as ih =>
    rw [List.foldl_cons]
    obtain ⟨dir, state⟩ := ih (d.modBlock a fun e => { e with flag := false })
    exact ⟨dir.trans rfl, fun x => (state x).trans (d.blockState_modBlock_same a x _ fun _ => rfl)⟩

/-- The allowance flag of a block. -/
def Device.flagOf (d : Device) (a : BlockAddr) : Option Bool := (d.pool.block? a).map (·.flag)

/-- A change of a block that sets its flag by the flag it had. -/
theorem Device.flagOf_modBlock (d : Device) (a x : BlockAddr) (f : BlockEntry → BlockEntry) (g : Bool → Bool)
    (h : ∀ e, (f e).flag = g e.flag) (zero : g false = false) :
    (d.modBlock a f).flagOf x = if x = a then (d.flagOf x).map g else d.flagOf x := by
  unfold Device.flagOf
  rw [Device.block?_modBlock]
  by_cases descriptor : x.block = 0
  · have same : d.pool.block? x = some .descriptor := by
      unfold Pool.block?
      rw [if_pos descriptor]
    rw [if_pos descriptor, same]
    split
    · exact congrArg some zero.symm
    · rfl
  · rw [if_neg descriptor]
    split
    · rw [Option.map_map, Option.map_map]
      exact congrArg (fun f => Option.map f _) (funext h)
    · rfl

/-- The flags that are cleared are those of the blocks named, and no other. -/
theorem Device.flagOf_clearFlags (d : Device) (as : List BlockAddr) (x : BlockAddr) :
    (d.clearFlags as).flagOf x = (d.flagOf x).map fun b => b && !decide (x ∈ as) := by
  unfold Device.clearFlags
  induction as generalizing d with
  | nil => simp
  | cons a as ih =>
    rw [List.foldl_cons, ih, d.flagOf_modBlock a x _ (fun _ => false) (fun _ => rfl) rfl]
    by_cases own : x = a
    · rw [if_pos own, Option.map_map]
      simp [own, Function.comp_def]
    · rw [if_neg own]
      simp [own]

/-- Blocks that become STALE keep their allowance flags (R97). -/
theorem Device.flagOf_toStale (d : Device) (as : List BlockAddr) (x : BlockAddr) : (d.toStale as).flagOf x = d.flagOf x := by
  have run (going : List BlockAddr) (d : Device) :
      (going.foldl (fun d a => d.modBlock a fun e => { e with state := .stale }) d).flagOf x = d.flagOf x := by
    induction going generalizing d with
    | nil => rfl
    | cons a going ih =>
      rw [List.foldl_cons, ih, d.flagOf_modBlock a x (fun e => { e with state := .stale }) id (fun _ => rfl) rfl]
      simp
  exact run _ d

section
variable {d : Device} {r : RecordName} {old : Entry} {v : Version}

/-- A new committed version, step by step (R8, R16, R108, R111). -/
theorem Device.takeVersion_eq (v : Version) (h : d.entry? r = some old) :
    d.takeVersion r v
      = (((d.modEntry r fun e => e.taken v).toStale old.version.blocks).clearFlags v.blocks).leaveRefresh r := by
  unfold Device.takeVersion
  rw [h]
  rfl

/-- What leaves the refresh set leaves the directory and the table alone. -/
theorem Device.leaveRefresh_same (d : Device) (r : RecordName) :
    (d.leaveRefresh r).dir = d.dir ∧ (d.leaveRefresh r).pool.table = d.pool.table := by
  unfold Device.leaveRefresh
  split <;> exact ⟨rfl, rfl⟩

/-- The directory of a part whose blocks become STALE stays. -/
theorem Device.toStale_dir (d : Device) (as : List BlockAddr) : (d.toStale as).dir = d.dir := by
  obtain ⟨table, scrub, joined, h⟩ := d.toStale_fields as
  rw [h]

/-- The directory once a version is taken: only the entry of the record changes (R8). -/
theorem Device.takeVersion_dir (h : d.entry? r = some old) :
    (d.takeVersion r v).dir = (d.modEntry r fun e => e.taken v).dir := by
  rw [Device.takeVersion_eq v h, (Device.leaveRefresh_same _ r).1, (Device.clearFlags_keeps _ _).1, Device.toStale_dir]

/-- The entry once it has taken a version (R8). -/
theorem Device.entry?_takeVersion_self (h : d.entry? r = some old) : (d.takeVersion r v).entry? r = some (old.taken v) := by
  rw [Device.entry?_congr (Device.takeVersion_dir h), Device.entry?_modEntry_self h]
  exact congrArg some (by rw [← Device.entry?_name h]; rfl)

/-- The other entries stay. -/
theorem Device.entry?_takeVersion_other (h : d.entry? r = some old) {q : RecordName} (other : q ≠ r) :
    (d.takeVersion r v).entry? q = d.entry? q := by
  rw [Device.entry?_congr (Device.takeVersion_dir h), Device.entry?_modEntry_other _ other]

/-- The old version's blocks that were ALLOCATED are STALE, and every other block is as it was (R8). -/
theorem Device.blockState_takeVersion (h : d.entry? r = some old) (a : BlockAddr) :
    (d.takeVersion r v).blockState a
      = if a ∈ old.version.blocks ∧ d.blockState a = some .allocated then some .stale else d.blockState a := by
  rw [Device.takeVersion_eq v h, Device.blockState_congr (Device.leaveRefresh_same _ r).2,
    (Device.clearFlags_keeps _ _).2, Device.blockState_toStale]
  rfl

/-- The allowance flags of the new version's blocks are clear, and every other is as it was (R16, R108). -/
theorem Device.flagOf_takeVersion (h : d.entry? r = some old) (a : BlockAddr) :
    (d.takeVersion r v).flagOf a = (d.flagOf a).map fun b => b && !decide (a ∈ v.blocks) := by
  have table (d : Device) : (d.leaveRefresh r).flagOf a = d.flagOf a := by
    unfold Device.flagOf Pool.block?
    rw [(d.leaveRefresh_same r).2]
  rw [Device.takeVersion_eq v h, table, Device.flagOf_clearFlags, Device.flagOf_toStale]
  rfl

/-- The record leaves the refresh set, and the pass-over list with it (R111). -/
theorem Device.mem_takeVersion (h : d.entry? r = some old) (x : RecordName) :
    (x ∈ (d.takeVersion r v).pool.refresh ↔ x ∈ d.pool.refresh ∧ x ≠ r)
      ∧ (x ∈ (d.takeVersion r v).maint.passOver ↔ x ∈ d.maint.passOver ∧ (x = r → r ∉ d.pool.refresh)) := by
  obtain ⟨dir, table, scrub, joined, e⟩ := Device.takeVersion_fields v h
  rw [e]
  exact Device.mem_leaveRefresh _ r x

/-- What a new version leaves alone. -/
theorem Device.takeVersion_same (h : d.entry? r = some old) :
    (d.takeVersion r v).slots = d.slots ∧ (d.takeVersion r v).engines = d.engines
      ∧ (d.takeVersion r v).flights = d.flights ∧ ∀ p, (d.takeVersion r v).port p = d.port p := by
  obtain ⟨dir, table, scrub, joined, e⟩ := Device.takeVersion_fields v h
  rw [e]
  unfold Device.leaveRefresh
  split <;> exact ⟨rfl, rfl, rfl, fun p => by cases p <;> rfl⟩

end

/-! ### The commit point -/

section
variable {d : Device} {i : SlotIndex} {c : Ctx} {e : Entry}

/-- The device at a commit point, with the version taken and the context still there (R37). -/
def Device.committed (d : Device) (i : SlotIndex) (c : Ctx) : Device :=
  (d.setCtx i { c with copying := none }).takeVersion c.name c.version

/-- With a MIRROR chunk 0 the commit goes on to its commit record (R37). -/
theorem Device.commitPoint_goesOn {m : BlockAddr} (hc : d.ctx? i = some c) (two : c.copies = 2)
    (hm : (c.chunkAt 0).mirror = some m) :
    d.commitPoint i
      = (d.committed i c).queueJob m.bank (segmentJob m.block 15 0 c.commitRecord (.mirrorCommitRecord i)) := by
  unfold Device.commitPoint
  rw [hc]
  dsimp only
  split
  next m' _ hm' =>
    obtain rfl := Option.some.inj (hm.symm.trans hm')
    rfl
  next none_ => exact (none_ m two hm).elim

/-- Without a MIRROR chunk 0 the commit is done (R37). -/
theorem Device.commitPoint_done (hc : d.ctx? i = some c) (h : ¬(c.copies = 2 ∧ (c.chunkAt 0).mirror ≠ none)) :
    d.commitPoint i = (d.committed i c).commitDone i c := by
  unfold Device.commitPoint
  rw [hc]
  dsimp only
  split
  next m two hm => exact absurd ⟨two, by simp [hm]⟩ h
  next => rfl

/-- A commit that is done frees its context, clears the busy field and answers OK (R37, R38). -/
theorem Device.commitDone_eq (d : Device) (i : SlotIndex) (c : Ctx) :
    d.commitDone i c = ((d.freeSlot i).modEntry c.name fun e => { e with busy := .none }).completes
      (d.flightsWith (.commit i)) .ok (leBytes 4 c.newGen) := rfl

/-- The directory of a done commit. -/
theorem Device.commitDone_dir (d : Device) (i : SlotIndex) (c : Ctx) :
    (d.commitDone i c).dir = (d.modEntry c.name fun e => { e with busy := .none }).dir := by
  rw [Device.commitDone_eq, Device.completes_dir]
  rfl

/-- A done commit leaves the pool, the engines and the Maintenance Unit alone, and frees its slot. -/
theorem Device.commitDone_same (d : Device) (i : SlotIndex) (c : Ctx) :
    (d.commitDone i c).pool = d.pool ∧ (d.commitDone i c).engines = d.engines ∧ (d.commitDone i c).maint = d.maint
      ∧ (d.commitDone i c).slots = (d.freeSlot i).slots := by
  rw [Device.commitDone_eq]
  simp

/-- What the version taken leaves, for a context and an entry of its record. -/
theorem Device.committed_same (he : d.entry? c.name = some e) :
    (d.committed i c).slots = (d.setCtx i { c with copying := none }).slots ∧ (d.committed i c).engines = d.engines
      ∧ (d.committed i c).flights = d.flights ∧ ∀ p, (d.committed i c).port p = d.port p := by
  obtain ⟨slots, engines, flights, port⟩ :=
    Device.takeVersion_same (d := d.setCtx i { c with copying := none }) (v := c.version) he
  exact ⟨slots, engines, flights, fun p => (port p).trans (by cases p <;> rfl)⟩

/-- A done commit answers the only COMMIT that names it, with the new generation (R37). -/
theorem Device.commitDone_answers {d₀ : Device} {f : Flight} (flights : d.flights = d₀.flights)
    (port : ∀ p, d.port p = d₀.port p) (hf : f ∈ d₀.flights) (named : d₀.FlightsNamed)
    (only : d₀.flightsWith (.commit i) = [f.id]) :
    (d.commitDone i c).flights = d₀.flights.filter (fun g => decide (g.id ≠ f.id))
      ∧ (f.discard = false → ((d.commitDone i c).port f.port).completions = (d₀.port f.port).completions
          ++ [{ tag := f.tag, kind := f.kind, result := .ok, reply := leBytes 4 c.newGen }]) := by
  unfold Device.flightsWith Device.FlightsNamed at *
  rw [← flights] at hf named only
  rw [Device.commitDone_eq, ← flights, ← port]
  exact Device.completes_single (d := (d.freeSlot i).modEntry c.name fun e => { e with busy := .none }) named hf only .ok _

/-- Settles O42: the version is taken alike in both cases; the context goes on just where there is a MIRROR chunk 0. -/
theorem theCommitPointGivesTheEntryItsVersion : Obligations.TheCommitPointGivesTheEntryItsVersion := by
  unfold Obligations.TheCommitPointGivesTheEntryItsVersion
  intro d i c e hc he d' version goesOn
  have he' : (d.setCtx i { c with copying := none }).entry? c.name = some e := he
  obtain ⟨slots, engines, flights, port⟩ := Device.committed_same (i := i) he
  have own : (d.committed i c).entry? c.name = some (e.taken version) := Device.entry?_takeVersion_self he'
  have others (r : RecordName) (h : r ≠ c.name) : (d.committed i c).entry? r = d.entry? r :=
    Device.entry?_takeVersion_other he' h
  have states (a : BlockAddr) : (d.committed i c).blockState a
      = if a ∈ e.version.blocks ∧ d.blockState a = some .allocated then some .stale else d.blockState a :=
    Device.blockState_takeVersion he' a
  have flags (a : BlockAddr) : (d.committed i c).flagOf a = (d.flagOf a).map fun b => b && !decide (a ∈ version.blocks) :=
    Device.flagOf_takeVersion he' a
  have sets (r : RecordName) := Device.mem_takeVersion (v := c.version) he' r
  have going (on : goesOn) : ∃ m, (c.chunkAt 0).mirror = some m ∧ d' = (d.committed i c).queueJob m.bank
      (segmentJob m.block 15 0 c.commitRecord (.mirrorCommitRecord i)) := by
    obtain ⟨m, hm⟩ := Option.ne_none_iff_exists'.mp on.2
    exact ⟨m, hm, Device.commitPoint_goesOn hc on.1 hm⟩
  have done (off : ¬goesOn) : d' = (d.committed i c).commitDone i c := Device.commitPoint_done hc off
  obtain ⟨pool, maint, others'⟩ : d'.pool = (d.committed i c).pool ∧ d'.maint = (d.committed i c).maint
      ∧ ∀ r, r ≠ c.name → d'.entry? r = d.entry? r := by
    by_cases on : goesOn
    · obtain ⟨m, -, left⟩ := going on
      rw [left]
      exact ⟨rfl, rfl, others⟩
    · obtain ⟨pool, -, maint, -⟩ := Device.commitDone_same (d.committed i c) i c
      rw [done on]
      refine ⟨pool, maint, fun r h => ?_⟩
      rw [Device.entry?_congr (Device.commitDone_dir ..), Device.entry?_modEntry_other _ h, others r h]
  refine ⟨fun on => ?_, fun off => ?_, others', fun a => ?_, fun on => ?_, fun off => ?_, fun k h => ?_,
    fun m two hm => ?_, fun off => ?_, fun r => ?_, fun r => ?_, fun a => ?_, fun f hf named only => ⟨fun on => ?_,
    fun off => ?_, fun off kept => ?_⟩⟩
  · obtain ⟨m, -, left⟩ := going on
    rw [left]
    exact own
  · rw [done off, Device.entry?_congr (Device.commitDone_dir ..), Device.entry?_modEntry_self own]
    exact congrArg some (by rw [← Device.entry?_name he]; rfl)
  · rw [Device.blockState_congr (congrArg Pool.table pool), states]
  · obtain ⟨m, -, left⟩ := going on
    rw [left]
    unfold Device.ctx?
    rw [Device.queueJob_slots, slots]
    exact Device.ctx?_setCtx_self _ _ _
  · rw [done off, (Device.commitDone_same _ _ _).2.2.2, Device.slots_freeSlot_self, slots, Device.slots_setCtx_self]
  · by_cases on : goesOn
    · obtain ⟨m, -, left⟩ := going on
      rw [left, Device.queueJob_slots, slots, Device.slots_setCtx_other _ h]
    · rw [done on, (Device.commitDone_same _ _ _).2.2.2, Device.slots_freeSlot_other _ h, slots,
        Device.slots_setCtx_other _ h]
  · have left : d' = _ := Device.commitPoint_goesOn hc two hm
    rw [left]
    unfold Device.queueJob
    rw [engines]
    rfl
  · rw [done off, (Device.commitDone_same _ _ _).2.1, engines]
  · rw [pool]
    exact (sets r).1
  · rw [maint]
    exact (sets r).2
  · have same : d'.flagOf a = (d.committed i c).flagOf a := by
      unfold Device.flagOf
      rw [pool]
    refine same.trans ((flags a).trans ?_)
    unfold Device.flagOf Version.blocks
    rw [Option.map_map]
    simp only [List.mem_append]
    rfl
  · obtain ⟨m, -, left⟩ := going on
    rw [left, Device.queueJob_flights, flights]
  · rw [done off]
    exact (Device.commitDone_answers flights port hf named only).1
  · rw [done off]
    exact (Device.commitDone_answers flights port hf named only).2 kept

end

end Sys2Proof.Machine

/-!
The commit record programs and commit attempt 2 (R37 to R41): what a program that fails leaves of its part, what the end
of an abandonment leaves, and the settling of O43.
-/

namespace Sys2Proof.Machine

/-! ### A block that goes BAD -/

/-- A grown-bad entry changes the pool and the engines alone (R110). -/
theorem Device.queueGrownBad_fields (d : Device) (a : BlockAddr) (cause : BadCause) (page seg : Nat) :
    ∃ pool engines, d.queueGrownBad a cause page seg = { d with pool := pool, engines := engines } := by
  unfold Device.queueGrownBad
  by_cases room : d.pool.slots[a.bank] < Config.grownBadSlots
  · exact ⟨_, _, if_pos room⟩
  · exact ⟨_, _, if_neg room⟩

/-- A block that goes BAD changes the pool and the engines alone (R109, R110). -/
theorem Device.makeBad_fields (d : Device) (a : BlockAddr) (cause : BadCause) (page seg : Nat) :
    ∃ pool engines, d.makeBad a cause page seg = { d with pool := pool, engines := engines } := by
  unfold Device.makeBad
  split
  · exact ⟨_, _, rfl⟩
  next e _ =>
    by_cases stays : e.state = .bad ∨ e.state = .descriptor
    · exact ⟨_, _, if_pos stays⟩
    · obtain ⟨pool, engines, queued⟩ := Device.queueGrownBad_fields _ a cause page seg
      exact ⟨pool, engines, (if_neg stays).trans queued⟩

section
variable (d : Device) (b : Bank) (j : Job)

/-- A program that fails touches only the pool and the engines: what is read of the rest stays. -/
theorem Device.programFailed_same {α : Type} (g : Device → α)
    (h : ∀ (d : Device) pool engines, g { d with pool := pool, engines := engines } = g d) :
    g (d.programFailed b j) = g d := by
  obtain ⟨pool, engines, e⟩ := d.makeBad_fields { bank := b, block := j.block } .program j.target.1 j.target.2
  exact (congrArg g e).trans (h ..)

/-- A program that fails leaves the contexts alone. -/
@[simp] theorem Device.programFailed_slots : (d.programFailed b j).slots = d.slots :=
  d.programFailed_same b j _ fun _ _ _ => rfl

/-- A program that fails leaves the context of a slot alone. -/
@[simp] theorem Device.programFailed_ctx? (i : SlotIndex) : (d.programFailed b j).ctx? i = d.ctx? i :=
  d.programFailed_same b j (·.ctx? i) fun _ _ _ => rfl

/-- A program that fails leaves the entries alone. -/
@[simp] theorem Device.programFailed_entry? (r : RecordName) : (d.programFailed b j).entry? r = d.entry? r :=
  d.programFailed_same b j (·.entry? r) fun _ _ _ => rfl

/-- A program that fails leaves the requests in flight alone. -/
@[simp] theorem Device.programFailed_flights : (d.programFailed b j).flights = d.flights :=
  d.programFailed_same b j _ fun _ _ _ => rfl

/-- A program that fails leaves the work of a request alone. -/
@[simp] theorem Device.programFailed_work? (id : Nat) : (d.programFailed b j).work? id = d.work? id :=
  d.programFailed_same b j (·.work? id) fun _ _ _ => rfl

/-- A program that fails leaves the Maintenance Unit alone. -/
@[simp] theorem Device.programFailed_maint : (d.programFailed b j).maint = d.maint :=
  d.programFailed_same b j _ fun _ _ _ => rfl

/-- A program that fails leaves the purge alone. -/
@[simp] theorem Device.programFailed_purge : (d.programFailed b j).purge = d.purge :=
  d.programFailed_same b j _ fun _ _ _ => rfl

/-- A program that fails leaves the layout alone. -/
@[simp] theorem Device.programFailed_layout : (d.programFailed b j).layout = d.layout :=
  d.programFailed_same b j _ fun _ _ _ => rfl

end

/-! ### The end of an abandonment -/

/-- What an abandonment does with the entry of its context's record (R41). -/
def Device.abandonEntry (d : Device) (c : Ctx) : Device :=
  match c.mode with
  | .create => d.removeRecord c.name
  | .replace => d.modEntry c.name fun e => { e with busy := .none }

/-- The device once the abandonment of a context has finished (R41). -/
def Device.givenUp (d : Device) (i : SlotIndex) (c : Ctx) : Device :=
  (((d.toStale c.blocks).abandonEntry c).freeSlot i).completes (d.flightsWith (.abandon i)) .ok []

section
variable {d : Device} {i : SlotIndex} {c : Ctx}

/-- An entry that is removed or freed leaves the rest of the part alone. -/
theorem Device.abandonEntry_same (d : Device) (c : Ctx) :
    (d.abandonEntry c).slots = d.slots ∧ (d.abandonEntry c).flights = d.flights
      ∧ (d.abandonEntry c).pool.table = d.pool.table ∧ (d.abandonEntry c).pool.waits = d.pool.waits
      ∧ (d.abandonEntry c).locks = d.locks ∧ (d.abandonEntry c).settings = d.settings
      ∧ (d.abandonEntry c).layout = d.layout ∧ ∀ p, (d.abandonEntry c).port p = d.port p := by
  unfold Device.abandonEntry
  cases c.mode <;> exact ⟨rfl, rfl, rfl, rfl, rfl, rfl, rfl, fun p => by cases p <;> rfl⟩

/-- Blocks that become STALE leave everything but the pool alone. -/
theorem Device.toStale_same (d : Device) (as : List BlockAddr) :
    (d.toStale as).slots = d.slots ∧ (d.toStale as).flights = d.flights ∧ (d.toStale as).dir = d.dir
      ∧ (d.toStale as).pool.waits = d.pool.waits ∧ (d.toStale as).locks = d.locks
      ∧ (d.toStale as).settings = d.settings ∧ (d.toStale as).layout = d.layout
      ∧ ∀ p, (d.toStale as).port p = d.port p := by
  obtain ⟨table, scrub, joined, e⟩ := d.toStale_fields as
  rw [e]
  exact ⟨rfl, rfl, rfl, rfl, rfl, rfl, rfl, fun p => by cases p <;> rfl⟩

/-- An abandonment finishes as soon as no put of the context is left (R41). -/
theorem Device.tryFinishAbandon_done (hc : d.ctx? i = some c) (state : c.state = .abandoning) (left : d.putsOf i = []) :
    d.tryFinishAbandon i = d.givenUp i c := by
  have flights : (((d.toStale c.blocks).abandonEntry c).freeSlot i).flightsWith (.abandon i)
      = d.flightsWith (.abandon i) := by
    have same : (((d.toStale c.blocks).abandonEntry c).freeSlot i).flights = d.flights :=
      ((Device.abandonEntry_same _ c).2.1).trans (d.toStale_same c.blocks).2.1
    unfold Device.flightsWith
    rw [same]
  unfold Device.givenUp Device.tryFinishAbandon
  rw [hc]
  dsimp only
  rw [if_pos ⟨state, left⟩, ← flights]
  unfold Device.abandonEntry Device.completes
  cases c.mode <;> rfl

/-- An abandonment waits while a put of the context is left (R41, R42). -/
theorem Device.tryFinishAbandon_waits (left : d.putsOf i ≠ []) : d.tryFinishAbandon i = d := by
  unfold Device.tryFinishAbandon
  cases d.ctx? i with
  | none => rfl
  | some c => exact if_neg fun h => left h.2

/-- The slots once an abandonment has finished: the context's is FREE, and its sequence has risen (R24, R41). -/
theorem Device.givenUp_slots (d : Device) (i : SlotIndex) (c : Ctx) :
    (d.givenUp i c).slots[i] = { seq := d.slots[i].seq + 1, ctx := none }
      ∧ ∀ k, k ≠ i → (d.givenUp i c).slots[k] = d.slots[k] := by
  have same : ((d.toStale c.blocks).abandonEntry c).slots = d.slots :=
    ((Device.abandonEntry_same _ c).1).trans (d.toStale_same c.blocks).1
  unfold Device.givenUp
  rw [Device.completes_slots]
  refine ⟨?_, fun k h => ?_⟩
  · rw [Device.slots_freeSlot_self, same]
  · rw [Device.slots_freeSlot_other _ h, same]

/-- The context's blocks that were ALLOCATED are STALE once its abandonment has finished (R41). -/
theorem Device.givenUp_blockState (d : Device) (i : SlotIndex) (c : Ctx) (a : BlockAddr) :
    (d.givenUp i c).blockState a
      = if a ∈ c.blocks ∧ d.blockState a = some .allocated then some .stale else d.blockState a := by
  have table : (d.givenUp i c).pool.table = (d.toStale c.blocks).pool.table := by
    unfold Device.givenUp
    rw [Device.completes_pool]
    exact (Device.abandonEntry_same _ c).2.2.1
  rw [Device.blockState_congr table, Device.blockState_toStale]

/-- The directory once an abandonment has finished. -/
theorem Device.givenUp_dir (d : Device) (i : SlotIndex) (c : Ctx) :
    (d.givenUp i c).dir = ((d.toStale c.blocks).abandonEntry c).dir := by
  unfold Device.givenUp
  rw [Device.completes_dir]
  rfl

/-- A created record is gone once its abandonment has finished (R13, R41). -/
theorem Device.givenUp_entry?_create (d : Device) (i : SlotIndex) (mode : c.mode = .create) :
    (d.givenUp i c).entry? c.name = none := by
  have removed : (d.toStale c.blocks).abandonEntry c = (d.toStale c.blocks).removeRecord c.name := by
    unfold Device.abandonEntry
    rw [mode]
  rw [Device.entry?_congr (d.givenUp_dir i c), removed, Device.entry?_removeRecord_self]

/-- A replaced record is free again once its abandonment has finished (R41). -/
theorem Device.givenUp_entry?_replace (d : Device) (i : SlotIndex) (mode : c.mode = .replace) :
    (d.givenUp i c).entry? c.name = (d.entry? c.name).map fun e => { e with busy := .none } := by
  have freed : (d.toStale c.blocks).abandonEntry c
      = (d.toStale c.blocks).modEntry c.name fun e => { e with busy := .none } := by
    unfold Device.abandonEntry
    rw [mode]
  rw [Device.entry?_congr (d.givenUp_dir i c), freed, Device.entry?_modEntry,
    Device.entry?_congr (d.toStale_same c.blocks).2.2.1]
  simp

/-- The other entries stay. -/
theorem Device.givenUp_entry?_other (d : Device) (i : SlotIndex) {r : RecordName} (other : r ≠ c.name) :
    (d.givenUp i c).entry? r = d.entry? r := by
  rw [Device.entry?_congr (d.givenUp_dir i c), ← Device.entry?_congr (d.toStale_same c.blocks).2.2.1 r]
  unfold Device.abandonEntry
  cases c.mode with
  | create => exact Device.entry?_removeRecord_other _ other
  | replace => exact Device.entry?_modEntry_other _ other _

/-- A finished abandonment leaves the locks, the settings, the layout and the waiting grants alone. -/
theorem Device.givenUp_same (d : Device) (i : SlotIndex) (c : Ctx) :
    (d.givenUp i c).locks = d.locks ∧ (d.givenUp i c).settings = d.settings ∧ (d.givenUp i c).layout = d.layout
      ∧ (d.givenUp i c).pool.waits = d.pool.waits := by
  obtain ⟨-, -, -, waits, locks, settings, layout, -⟩ := (d.toStale c.blocks).abandonEntry_same c
  obtain ⟨-, -, -, waits', locks', settings', layout', -⟩ := d.toStale_same c.blocks
  unfold Device.givenUp
  rw [Device.completes_locks, Device.completes_settings, Device.completes_layout, Device.completes_pool]
  exact ⟨locks.trans locks', settings.trans settings', layout.trans layout', waits.trans waits'⟩

/-- The ABANDON that asked for it is answered as an abandonment finishes (R41, R42). -/
theorem Device.givenUp_flights (d : Device) (i : SlotIndex) (c : Ctx) :
    (d.givenUp i c).flights = d.flights.filter fun g => decide (g.id ∉ d.flightsWith (.abandon i)) := by
  have same : (((d.toStale c.blocks).abandonEntry c).freeSlot i).flights = d.flights :=
    ((Device.abandonEntry_same _ c).2.1).trans (d.toStale_same c.blocks).2.1
  unfold Device.givenUp
  rw [Device.completes_flights, same]

/-- What is posted as an abandonment finishes (R41, R175). -/
theorem Device.givenUp_completions (named : d.FlightsNamed) (i : SlotIndex) (c : Ctx) (p : Port) :
    ((d.givenUp i c).port p).completions = (d.port p).completions
      ++ (d.flights.filter fun f => decide (f.work = .abandon i) && f.postsTo p).map (·.posts .ok []) := by
  have flights : (((d.toStale c.blocks).abandonEntry c).freeSlot i).flights = d.flights :=
    ((Device.abandonEntry_same _ c).2.1).trans (d.toStale_same c.blocks).2.1
  have port : (((d.toStale c.blocks).abandonEntry c).freeSlot i).port p = d.port p := by
    obtain ⟨-, -, -, -, -, -, -, port⟩ := (d.toStale c.blocks).abandonEntry_same c
    obtain ⟨-, -, -, -, -, -, -, port'⟩ := d.toStale_same c.blocks
    exact (by cases p <;> rfl : _ = ((d.toStale c.blocks).abandonEntry c).port p).trans ((port p).trans (port' p))
  have named' : (((d.toStale c.blocks).abandonEntry c).freeSlot i).FlightsNamed := by
    unfold Device.FlightsNamed
    rwa [flights]
  have posted := Device.completes_completions named' (fun f => decide (f.work = .abandon i)) .ok [] p
  rw [flights, port, ← Device.flightsWith_eq] at posted
  exact posted

/-- The abandonment of a context without a put finishes at once (R41). -/
theorem Device.beginAbandon_alone (hc : d.ctx? i = some c) (left : d.putsOf i = []) :
    d.beginAbandon i = (d.setCtx i { c with state := .abandoning, timer := none, copying := none }).givenUp i
      { c with state := .abandoning, timer := none, copying := none } := by
  unfold Device.beginAbandon
  rw [hc]
  dsimp only
  have none_ : (d.setCtx i { c with state := .abandoning, timer := none, copying := none }).putsOf i = [] := left
  rw [none_, List.foldl_nil]
  exact Device.tryFinishAbandon_done (Device.ctx?_setCtx_self _ _ _) rfl none_

end

/-! ### Rows of commits -/

section
variable {s : State} {b : Bank} {j : Job} {i : SlotIndex}

/-- A PRIMARY commit record that is programmed goes to its commit (R37, R39). -/
theorem State.execCommitRecordDone_working (h : s.Working b j) (hby : j.by_ = .commitRecord i) (o : OkFail) :
    exec (.commitRecordDone b o) s = .next (s.afterWork b j o (s.commitRecordDone b j i o)) := by
  refine congrArg Host.Outcome.next (State.programDone_working h o ?_)
  unfold Device.onCommitRecord
  rw [hby]

/-- A MIRROR commit record that is programmed goes to its commit (R37, R38). -/
theorem State.execMirrorCommitRecordDone_working (h : s.Working b j) (hby : j.by_ = .mirrorCommitRecord i)
    (o : OkFail) :
    exec (.mirrorCommitRecordDone b o) s = .next (s.afterWork b j o (s.mirrorCommitRecordDone b j i o)) := by
  refine congrArg Host.Outcome.next (State.programDone_working h o ?_)
  unfold Device.onMirrorCommitRecord
  rw [hby]

/-- A page read of a second commit attempt goes to its commit (R39, R40). -/
theorem State.execCommitCopyReadDone_working {copy : Copy} (h : s.Working b j) (hby : j.by_ = .commitCopyRead i copy)
    (o : ReadOutcome) :
    exec (.commitCopyReadDone b o) s = .next (s.afterRead b (s.commitCopyReadDone i copy o (s.readBytes b j))) := by
  refine congrArg Host.Outcome.next (State.readDone_working h ?_)
  unfold Device.onCommitCopyRead
  rw [hby]

/-- A program of a second commit attempt goes to its commit (R39, R40). -/
theorem State.execCommitCopyProgramDone_working (h : s.Working b j) (hby : j.by_ = .commitCopyProgram i) (o : OkFail) :
    exec (.commitCopyProgramDone b o) s = .next (s.afterWork b j o (s.commitCopyProgramDone b j i o)) := by
  refine congrArg Host.Outcome.next (State.programDone_working h o ?_)
  unfold Device.onCommitCopyProgram
  rw [hby]

end

/-- Settles O43: each row goes to the commit that queued its job, and the commit goes by the state of its context. -/
theorem commitRecordsEndTheCommit : Obligations.CommitRecordsEndTheCommit := by
  unfold Obligations.CommitRecordsEndTheCommit
  refine ⟨fun s b j i c h hc => ⟨fun hby => ⟨?_, ?_⟩, fun hby => ⟨?_, ?_⟩⟩,
    fun s b j i c x a h hc state hx ha => ⟨fun copy hby => ⟨fun n => ?_, fun m primary hm => ?_, fun lost => ?_⟩,
      fun hby => ⟨fun last => ?_, fun notLast more => ?_, fun notLast pages => ?_, ?_⟩⟩,
    fun d i c hc left => ?_⟩
  · rw [State.execCommitRecordDone_working h hby]
    rfl
  · rw [State.execCommitRecordDone_working h hby]
    unfold Device.commitRecordDone
    dsimp only
    rw [Device.programFailed_ctx?, hc]
  · rw [State.execMirrorCommitRecordDone_working h hby]
    unfold Device.mirrorCommitRecordDone
    rw [hc]
    rfl
  · rw [State.execMirrorCommitRecordDone_working h hby]
    unfold Device.mirrorCommitRecordDone
    rw [hc]
    rfl
  · rw [State.execCommitCopyReadDone_working h hby]
    unfold Device.commitCopyReadDone
    rw [hc]
    dsimp only
    rw [hx, ha]
  · rw [State.execCommitCopyReadDone_working h hby, primary]
    unfold Device.commitCopyReadDone
    rw [hc]
    dsimp only
    rw [hx, ha, hm]
    rfl
  · have failed : s.commitCopyReadDone i copy .uncorrectable (s.readBytes b j) = s.commitFailed i := by
      unfold Device.commitCopyReadDone
      rw [hc]
      dsimp only
      rw [hx, ha]
      rcases lost with mirror | missing
      · rw [mirror]
      · rw [missing]
        cases copy <;> rfl
    rw [State.execCommitCopyReadDone_working h hby, failed, Device.commitFailed_committing hc state]
  · rw [State.execCommitCopyProgramDone_working h hby]
    unfold Device.commitCopyProgramDone
    dsimp only
    rw [if_pos last]
  · rw [State.execCommitCopyProgramDone_working h hby]
    unfold Device.commitCopyProgramDone
    dsimp only
    rw [if_neg notLast, hc]
    dsimp only
    rw [hx, ha]
    dsimp only
    rw [if_pos more]
    rfl
  · rw [State.execCommitCopyProgramDone_working h hby]
    unfold Device.commitCopyProgramDone
    dsimp only
    rw [if_neg notLast, hc]
    dsimp only
    rw [hx, ha]
    dsimp only
    rw [if_neg (Nat.not_lt.mpr pages)]
    rfl
  · rw [State.execCommitCopyProgramDone_working h hby]
    unfold Device.commitCopyProgramDone
    dsimp only
    rw [Device.commitFailed_committing (c := c) (by rw [Device.programFailed_ctx?, hc]) state]
  · intro d'
    have left' : d' = _ := Device.beginAbandon_alone hc left
    rw [left']
    refine ⟨?_, fun a => Device.givenUp_blockState _ i _ a, fun create => Device.givenUp_entry?_create _ i create,
      fun replace e he => ?_, fun r other => Device.givenUp_entry?_other _ i other⟩
    · rw [(Device.givenUp_slots _ i _).1, Device.slots_setCtx_self]
    · have freed := Device.givenUp_entry?_replace (c := { c with state := .abandoning, timer := none, copying := none })
        (d.setCtx i { c with state := .abandoning, timer := none, copying := none }) i replace
      refine freed.trans ?_
      exact congrArg (Option.map _) he

end Sys2Proof.Machine

/-!
Puts (R32 to R35): how a put ends in an OPEN and in an abandoned context, what each completion of a program brings, and
the settling of O41.
-/

namespace Sys2Proof.Machine

section
variable {d : Device} {id : Nat} {w : PutWork} {c : Ctx} {copy : Copy} {r : CopyRun}

/-- The run of one copy is replaced, and the rest of the put stays. -/
theorem PutWork.setRun_same (w : PutWork) (copy : Copy) (r : CopyRun) :
    (w.setRun copy r).slot = w.slot ∧ (w.setRun copy r).chunk = w.chunk ∧ (w.setRun copy r).data = w.data
      ∧ (w.setRun copy r).ending = w.ending := by
  cases copy <;> exact ⟨rfl, rfl, rfl, rfl⟩

/-- A request that names a context completes, and the context has one request less (R43). -/
theorem Device.completeNaming_setCtx (d : Device) (i : SlotIndex) (c : Ctx) (id : Nat) (r : Result)
    (reply : List Byte) :
    (d.setCtx i c).completeNaming i id r reply
      = (d.setCtx i { c with
          requests := c.requests - 1
          timer := if c.requests - 1 = 0 ∧ c.state = .open then d.timerStart else c.timer }).complete id r reply := by
  unfold Device.completeNaming Device.leaveContext
  rw [Device.ctx?_setCtx_self]
  dsimp only
  rw [Device.setCtx_setCtx]
  rfl

/-- A put that is not ending keeps its request. -/
theorem Device.putEnd_working (h : w.hasJob = true) (d : Device) (id : Nat) : d.putEnd id w = d.setWork id (.put w) := by
  unfold Device.putEnd
  cases w.ending with
  | none => rfl
  | some r => exact if_pos h

/-- A put that ends without a job left, in an OPEN context, gives its blocks up and their positions back (R33, R34). -/
theorem Device.putEnd_open {result : Result} (ending : w.ending = some result) (idle : w.hasJob = false)
    (hc : d.ctx? w.slot = some c) (state : c.state = .open) :
    let x := c.chunkAt w.chunk
    let going := (x.primary.toList ++ x.mirror.toList).filter fun a => decide (d.blockState a = some .allocated)
    d.putEnd id w = ((((d.withdrawGrants (Asker.isPut id)).toStale going).setCtx w.slot
      { c.modChunk w.chunk fun x => { x with primary := none, mirror := none } with
        inFlight := c.inFlight.filter fun k => decide (k ≠ w.chunk), reserved := c.reserved + going.length
        requests := c.requests - 1
        timer := if c.requests - 1 = 0 then d.timerStart else c.timer }).complete id result []) := by
  intro x going
  have ctx : (d.withdrawGrants (Asker.isPut id)).ctx? w.slot = some c := hc
  have timer (as : List BlockAddr) : ((d.withdrawGrants (Asker.isPut id)).toStale as).timerStart = d.timerStart := by
    unfold Device.timerStart
    rw [(Device.toStale_same _ as).2.2.2.2.2.1]
    rfl
  unfold Device.putEnd
  rw [ending]
  dsimp only
  rw [if_neg (ne_true_of_eq_false idle), ctx]
  dsimp only
  rw [if_pos state, Device.completeNaming_setCtx]
  simp only [state, and_true, Ctx.modChunk, timer]
  rfl

/-- A put that ends without a job left, in a context that is being abandoned, may let the abandonment finish (R42). -/
theorem Device.putEnd_abandoning {result : Result} (ending : w.ending = some result) (idle : w.hasJob = false)
    (hc : d.ctx? w.slot = some c) (state : c.state = .abandoning) :
    d.putEnd id w = (((d.withdrawGrants (Asker.isPut id)).setCtx w.slot { c with
      inFlight := c.inFlight.filter fun k => decide (k ≠ w.chunk), requests := c.requests - 1 }).complete
        id result []).tryFinishAbandon w.slot := by
  have ctx : (d.withdrawGrants (Asker.isPut id)).ctx? w.slot = some c := hc
  unfold Device.putEnd
  rw [ending]
  dsimp only
  rw [if_neg (ne_true_of_eq_false idle), ctx]
  dsimp only
  rw [if_neg (by simp [state]), Device.completeNaming_setCtx]
  simp only [state, reduceCtorEq, and_false, if_false]

/-- A put whose block has gone BAD no longer records it, and its position counts again while the context is OPEN
(R33). -/
theorem Device.putBlockLost_ctx? (hc : d.ctx? w.slot = some c) (id : Nat) (copy : Copy) :
    (d.putBlockLost id w copy).ctx? w.slot = some { c.modChunk w.chunk fun x => x.setBlock copy none with
      reserved := if c.state = .open then c.reserved + 1 else c.reserved } := by
  unfold Device.putBlockLost
  rw [hc]
  exact Device.ctx?_setCtx_self _ _ _

/-- An ending put goes on to its end when one of its programs completes OK (R33). -/
theorem Device.putJobOk_ending (h : w.ending.isSome = true) (d : Device) (id : Nat) :
    d.putJobOk id w copy r = d.putEnd id (w.setRun copy { r with job := none }) := by
  unfold Device.putJobOk
  rw [if_pos h]

/-- An ending put goes on to its end when one of its programs completes FAIL (R33). -/
theorem Device.putJobFailed_ending (h : w.ending.isSome = true) (d : Device) (id : Nat) :
    d.putJobFailed id w copy r
      = (d.putBlockLost id w copy).putEnd id (w.setRun copy { r with block := none, job := none }) := by
  unfold Device.putJobFailed
  dsimp only
  rw [if_pos h]

end

section
variable {s : State} {b : Bank} {j : Job} {id : Nat} {copy : Copy} {w : PutWork} {r : CopyRun}

/-- A program of a put that completes goes to the put that queued it (R32, R34). -/
theorem State.execPutProgramDone_working (h : s.Working b j) (hby : j.by_ = .put id copy) (o : OkFail) :
    exec (.putProgramDone b o) s = .next (s.afterWork b j o (s.putProgramDone b j id copy o)) := by
  refine congrArg Host.Outcome.next (State.programDone_working h o ?_)
  unfold Device.onPut
  rw [hby]

/-- A program of a put that completes OK. -/
theorem State.execPutProgramDone_ok (h : s.Working b j) (hby : j.by_ = .put id copy) (hw : s.work? id = some (.put w))
    (hr : w.run copy = some r) :
    exec (.putProgramDone b .ok) s = .next (s.afterWork b j .ok (s.putJobOk id w copy r)) := by
  rw [State.execPutProgramDone_working h hby]
  unfold Device.putProgramDone
  rw [hw]
  dsimp only
  rw [hr]

/-- A program of a put that completes FAIL. -/
theorem State.execPutProgramDone_fail (h : s.Working b j) (hby : j.by_ = .put id copy)
    (hw : s.work? id = some (.put w)) (hr : w.run copy = some r) :
    exec (.putProgramDone b .fail) s
      = .next (s.afterWork b j .fail ((s.programFailed b j).putJobFailed id w copy r)) := by
  rw [State.execPutProgramDone_working h hby]
  unfold Device.putProgramDone
  rw [hw]
  dsimp only
  rw [hr]

end

/-- Settles O41: a put goes on, is present or ends by what `putJobOk` and `putJobFailed` do, and ends as `putEnd` ends
it. -/
theorem putProgramsGoOnOrEnd : Obligations.PutProgramsGoOnOrEnd := by
  unfold Obligations.PutProgramsGoOnOrEnd
  intro ends
  have opens (d : Device) (id : Nat) (w : PutWork) (c : Ctx) (result : Result) (ending : w.ending = some result)
      (hc : d.ctx? w.slot = some c) (state : c.state = .open) : d.putEnd id w = ends d id w c result := by
    unfold ends
    cases busy : w.hasJob with
    | true => exact Device.putEnd_working busy d id
    | false => exact Device.putEnd_open ending busy hc state
  refine ⟨fun s b j id copy w c r a k h hby hw going hr hb hj hc => ?_, opens,
    fun s b j id copy w c r result h hby hw ending hr hc state => ⟨?_, ?_⟩⟩
  · obtain ⟨attempt, block, job, _⟩ := r
    obtain rfl : block = some a := hb
    obtain rfl : job = some k := hj
    intro doneRun
    have notEnding : ¬w.ending.isSome = true := by simp [going]
    obtain ⟨slot, chunk, -, -⟩ := w.setRun_same copy doneRun
    refine ⟨fun more => ?_, fun last all => ?_, fun last other => ?_, ⟨?_, fun first => ?_, fun again => ?_⟩⟩
    · rw [State.execPutProgramDone_ok h hby hw hr]
      unfold Device.putJobOk
      rw [if_neg notEnding, hc]
      dsimp only
      rw [if_pos more]
      rfl
    · rw [State.execPutProgramDone_ok h hby hw hr]
      unfold Device.putJobOk
      rw [if_neg notEnding, hc]
      dsimp only
      rw [if_neg (Nat.not_lt.mpr last), if_pos all]
      unfold Device.putPresent
      rw [slot, chunk, hc]
      dsimp only
      rw [Device.completeNaming_setCtx]
    · rw [State.execPutProgramDone_ok h hby hw hr]
      unfold Device.putJobOk
      rw [if_neg notEnding, hc]
      dsimp only
      rw [if_neg (Nat.not_lt.mpr last), if_neg (by rw [other]; decide)]
    · exact Device.putBlockLost_ctx? (by rw [Device.programFailed_ctx?, hc]) id copy
    · rw [State.execPutProgramDone_fail h hby hw hr]
      unfold Device.putJobFailed
      dsimp only
      rw [if_neg notEnding, if_pos first, Device.putBlockLost_ctx? (c := c) (by rw [Device.programFailed_ctx?, hc])]
      rfl
    · rw [State.execPutProgramDone_fail h hby hw hr]
      unfold Device.putJobFailed
      dsimp only
      rw [if_neg notEnding, if_neg again]
  · rw [State.execPutProgramDone_ok h hby hw hr, Device.putJobOk_ending (by simp [ending]), opens (c := c)]
    · rw [(w.setRun_same copy _).2.2.2, ending]
    · rw [(w.setRun_same copy _).1, hc]
    · exact state
  · rw [State.execPutProgramDone_fail h hby hw hr, Device.putJobFailed_ending (by simp [ending]), opens]
    · rw [(w.setRun_same copy _).2.2.2, ending]
    · rw [(w.setRun_same copy _).1, Device.putBlockLost_ctx? (c := c) (by rw [Device.programFailed_ctx?, hc]),
        if_pos state]
    · exact state

end Sys2Proof.Machine

/-!
Abandonment (R41, R42): what the puts of a context that is abandoned come to, one after another and all together, and
the settling of O26.
-/

namespace Sys2Proof.Machine

/-! ### The puts of a context -/

/-- Whether a request in flight is a put of a context. -/
def Flight.isPutOf (i : SlotIndex) (f : Flight) : Bool := match f.work with | .put w => decide (w.slot = i) | _ => false

/-- Whether a request in flight is a put of a context with no job queued or in progress. -/
def Flight.idlePut (i : SlotIndex) (f : Flight) : Bool :=
  match f.work with | .put w => decide (w.slot = i) && !w.hasJob | _ => false

/-- Whether a request in flight is a put of a context with a job queued or in progress. -/
def Flight.busyPut (i : SlotIndex) (f : Flight) : Bool :=
  match f.work with | .put w => decide (w.slot = i) && w.hasJob | _ => false

/-- Whether a request in flight is such a put, without a job, of a chunk. -/
def Flight.idlePutOn (i : SlotIndex) (k : Nat) (f : Flight) : Bool :=
  match f.work with | .put w => decide (w.slot = i) && !w.hasJob && decide (w.chunk = k) | _ => false

/-- A put of a context that is cut short: it ends ABORTED (R42). -/
def Flight.cutShort (i : SlotIndex) (f : Flight) : Flight :=
  match f.work with
  | .put w => if w.slot = i then { f with work := .put { w with ending := some .aborted } } else f
  | _ => f

/-- What becomes of a request in flight as puts are cut short: one without a job completes (R42). -/
def Flight.cut (i : SlotIndex) (ids : List Nat) (f : Flight) : Option Flight :=
  if f.id ∈ ids then (if f.idlePut i = true then none else some (f.cutShort i)) else some f

section
variable {i : SlotIndex} {f : Flight} {w : PutWork}

/-- A put of a context, by its work. -/
theorem Flight.isPutOf_iff : f.isPutOf i = true ↔ ∃ w, f.work = .put w ∧ w.slot = i := by
  unfold Flight.isPutOf
  cases f.work <;> simp

/-- A put of a context has a job or has none. -/
theorem Flight.isPutOf_eq (i : SlotIndex) (f : Flight) : f.isPutOf i = (f.idlePut i || f.busyPut i) := by
  unfold Flight.isPutOf Flight.idlePut Flight.busyPut
  cases f.work with
  | put w =>
    dsimp only
    cases w.hasJob <;> simp
  | _ => rfl

/-- A put with a job is none without. -/
theorem Flight.not_idle_of_busy (busy : f.busyPut i = true) : f.idlePut i = false := by
  unfold Flight.busyPut at busy
  unfold Flight.idlePut
  cases work : f.work with
  | put w =>
    rw [work] at busy
    simp [(Bool.and_eq_true_iff.mp busy).2]
  | _ => rfl

/-- A put of a context with the given work. -/
theorem Flight.put_eq (work : f.work = .put w) (slot : w.slot = i) :
    f.idlePut i = (!w.hasJob) ∧ f.busyPut i = w.hasJob
      ∧ f.cutShort i = { f with work := .put { w with ending := some .aborted } }
      ∧ ∀ k, f.idlePutOn i k = (!w.hasJob && decide (w.chunk = k)) := by
  unfold Flight.idlePut Flight.busyPut Flight.cutShort Flight.idlePutOn
  rw [work]
  simp [slot]

/-- A put of a chunk without a job is a put of its context. -/
theorem Flight.idlePutOn_put (i : SlotIndex) (k : Nat) (f : Flight) :
    (f.isPutOf i && f.idlePutOn i k) = f.idlePutOn i k := by
  unfold Flight.isPutOf Flight.idlePutOn
  cases f.work with
  | put w =>
    dsimp only
    by_cases own : w.slot = i <;> simp [own]
  | _ => rfl

/-- A put that is cut short keeps its name, its port and what it posts. -/
theorem Flight.cutShort_same (i : SlotIndex) (f : Flight) :
    (f.cutShort i).id = f.id ∧ (∀ p, (f.cutShort i).postsTo p = f.postsTo p)
      ∧ (∀ r reply, (f.cutShort i).posts r reply = f.posts r reply)
      ∧ ((f.cutShort i).work = .abandon i ↔ f.work = .abandon i) := by
  unfold Flight.cutShort
  cases work : f.work with
  | put w =>
    dsimp only
    split
    · exact ⟨rfl, fun _ => rfl, fun _ _ => rfl, by simp⟩
    · exact ⟨rfl, fun _ => rfl, fun _ _ => rfl, by simp [work]⟩
  | _ => exact ⟨rfl, fun _ => rfl, fun _ _ => rfl, by simp [work]⟩

/-- An abandonment is no put. -/
theorem Flight.idlePut_abandon (work : f.work = .abandon i) : f.idlePut i = false := by
  unfold Flight.idlePut
  rw [work]

/-- A put that is cut short is still a put of its context. -/
theorem Flight.cutShort_isPutOf (i : SlotIndex) (f : Flight) : (f.cutShort i).isPutOf i = f.isPutOf i := by
  unfold Flight.cutShort
  cases work : f.work with
  | put w =>
    dsimp only
    split
    next own => simp [Flight.isPutOf, work, own]
    next => rfl
  | _ => rfl

/-- What is left of a request keeps its name. -/
theorem Flight.cut_id {ids : List Nat} {g : Flight} (h : f.cut i ids = some g) : g.id = f.id := by
  unfold Flight.cut at h
  split at h
  · split at h
    · nomatch h
    · rw [← Option.some.inj h]
      exact (f.cutShort_same i).1
  · rw [← Option.some.inj h]

/-- The requests that are left keep their names and their order. -/
theorem Flight.cut_ids (i : SlotIndex) (ids : List Nat) (fs : List Flight) :
    ((fs.filterMap (Flight.cut i ids)).map (·.id)).Sublist (fs.map (·.id)) := by
  induction fs with
  | nil => exact .slnil
  | cons f fs ih =>
    rw [List.filterMap_cons]
    cases left : f.cut i ids with
    | none => exact ih.cons _
    | some g =>
      rw [List.map_cons, List.map_cons, Flight.cut_id left]
      exact ih.cons_cons _

/-- Puts cut short one after another, and all together. -/
theorem Flight.cut_cons {id : Nat} {ids : List Nat} (new : id ∉ ids) (f : Flight) :
    (f.cut i [id]).bind (Flight.cut i ids) = f.cut i (id :: ids) := by
  by_cases own : f.id = id
  · cases idle : f.idlePut i <;> simp [Flight.cut, own, idle, (f.cutShort_same i).1, new]
  · simp [Flight.cut, own]

end

section
variable {d : Device} {i : SlotIndex}

/-- The puts of a context, by their requests. -/
theorem Device.putsOf_eq (d : Device) (i : SlotIndex) : d.putsOf i = (d.flights.filter (·.isPutOf i)).map (·.id) := by
  unfold Device.putsOf
  induction d.flights with
  | nil => rfl
  | cons f fs ih =>
    rw [List.filterMap_cons, ih, List.filter_cons]
    unfold Flight.isPutOf
    cases f.work with
    | put w =>
      dsimp only
      by_cases own : w.slot = i <;> simp [own]
    | _ => rfl

/-- A context has no put just where no request in flight is one. -/
theorem Device.putsOf_eq_nil : d.putsOf i = [] ↔ ∀ f ∈ d.flights, f.isPutOf i = false := by
  rw [Device.putsOf_eq, List.map_eq_nil_iff, List.filter_eq_nil_iff]
  simp

/-- The abandonment of a context does not finish twice. -/
theorem Device.tryFinishAbandon_idem (d : Device) (i : SlotIndex) :
    (d.tryFinishAbandon i).tryFinishAbandon i = d.tryFinishAbandon i := by
  cases hc : d.ctx? i with
  | none =>
    have stays : d.tryFinishAbandon i = d := by
      unfold Device.tryFinishAbandon
      rw [hc]
    rw [stays, stays]
  | some c =>
    by_cases finish : c.state = .abandoning ∧ d.putsOf i = []
    · have free : (d.givenUp i c).ctx? i = none := by
        unfold Device.ctx?
        rw [(d.givenUp_slots i c).1]
      rw [Device.tryFinishAbandon_done hc finish.1 finish.2]
      unfold Device.tryFinishAbandon
      rw [free]
    · have stays : d.tryFinishAbandon i = d := by
        unfold Device.tryFinishAbandon
        rw [hc]
        exact if_neg finish
      rw [stays, stays]

end

/-! ### One put cut short -/

/-- A part after puts of an abandoned context have been cut short (R42): those without a job have completed ABORTED. -/
structure Device.CutShort (i : SlotIndex) (c : Ctx) (fs : List Flight) (d d' : Device) : Prop where
  slots : d'.slots[i] = { seq := d.slots[i].seq, ctx := some { c with
    inFlight := c.inFlight.filter fun k => !fs.any (·.idlePutOn i k)
    requests := c.requests - fs.countP (·.idlePut i) } }
  others : ∀ k, k ≠ i → d'.slots[k] = d.slots[k]
  dir : d'.dir = d.dir
  table : d'.pool.table = d.pool.table
  waits : d'.pool.waits = d.pool.waits.filter fun g => !fs.any fun f => g.asker.isPut f.id
  flights : d'.flights = d.flights.filterMap (Flight.cut i (fs.map (·.id)))
  completions : ∀ p, (d'.port p).completions = (d.port p).completions
    ++ (fs.filter fun f => f.idlePut i && f.postsTo p).map (·.posts .aborted [])

section
variable {d d₁ d' : Device} {i : SlotIndex} {c : Ctx} {f : Flight} {fs : List Flight}

/-- No put cut short changes nothing. -/
theorem Device.CutShort.nil (hc : d.ctx? i = some c) : Device.CutShort i c [] d d where
  slots := by
    have ctx : d.slots[i].ctx = some c := hc
    simp [← ctx]
  others := fun _ _ => rfl
  dir := rfl
  table := rfl
  waits := by simp
  flights := by
    have all : Flight.cut i [] = some := funext fun f => by simp [Flight.cut]
    simp [all]
  completions := by simp

/-- The context that the cutting of some puts leaves. -/
theorem Device.CutShort.ctx? (h : Device.CutShort i c fs d d') : d'.ctx? i = some { c with
    inFlight := c.inFlight.filter fun k => !fs.any (·.idlePutOn i k)
    requests := c.requests - fs.countP (·.idlePut i) } := by
  unfold Device.ctx?
  rw [h.slots]

/-- One put cut short, and then more. -/
theorem Device.CutShort.cons {c' : Ctx} (h : Device.CutShort i c [f] d d₁) (hc : d₁.ctx? i = some c')
    (h' : Device.CutShort i c' fs d₁ d') (new : f.id ∉ fs.map (·.id)) : Device.CutShort i c (f :: fs) d d' := by
  obtain rfl := Option.some.inj (hc.symm.trans h.ctx?)
  refine ⟨?_, fun k hk => (h'.others k hk).trans (h.others k hk), h'.dir.trans h.dir, h'.table.trans h.table, ?_, ?_,
    fun p => ?_⟩
  · rw [h'.slots, h.slots]
    dsimp only
    rw [List.filter_filter, Nat.sub_sub, ← List.countP_append]
    simp [Bool.and_comm]
  · rw [h'.waits, h.waits, List.filter_filter]
    simp [Bool.and_comm]
  · rw [h'.flights, h.flights, List.filterMap_filterMap]
    exact congrArg (List.filterMap · _) (funext fun g => Flight.cut_cons new g)
  · rw [h'.completions, h.completions, List.append_assoc, ← List.map_append, ← List.filter_append]
    rfl

/-- A grant that is withdrawn twice is withdrawn. -/
theorem Device.withdrawGrants_waits (d : Device) (p : Asker → Bool) :
    ((d.withdrawGrants p).withdrawGrants p).pool.waits = d.pool.waits.filter fun g => !p g.asker := by
  unfold Device.withdrawGrants
  simp

/-- A put that is cut short ends ABORTED: one with a job waits for it, and one without completes (R42). -/
theorem Device.cutPut_eq (named : d.FlightsNamed) (hf : f ∈ d.flights) (put : f.isPutOf i = true)
    (hc : d.ctx? i = some c) (state : c.state = .abandoning) :
    ∃ d₁, Device.CutShort i c [f] d d₁ ∧ d.cutPut f.id = d₁.tryFinishAbandon i := by
  obtain ⟨w, work, slot⟩ := Flight.isPutOf_iff.mp put
  obtain ⟨idle, -, short, on_chunk⟩ := Flight.put_eq work slot
  have found : d.work? f.id = some (.put w) := by
    unfold Device.work?
    rw [Device.flight?_of_mem named hf]
    exact congrArg some work
  have same (g : Flight) (hg : g ∈ d.flights) (name : g.id = f.id) : g = f := by
    have byName := Device.flight?_of_mem named hg
    rw [name, Device.flight?_of_mem named hf] at byName
    exact (Option.some.inj byName).symm
  have cut : d.cutPut f.id
      = (d.withdrawGrants (Asker.isPut f.id)).putEnd f.id { w with ending := some .aborted } := by
    unfold Device.cutPut
    rw [found]
  cases busy : w.hasJob with
  | true =>
    have left : d.cutPut f.id
        = (d.withdrawGrants (Asker.isPut f.id)).setWork f.id (.put { w with ending := some .aborted }) :=
      cut.trans (Device.putEnd_working (w := { w with ending := some .aborted }) busy _ _)
    have stays : ((d.withdrawGrants (Asker.isPut f.id)).setWork f.id (.put { w with ending := some .aborted })).putsOf i
        ≠ [] := by
      rw [ne_eq, Device.putsOf_eq_nil]
      intro none_
      have still := none_ { f with work := .put { w with ending := some .aborted } }
        (List.mem_map.mpr ⟨f, hf, if_pos rfl⟩)
      simp [Flight.isPutOf, slot] at still
    refine ⟨_, ?_, left.trans (Device.tryFinishAbandon_waits stays).symm⟩
    have nothing : [f].countP (·.idlePut i) = 0 := by simp [idle, busy]
    refine ⟨?_, fun _ _ => rfl, rfl, rfl, ?_, ?_, fun p => ?_⟩
    · have ctx : d.slots[i].ctx = some c := hc
      rw [nothing]
      simp [on_chunk, busy, Device.withdrawGrants, ← ctx]
    · simp [Device.withdrawGrants]
    · unfold Device.setWork
      dsimp only
      rw [← List.filterMap_eq_map]
      refine List.filterMap_congr fun g hg => ?_
      unfold Flight.cut
      by_cases own : g.id = f.id
      · obtain rfl := same g hg own
        simp [idle, busy, short]
      · simp [own]
    · simp [idle, busy]
      cases p <;> rfl
  | false =>
    have ended := Device.putEnd_abandoning (w := { w with ending := some .aborted }) (id := f.id)
      (d := d.withdrawGrants (Asker.isPut f.id)) rfl busy (by rw [← hc, ← slot]; rfl) state
    refine ⟨_, ?_, cut.trans (ended.trans (congrArg _ slot))⟩
    refine ⟨?_, fun k hk => ?_, ?_, ?_, ?_, ?_, fun p => ?_⟩
    · rw [Device.complete_slots, slot, Device.slots_setCtx_self]
      simp [on_chunk, busy, idle, eq_comm]
    · rw [Device.complete_slots, slot, Device.slots_setCtx_other _ hk]
      rfl
    · rw [Device.complete_dir]
      rfl
    · rw [Device.complete_pool]
      rfl
    · rw [Device.complete_pool, Device.setCtx_pool, Device.withdrawGrants_waits]
      simp
    · rw [Device.complete_flights, ← List.filterMap_eq_filter]
      refine List.filterMap_congr fun g hg => ?_
      unfold Flight.cut
      by_cases own : g.id = f.id
      · obtain rfl := same g hg own
        simp [idle, busy]
      · simp [own]
    · rw [Device.complete_completions]
      have flight : (((d.withdrawGrants (Asker.isPut f.id)).withdrawGrants (Asker.isPut f.id)).setCtx w.slot
          { c with inFlight := c.inFlight.filter fun k => decide (k ≠ w.chunk), requests := c.requests - 1 }).flight? f.id
            = some f := Device.flight?_of_mem named hf
      rw [flight]
      cases posts : f.postsTo p <;> simp [idle, busy, posts] <;> cases p <;> rfl

/-- The puts of an abandoned context are cut short one after another, and the abandonment finishes after the last
(R42, log 42). -/
theorem Device.cutPuts_eq (fs : List Flight) (d : Device) (named : d.FlightsNamed) (c : Ctx)
    (inside : ∀ f ∈ fs, f ∈ d.flights ∧ f.isPutOf i = true) (apart : (fs.map (·.id)).Nodup) (hc : d.ctx? i = some c)
    (state : c.state = .abandoning) :
    ∃ d', Device.CutShort i c fs d d'
      ∧ ((fs.map (·.id)).foldl Device.cutPut d).tryFinishAbandon i = d'.tryFinishAbandon i := by
  induction fs generalizing d c with
  | nil => exact ⟨d, .nil hc, rfl⟩
  | cons f fs ih =>
    obtain ⟨hf, put⟩ := inside f (List.mem_cons_self ..)
    rw [List.map_cons, List.nodup_cons] at apart
    obtain ⟨d₁, one, cut⟩ := Device.cutPut_eq named hf put hc state
    have still (g : Flight) (hg : g ∈ fs) : g ∈ d₁.flights := by
      have new : g.id ∉ [f].map (·.id) := by
        simp only [List.map_cons, List.map_nil, List.mem_singleton]
        exact fun same => apart.1 (same ▸ List.mem_map_of_mem hg)
      rw [one.flights]
      refine List.mem_filterMap.mpr ⟨g, (inside g (List.mem_cons_of_mem _ hg)).1, ?_⟩
      unfold Flight.cut
      rw [if_neg new]
    have named₁ : d₁.FlightsNamed := by
      unfold Device.FlightsNamed
      rw [one.flights]
      exact named.sublist (Flight.cut_ids i _ d.flights)
    rw [List.map_cons, List.foldl_cons, cut]
    cases fs with
    | nil => exact ⟨d₁, one, d₁.tryFinishAbandon_idem i⟩
    | cons g gs =>
      have waits : d₁.tryFinishAbandon i = d₁ := Device.tryFinishAbandon_waits fun none_ => by
        have put' := (inside g (by simp)).2
        rw [Device.putsOf_eq_nil.mp none_ g (still g (List.mem_cons_self ..))] at put'
        nomatch put'
      rw [waits]
      obtain ⟨d', rest, finish⟩ := ih d₁ named₁ _ (fun h hh => ⟨still h hh, (inside h (List.mem_cons_of_mem _ hh)).2⟩)
        apart.2 one.ctx? state
      exact ⟨d', one.cons one.ctx? rest apart.1, finish⟩

end

/-! ### A whole abandonment -/

section
variable {d : Device} {i : SlotIndex} {c : Ctx}

/-- A context as its abandonment begins (R41). -/
def Ctx.abandoned (c : Ctx) : Ctx := { c with state := .abandoning, timer := none, copying := none }

/-- The puts of a context, all cut short (R42): the requests in flight that are left. -/
theorem Device.cutShort_flights {d' : Device} (named : d.FlightsNamed)
    (h : Device.CutShort i c (d.flights.filter (·.isPutOf i)) d d') :
    d'.flights = (d.flights.filter fun f => !f.idlePut i).map (·.cutShort i) := by
  have puts (f : Flight) (hf : f ∈ d.flights) :
      f.id ∈ (d.flights.filter (·.isPutOf i)).map (·.id) ↔ f.isPutOf i = true := by
    rw [List.mem_map]
    constructor
    · rintro ⟨g, hg, same⟩
      obtain ⟨inside, put⟩ := List.mem_filter.mp hg
      have found := Device.flight?_of_mem named inside
      rw [same, Device.flight?_of_mem named hf] at found
      rwa [Option.some.inj found]
    · exact fun put => ⟨f, List.mem_filter.mpr ⟨hf, put⟩, rfl⟩
  rw [h.flights]
  conv_rhs => rw [← List.filterMap_eq_map, List.filterMap_filter]
  refine List.filterMap_congr fun f hf => ?_
  unfold Flight.cut
  by_cases put : f.isPutOf i = true
  · rw [if_pos ((puts f hf).mpr put)]
    cases f.idlePut i <;> simp
  · have not_idle : f.idlePut i = false := by
      rw [Flight.isPutOf_eq, Bool.or_eq_true] at put
      exact Bool.eq_false_of_not_eq_true fun idle => put (.inl idle)
    have alone : f.cutShort i = f := by
      unfold Flight.cutShort
      unfold Flight.isPutOf at put
      cases work : f.work with
      | put w =>
        rw [work] at put
        exact if_neg fun own => put (decide_eq_true own)
      | _ => rfl
    rw [if_neg (mt (puts f hf).mp put), not_idle]
    simp [alone]

/-- An abandonment cuts the puts of its context short, and finishes when none is left (R41, R42). -/
theorem Device.beginAbandon_eq (named : d.FlightsNamed) (hc : d.ctx? i = some c) :
    ∃ d', Device.CutShort i c.abandoned (d.flights.filter (·.isPutOf i)) (d.setCtx i c.abandoned) d'
      ∧ (d.flights.any (·.busyPut i) = true → d.beginAbandon i = d')
      ∧ (d.flights.any (·.busyPut i) = false → ∃ c' : Ctx, c'.name = c.name ∧ c'.mode = c.mode ∧ c'.chunks = c.chunks
          ∧ d.beginAbandon i = d'.givenUp i c') := by
  obtain ⟨d', short, finish⟩ := Device.cutPuts_eq (i := i) (d.flights.filter (·.isPutOf i)) (d.setCtx i c.abandoned)
    named c.abandoned (fun f hf => List.mem_filter.mp hf) (named.sublist (List.filter_sublist.map _))
    (Device.ctx?_setCtx_self ..) rfl
  have begun : d.beginAbandon i = d'.tryFinishAbandon i := by
    rw [← finish, ← Device.putsOf_eq]
    unfold Device.beginAbandon
    rw [hc]
    rfl
  have flights := Device.cutShort_flights (d := d.setCtx i c.abandoned) named short
  have left : d'.putsOf i = [] ↔ d.flights.any (·.busyPut i) = false := by
    rw [Device.putsOf_eq_nil, flights, List.any_eq_false]
    refine ⟨fun none_ f hf busy => ?_, fun none_ g hg => ?_⟩
    · have not_idle := Flight.not_idle_of_busy busy
      have put := none_ (f.cutShort i) (List.mem_map_of_mem (List.mem_filter.mpr ⟨hf, by rw [not_idle]; rfl⟩))
      rw [Flight.cutShort_isPutOf, Flight.isPutOf_eq, busy, Bool.or_true] at put
      nomatch put
    · obtain ⟨f, hf, rfl⟩ := List.mem_map.mp hg
      obtain ⟨inside, not_idle⟩ := List.mem_filter.mp hf
      have off : f.idlePut i = false := by simpa using not_idle
      rw [Flight.cutShort_isPutOf, Flight.isPutOf_eq, off, Bool.false_or]
      exact Bool.eq_false_of_not_eq_true (none_ f inside)
  refine ⟨d', short, fun stays => ?_, fun gone => ?_⟩
  · rw [begun]
    refine Device.tryFinishAbandon_waits fun none_ => ?_
    rw [left.mp none_] at stays
    nomatch stays
  · rw [begun]
    exact ⟨{ c.abandoned with inFlight := _, requests := _ }, rfl, rfl, rfl,
      Device.tryFinishAbandon_done short.ctx? rfl (left.mpr gone)⟩

/-- What a finished abandonment leaves, for a context without a put (R41). -/
theorem Device.givenUp_alone {d₀ d : Device} {c₀ : Ctx} (i : SlotIndex) (name : c.name = c₀.name)
    (mode : c.mode = c₀.mode) (chunks : c.chunks = c₀.chunks) (seq : d.slots[i].seq = d₀.slots[i].seq)
    (others : ∀ k, k ≠ i → d.slots[k] = d₀.slots[k]) (dir : d.dir = d₀.dir) (table : d.pool.table = d₀.pool.table) :
    (d.givenUp i c).slots[i] = { seq := d₀.slots[i].seq + 1, ctx := none }
      ∧ (∀ j, j ≠ i → (d.givenUp i c).slots[j] = d₀.slots[j])
      ∧ (∀ a, (d.givenUp i c).blockState a
          = if a ∈ c₀.blocks ∧ d₀.blockState a = some .allocated then some .stale else d₀.blockState a)
      ∧ (c₀.mode = .create → (d.givenUp i c).entry? c₀.name = none)
      ∧ (c₀.mode = .replace → (d.givenUp i c).entry? c₀.name = (d₀.entry? c₀.name).map fun e => { e with busy := .none })
      ∧ ∀ r, r ≠ c₀.name → (d.givenUp i c).entry? r = d₀.entry? r := by
  have blocks : c.blocks = c₀.blocks := by
    unfold Ctx.blocks
    rw [chunks]
  obtain ⟨own, rest⟩ := d.givenUp_slots i c
  rw [← name, ← mode, ← blocks]
  refine ⟨own.trans (by rw [seq]), fun j h => (rest j h).trans (others j h), fun a => ?_,
    d.givenUp_entry?_create i, fun replace => ?_, fun r other => ?_⟩
  · rw [Device.givenUp_blockState, Device.blockState_congr table]
  · rw [d.givenUp_entry?_replace i replace, Device.entry?_congr dir]
  · rw [d.givenUp_entry?_other i other, Device.entry?_congr dir]

/-- The only request with a work is the only one of it that posts to its port, unless it is marked for discard. -/
theorem Device.posting_single {f : Flight} {w : Work} (named : d.FlightsNamed) (hf : f ∈ d.flights)
    (only : d.flightsWith w = [f.id]) (kept : f.discard = false) :
    (d.flights.filter fun g => decide (g.work = w) && g.postsTo f.port) = [f] := by
  have swap : (fun g : Flight => decide (g.work = w) && g.postsTo f.port)
      = fun g => g.postsTo f.port && decide (g.work = w) := funext fun g => Bool.and_comm _ _
  rw [swap, ← List.filter_filter, Device.filter_of_flightsWith named hf only]
  simp [Flight.postsTo, kept]

/-- The requests in flight with another work than a given one. -/
theorem Device.filter_not_flightsWith (named : d.FlightsNamed) (w : Work) :
    (d.flights.filter fun g => decide (g.id ∉ d.flightsWith w)) = d.flights.filter fun g => decide (g.work ≠ w) := by
  refine List.filter_congr fun g hg => decide_eq_decide.mpr (not_congr ?_)
  rw [Device.flightsWith_eq, List.mem_map]
  constructor
  · rintro ⟨f, hf, same⟩
    obtain ⟨inside, work⟩ := List.mem_filter.mp hf
    have found := Device.flight?_of_mem named inside
    rw [same, Device.flight?_of_mem named hg] at found
    rw [Option.some.inj found]
    exact of_decide_eq_true work
  · exact fun work => ⟨g, List.mem_filter.mpr ⟨hg, decide_eq_true work⟩, rfl⟩

end

/-- Settles O26: an abandonment is its puts cut short one after another, and its end once none is left. -/
theorem abandonmentGivesTheContextUp : Obligations.AbandonmentGivesTheContextUp := by
  unfold Obligations.AbandonmentGivesTheContextUp
  refine ⟨fun s p tag handle i c h serving hc same own => ?_, fun d d' i c hc none_ how => ?_, fun d i c hc named => ?_,
    fun s b j id copy w c r result h hby hw ending hr hc state => ?_⟩
  · obtain ⟨pass, slot, ctx⟩ := State.named_passes serving hc same own { tag := tag, body := .abandon handle }
    have work := Device.workAbandon_named pass slot ctx s.newFlightId
    refine ⟨fun notOpen => ?_, fun isOpen => ?_⟩
    · refine State.takes_answeredWith_setCtx h Device.doAbandon (work.trans ?_)
      rw [if_pos notOpen, if_neg fun h => notOpen h.2]
    · refine State.takes_begun h Device.doAbandon (work.trans ?_)
      rw [if_neg (not_not.mpr isOpen)]
  · have finished : ∃ c' : Ctx, ∃ x : Device, c'.name = c.name ∧ c'.mode = c.mode ∧ c'.chunks = c.chunks
        ∧ x.slots[i].seq = d.slots[i].seq ∧ (∀ k, k ≠ i → x.slots[k] = d.slots[k]) ∧ x.dir = d.dir
        ∧ x.pool.table = d.pool.table ∧ x.locks = d.locks ∧ x.settings = d.settings ∧ x.layout = d.layout
        ∧ x.flights = d.flights ∧ (∀ p, x.port p = d.port p) ∧ d' = x.givenUp i c' := by
      rcases how with begun | ⟨state, finish⟩
      · refine ⟨c.abandoned, d.setCtx i c.abandoned, rfl, rfl, rfl, ?_, fun k h => Device.slots_setCtx_other _ h _, rfl,
          rfl, rfl, rfl, rfl, rfl, fun p => by cases p <;> rfl, begun.trans (Device.beginAbandon_alone hc none_)⟩
        rw [Device.slots_setCtx_self]
      · exact ⟨c, d, rfl, rfl, rfl, rfl, fun _ _ => rfl, rfl, rfl, rfl, rfl, rfl, rfl, fun _ => rfl,
          finish.trans (Device.tryFinishAbandon_done hc state none_)⟩
    obtain ⟨c', x, name, mode, chunks, seq, others, dir, table, locks, settings, layout, flights, port, rfl⟩ := finished
    obtain ⟨slots, rest, blocks, create, replace, entries⟩ :=
      Device.givenUp_alone i name mode chunks seq others dir table
    obtain ⟨locks', settings', layout', -⟩ := x.givenUp_same i c'
    refine ⟨slots, rest, blocks, create, fun mode e he => ?_, entries, locks'.trans locks, settings'.trans settings,
      layout'.trans layout, fun f hf named only => ?_⟩
    · rw [replace mode, he]
      rfl
    · have named' : x.FlightsNamed := by
        unfold Device.FlightsNamed
        rwa [flights]
      have only' : x.flightsWith (.abandon i) = [f.id] := by
        rw [← only]
        unfold Device.flightsWith
        rw [flights]
      refine ⟨?_, fun kept => ?_⟩
      · rw [x.givenUp_flights, only', flights]
        simp
      · rw [x.givenUp_completions named', port, flights, Device.posting_single named hf only kept]
        rfl
  · intro d' atWork idle stays posts
    obtain ⟨x, short, waits_, finishes⟩ := Device.beginAbandon_eq named hc
    have flights : x.flights = (d.flights.filter fun f => !idle f).map (·.cutShort i) :=
      Device.cutShort_flights (d := d.setCtx i c.abandoned) named short
    have others (k : SlotIndex) (h : k ≠ i) : x.slots[k] = d.slots[k] :=
      (short.others k h).trans (Device.slots_setCtx_other _ h _)
    have seq : x.slots[i].seq = d.slots[i].seq := by
      rw [short.slots, Device.slots_setCtx_self]
    have dir : x.dir = d.dir := short.dir
    have table : x.pool.table = d.pool.table := short.table
    have grants : x.pool.waits = d.pool.waits.filter fun g => !(d.putsOf i).any fun id => g.asker.isPut id := by
      rw [short.waits, Device.putsOf_eq]
      simp only [List.any_map]
      rfl
    have posted (p : Port) : (x.port p).completions = (d.port p).completions ++ posts p idle .aborted := by
      have port : (d.setCtx i c.abandoned).port p = d.port p := by cases p <;> rfl
      rw [short.completions p, port, List.filter_filter]
      refine congrArg (fun fs => (d.port p).completions ++ List.map (Flight.posts · .aborted []) fs)
        (List.filter_congr fun f _ => ?_)
      change (f.idlePut i && (decide (f.port = p) && !f.discard) && f.isPutOf i)
        = (f.idlePut i && decide (f.port = p) && !f.discard)
      rw [Flight.isPutOf_eq]
      cases f.idlePut i <;> simp
    have states (a : BlockAddr) : x.blockState a = d.blockState a := Device.blockState_congr table a
    rcases Bool.eq_false_or_eq_true stays with going | gone
    · have left : d' = x := waits_ going
      have notGone : ¬stays = false := by rw [going]; decide
      rw [left]
      refine ⟨fun p => ?_, ?_, grants, others, fun r _ => Device.entry?_congr dir r, fun _ => ⟨?_, ?_, states⟩,
        fun gone => absurd gone notGone⟩
      · rw [posted, going]
        exact (List.append_nil _).symm
      · rw [flights, going]
        have keep : (fun f : Flight => !idle f && (true || decide (f.work ≠ .abandon i))) = fun f => !idle f :=
          funext fun f => by simp
        rw [keep]
        rfl
      · rw [short.slots, Device.slots_setCtx_self]
        have on_chunk (k : Nat) : (d.flights.filter (·.isPutOf i)).any (·.idlePutOn i k)
            = d.flights.any (·.idlePutOn i k) := by
          rw [List.any_filter]
          exact congrArg d.flights.any (funext fun f => Flight.idlePutOn_put i k f)
        have count : (d.flights.filter (·.isPutOf i)).countP (·.idlePut i) = d.flights.countP (·.idlePut i) := by
          rw [List.countP_filter]
          refine congrArg (List.countP · d.flights) (funext fun f => ?_)
          rw [Flight.isPutOf_eq]
          cases f.idlePut i <;> simp
        rw [count]
        simp only [on_chunk]
        rfl
      · exact Device.entry?_congr dir _
    · obtain ⟨c', name, mode, chunks, finished⟩ := finishes gone
      have left : d' = x.givenUp i c' := finished
      have notGoing : ¬stays = true := by rw [gone]; decide
      obtain ⟨slots, rest, blocks, create, replace, entries⟩ :=
        Device.givenUp_alone i name mode chunks seq others dir table
      have named' : x.FlightsNamed := by
        have ids := Flight.cut_ids i ((d.flights.filter (·.isPutOf i)).map (·.id)) d.flights
        have left : x.flights = d.flights.filterMap (Flight.cut i ((d.flights.filter (·.isPutOf i)).map (·.id))) :=
          short.flights
        rw [← left] at ids
        exact named.sublist ids
      rw [left]
      refine ⟨fun p => ?_, ?_, (x.givenUp_same i c').2.2.2.trans grants, rest, entries,
        fun going => absurd going notGoing, fun _ => ⟨slots, create, replace, blocks⟩⟩
      · rw [x.givenUp_completions named', posted, flights, gone]
        rw [if_neg (by decide), List.filter_map, List.map_map, List.filter_filter]
        have shown : (fun f : Flight => f.posts .ok []) ∘ (Flight.cutShort i) = (Flight.posts · .ok []) :=
          funext fun f : Flight => (f.cutShort_same i).2.2.1 ..
        rw [shown]
        refine congrArg (fun fs => _ ++ List.map (Flight.posts · .ok []) fs) (List.filter_congr fun f _ => ?_)
        obtain ⟨-, port, -, work⟩ := f.cutShort_same i
        change (decide ((f.cutShort i).work = .abandon i) && (f.cutShort i).postsTo p && !f.idlePut i)
          = (decide (f.work = .abandon i) && decide (f.port = p) && !f.discard)
        rw [port, decide_eq_decide.mpr work, Bool.and_assoc (decide _)]
        by_cases own : f.work = .abandon i
        · simp [own, Flight.idlePut_abandon own, Flight.postsTo]
        · simp [own]
      · rw [x.givenUp_flights, Device.filter_not_flightsWith named', flights, gone,
          List.filter_map, List.filter_filter]
        have keep : (fun f => ((fun f : Flight => decide (f.work ≠ .abandon i)) ∘ (·.cutShort i)) f && !idle f)
            = fun f => !idle f && (false || decide (f.work ≠ .abandon i)) := by
          funext f
          rw [Function.comp_apply, decide_eq_decide.mpr (not_congr (f.cutShort_same i).2.2.2), Bool.and_comm,
            Bool.false_or]
        rw [keep]
        rfl
  · intro w' left
    have ended (d : Device) (x : PutWork) (c : Ctx) (slot : x.slot = w.slot) (chunk : x.chunk = w.chunk)
        (ending : x.ending = some result) (hc : d.ctx? w.slot = some c) (state : c.state = .abandoning) :
        d.putEnd id x = left d x c := by
      unfold left
      cases busy : x.hasJob with
      | true => exact Device.putEnd_working busy d id
      | false =>
        have finish := Device.putEnd_abandoning (id := id) ending busy (by rw [slot]; exact hc) state
        rw [slot, chunk] at finish
        exact finish
    obtain ⟨slot, chunk, -, kept⟩ := w.setRun_same copy { r with job := none }
    obtain ⟨slot', chunk', -, kept'⟩ := w.setRun_same copy { r with block := none, job := none }
    refine ⟨?_, ?_⟩
    · rw [State.execPutProgramDone_ok h hby hw hr, Device.putJobOk_ending (by simp [ending]),
        ended s.toDevice _ c slot chunk (kept.trans ending) hc state]
    · have lost := Device.putBlockLost_ctx? (d := s.programFailed b j) (w := w) (c := c)
        (by rw [Device.programFailed_ctx?, hc]) id copy
      rw [if_neg (by simp [state])] at lost
      rw [State.execPutProgramDone_fail h hby hw hr, Device.putJobFailed_ending (by simp [ending]),
        ended _ _ _ slot' chunk' (kept'.trans ending) lost state]
      rfl

end Sys2Proof.Machine

/-!
The interruption of a maintenance run by the taking of a request (R144, R145): what of the maintenance unit the work of
each kind of request leaves alone, and the settling of O17.
-/

namespace Sys2Proof.Machine

/-! ### The run and its relocation -/

/-- The run state of the maintenance unit and the relocation of its run. -/
def Device.atRun (d : Device) : RunState × Option Reloc := (d.maint.run, d.maint.reloc)

section
variable (d : Device)

/-- What keeps the maintenance unit keeps the run. -/
theorem Device.atRun_congr {d d' : Device} (h : d'.maint = d.maint) : d'.atRun = d.atRun := by
  unfold Device.atRun
  rw [h]

/-- A fold whose steps keep the run keeps it. -/
theorem Device.atRun_foldl {α : Type} {f : Device → α → Device} (keeps : ∀ d x, (f d x).atRun = d.atRun) (xs : List α) :
    (xs.foldl f d).atRun = d.atRun := by
  induction xs generalizing d with
  | nil => rfl
  | cons x xs ih => exact (ih (f d x)).trans (keeps d x)

/-- A fold that carries a work along and whose steps keep the run keeps it. -/
theorem Device.atRun_foldlFst {α β : Type} {f : Device × β → α → Device × β}
    (keeps : ∀ y x, (f y x).1.atRun = y.1.atRun) (xs : List α) (y : Device × β) :
    (xs.foldl f y).1.atRun = y.1.atRun := by
  induction xs generalizing y with
  | nil => rfl
  | cons x xs ih => exact (ih (f y x)).trans (keeps y x)

@[simp] theorem Device.takeIn_atRun (p : Port) (r : Request) : (d.takeIn p r).atRun = d.atRun :=
  Device.atRun_congr (d.takeIn_maint p r)

@[simp] theorem Device.complete_atRun (id : Nat) (r : Result) (reply : List Byte) :
    (d.complete id r reply).atRun = d.atRun := Device.atRun_congr (d.complete_maint id r reply)

@[simp] theorem Device.setWork_atRun (id : Nat) (w : Work) : (d.setWork id w).atRun = d.atRun := rfl

@[simp] theorem Device.modEntry_atRun (r : RecordName) (f : Entry → Entry) : (d.modEntry r f).atRun = d.atRun := rfl

@[simp] theorem Device.modDamaged_atRun (r : RecordName) (g : Nat) (f : List Nat → List Nat) :
    (d.modDamaged r g f).atRun = d.atRun := rfl

@[simp] theorem Device.insertRecord_atRun (e : Entry) : (d.insertRecord e).atRun = d.atRun := rfl

@[simp] theorem Device.setCtx_atRun (i : SlotIndex) (c : Ctx) : (d.setCtx i c).atRun = d.atRun := rfl

@[simp] theorem Device.freeSlot_atRun (i : SlotIndex) : (d.freeSlot i).atRun = d.atRun := rfl

@[simp] theorem Device.queueJob_atRun (b : Bank) (j : Job) : (d.queueJob b j).atRun = d.atRun := rfl

@[simp] theorem Device.queueRead_atRun (a : BlockAddr) (page : Nat) (q : Queuer) :
    (d.queueRead a page q).atRun = d.atRun := rfl

@[simp] theorem Device.queueMark_atRun (a : BlockAddr) (kind : MarkKind) (k generation : Nat) (q : Queuer) :
    (d.queueMark a kind k generation q).atRun = d.atRun := rfl

@[simp] theorem Device.queueCommitRecord_atRun (a : BlockAddr) (record : List Byte) (q : Queuer) :
    (d.queueCommitRecord a record q).atRun = d.atRun := rfl

@[simp] theorem Device.askGrant_atRun (k : Asker) (rs : List BlockRequest) : (d.askGrant k rs).atRun = d.atRun := rfl

@[simp] theorem Device.askDraw_atRun (k : Drawer) (n : Nat) : (d.askDraw k n).atRun = d.atRun := rfl

@[simp] theorem Device.withdrawGrants_atRun (f : Asker → Bool) : (d.withdrawGrants f).atRun = d.atRun := rfl

@[simp] theorem Device.withdrawDraws_atRun (k : Drawer) : (d.withdrawDraws k).atRun = d.atRun := rfl

@[simp] theorem Device.pin_atRun (as : List BlockAddr) : (d.pin as).atRun = d.atRun := by
  obtain ⟨table, h⟩ := d.pin_fields as
  rw [h]
  rfl

@[simp] theorem Device.unpin_atRun (as : List BlockAddr) : (d.unpin as).atRun = d.atRun := by
  obtain ⟨table, examine, h⟩ := d.unpin_fields as
  rw [h]
  rfl

@[simp] theorem Device.toStale_atRun (as : List BlockAddr) : (d.toStale as).atRun = d.atRun := by
  obtain ⟨table, scrub, joined, h⟩ := d.toStale_fields as
  rw [h]
  rfl

/-- A record that is removed leaves the pass-over list, and the run stays (R79, R138). -/
@[simp] theorem Device.removeRecord_atRun (r : RecordName) : (d.removeRecord r).atRun = d.atRun := rfl

/-! ### The work of each kind of request -/

/-- FIND, LIST, HOLD and RELEASE (R19, R85, R86). -/
@[simp] theorem Device.workFind_atRun (p : Port) (id : Nat) (ns : Byte) (key : Key) :
    (d.workFind p id ns key).atRun = d.atRun := by
  unfold Device.workFind
  split
  · simp
  · split <;> simp

@[simp] theorem Device.workList_atRun (p : Port) (id : Nat) (ns : Byte) (start : Key) (count : Byte) :
    (d.workList p id ns start count).atRun = d.atRun := by
  unfold Device.workList
  split
  · simp
  · split <;> simp

@[simp] theorem Device.workHold_atRun (p : Port) (id : Nat) (ns : Byte) (key : Key) :
    (d.workHold p id ns key).atRun = d.atRun := by
  unfold Device.workHold
  dsimp only
  split
  · simp
  · split <;> simp

@[simp] theorem Device.workRelease_atRun (p : Port) (id : Nat) (ns : Byte) (key : Key) :
    (d.workRelease p id ns key).atRun = d.atRun := by
  unfold Device.workRelease
  dsimp only
  split
  · simp
  · split <;> simp

/-- LOCK NAMESPACE, CONFIGURE and DEFINE NAMESPACE (R91, R165, R170). -/
@[simp] theorem Device.workLock_atRun (p : Port) (id : Nat) (ns : Byte) : (d.workLock p id ns).atRun = d.atRun := by
  unfold Device.workLock
  split
  · simp
  · split
    · simp
    · exact Device.complete_atRun ..

@[simp] theorem Device.workConfigure_atRun (p : Port) (id : Nat) (timeout : BitVec 16) (threshold mode : Byte)
    (spread : BitVec 16) (pa sa : Byte) :
    (d.workConfigure p id timeout threshold mode spread pa sa).atRun = d.atRun := by
  unfold Device.workConfigure
  split
  · simp
  · exact Device.complete_atRun ..

@[simp] theorem Device.workDefine_atRun (p : Port) (id : Nat) (ns enabled : Byte) (limit quota : BitVec 16)
    (mirrored early pr sr : Byte) :
    (d.workDefine p id ns enabled limit quota mirrored early pr sr).atRun = d.atRun := by
  unfold Device.workDefine
  split
  · simp
  · split
    · simp
    · exact Device.complete_atRun ..

/-- READ (R54). -/
theorem Device.readChunk_atRun (id : Nat) (w : ReadWork) : (d.readChunk id w).1.atRun = d.atRun := by
  unfold Device.readChunk
  split
  · rfl
  · exact d.atRun_foldl (fun d _ => d.queueRead_atRun ..) _

@[simp] theorem Device.endRead_atRun (id : Nat) (w : ReadWork) : (d.endRead id w).atRun = d.atRun := by
  unfold Device.endRead
  split <;> simp

@[simp] theorem Device.workRead_atRun (p : Port) (id : Nat) (ns : Byte) (key : Key) (offset length : BitVec 16) :
    (d.workRead p id ns key offset length).atRun = d.atRun := by
  unfold Device.workRead Device.startRead
  dsimp only
  split
  · simp
  · split
    · simp
    · split <;> simp [Device.readChunk_atRun]

/-- CHECK (R55). -/
theorem Device.checkChunk_atRun (id : Nat) (pages : List Nat) (x : Device × CheckWork) (i : Nat) :
    (Device.checkChunk id pages x i).1.atRun = x.1.atRun := by
  unfold Device.checkChunk
  dsimp only
  split
  · rfl
  · split
    · rfl
    · exact x.1.atRun_foldl (fun d _ => d.queueRead_atRun ..) _

@[simp] theorem Device.checkOn_atRun (id : Nat) (w : CheckWork) : (d.checkOn id w).atRun = d.atRun := by
  unfold Device.checkOn
  dsimp only
  split
  · rfl
  · split
    · simp
    · split <;> simp

@[simp] theorem Device.workCheck_atRun (p : Port) (id : Nat) (ns : Byte) (key : Key) :
    (d.workCheck p id ns key).atRun = d.atRun := by
  unfold Device.workCheck Device.startCheck
  dsimp only
  split
  · simp
  · split
    · simp
    · rw [Device.checkOn_atRun, Device.atRun_foldlFst (Device.checkChunk_atRun id _), Device.checkChunk_atRun]
      simp

/-- A context is counted into and out of (R43). -/
@[simp] theorem Device.enterContext_atRun (i : SlotIndex) : (d.enterContext i).atRun = d.atRun := by
  unfold Device.enterContext
  split <;> rfl

@[simp] theorem Device.leaveContext_atRun (i : SlotIndex) : (d.leaveContext i).atRun = d.atRun := by
  unfold Device.leaveContext
  split <;> rfl

@[simp] theorem Device.completeNaming_atRun (i : SlotIndex) (id : Nat) (r : Result) (reply : List Byte) :
    (d.completeNaming i id r reply).atRun = d.atRun := by
  unfold Device.completeNaming
  simp

/-- OPEN UPDATE (R29). -/
@[simp] theorem Device.openContext_atRun (p : Port) (i : SlotIndex) (r : RecordName) (length : Nat) :
    (d.openContext p i r length).atRun = d.atRun := by
  unfold Device.openContext
  dsimp only
  split <;> simp

@[simp] theorem Device.workOpen_atRun (p : Port) (id : Nat) (ns : Byte) (key : Key) (length : BitVec 16) (mode : Byte) :
    (d.workOpen p id ns key length mode).atRun = d.atRun := by
  unfold Device.workOpen
  split
  · simp
  · split <;> simp

/-- PUT CHUNK (R30, R31). -/
@[simp] theorem Device.workPut_atRun (p : Port) (id : Nat) (handle : BitVec 16) (index : Byte) (data : List Byte) :
    (d.workPut p id handle index data).atRun = d.atRun := by
  unfold Device.workPut Device.beginPut
  dsimp only
  split
  · simp
  · split
    · simp
    · split
      · simp
      · split <;> simp

/-- COMMIT (R36). -/
@[simp] theorem Device.beginCommit_atRun (i : SlotIndex) (c : Ctx) (id : Nat) :
    (d.beginCommit i c id).atRun = d.atRun := by
  unfold Device.beginCommit
  dsimp only
  split <;> simp

@[simp] theorem Device.workCommit_atRun (p : Port) (id : Nat) (handle : BitVec 16) :
    (d.workCommit p id handle).atRun = d.atRun := by
  unfold Device.workCommit
  dsimp only
  split
  · simp
  · split
    · simp
    · split
      · simp
      · split <;> simp

/-- ABANDON (R41, R42). -/
@[simp] theorem Device.tryFinishAbandon_atRun (i : SlotIndex) : (d.tryFinishAbandon i).atRun = d.atRun := by
  unfold Device.tryFinishAbandon
  dsimp only
  split
  · rfl
  · split
    · rw [Device.atRun_foldl _ fun d _ => d.complete_atRun ..]
      split <;> simp
    · rfl

@[simp] theorem Device.putEnd_atRun (id : Nat) (w : PutWork) : (d.putEnd id w).atRun = d.atRun := by
  unfold Device.putEnd
  dsimp only
  split
  · rfl
  · split
    · rfl
    · split
      · simp
      · split <;> simp

@[simp] theorem Device.cutPut_atRun (id : Nat) : (d.cutPut id).atRun = d.atRun := by
  unfold Device.cutPut
  split <;> simp

@[simp] theorem Device.beginAbandon_atRun (i : SlotIndex) : (d.beginAbandon i).atRun = d.atRun := by
  unfold Device.beginAbandon
  dsimp only
  split
  · rfl
  · rw [Device.tryFinishAbandon_atRun, Device.atRun_foldl _ fun d _ => d.cutPut_atRun _]
    rfl

@[simp] theorem Device.workAbandon_atRun (p : Port) (id : Nat) (handle : BitVec 16) :
    (d.workAbandon p id handle).atRun = d.atRun := by
  unfold Device.workAbandon
  dsimp only
  split
  · simp
  · split
    · simp
    · split
      · simp
      · split <;> simp

/-- RETIRE, RESTORE and FREEZE (R65, R68): a mark relocation is not the run's. -/
@[simp] theorem Device.startMarkReloc_atRun (id : Nat) (kind : MarkKind) (e : Entry) :
    (d.startMarkReloc id kind e).atRun = d.atRun := by
  unfold Device.startMarkReloc Device.startReloc Device.setReloc
  dsimp only
  split <;> simp

@[simp] theorem Device.beginMark_atRun (id : Nat) (kind : MarkKind) (e : Entry) :
    (d.beginMark id kind e).atRun = d.atRun := by
  unfold Device.beginMark
  dsimp only
  split
  · split <;> simp
  · split <;> simp

@[simp] theorem Device.workRetire_atRun (p : Port) (id : Nat) (ns : Byte) (key : Key) :
    (d.workRetire p id ns key).atRun = d.atRun := by
  unfold Device.workRetire
  dsimp only
  split
  · simp
  · split <;> simp

@[simp] theorem Device.workRestore_atRun (p : Port) (id : Nat) (ns : Byte) (key : Key) :
    (d.workRestore p id ns key).atRun = d.atRun := by
  unfold Device.workRestore
  dsimp only
  split
  · simp
  · split
    · simp
    · split <;> simp

@[simp] theorem Device.workFreeze_atRun (p : Port) (id : Nat) (ns : Byte) (key : Key) :
    (d.workFreeze p id ns key).atRun = d.atRun := by
  unfold Device.workFreeze
  dsimp only
  split
  · simp
  · split
    · simp
    · split
      · simp
      · split <;> simp

/-- PURGE (R75, R76). -/
@[simp] theorem Device.beginErase_atRun (w : PurgeWork) : (d.beginErase w).atRun = d.atRun := by
  unfold Device.beginErase
  split <;> rfl

@[simp] theorem Device.purgeMirrorMark_atRun (w : PurgeWork) : (d.purgeMirrorMark w).atRun = d.atRun := by
  unfold Device.purgeMirrorMark
  split
  · simp
  · split
    · simp
    · rfl

@[simp] theorem Device.beginPurgeRecord_atRun (w : PurgeWork) : (d.beginPurgeRecord w).atRun = d.atRun := by
  unfold Device.beginPurgeRecord
  split
  · simp
  · split
    · simp
    · split
      · simp
      · rfl

@[simp] theorem Device.workPurge_atRun (p : Port) (id : Nat) : (d.workPurge p id).atRun = d.atRun := by
  unfold Device.workPurge Device.startPurge
  dsimp only
  split
  · simp
  · split
    · simp
    · rw [Device.beginPurgeRecord_atRun, Device.setWork_atRun,
        Device.atRun_foldl _ fun d _ => d.modEntry_atRun ..]

/-- COMMIT LAYOUT (R167). -/
@[simp] theorem Device.workCommitLayout_atRun (p : Port) (id : Nat) : (d.workCommitLayout p id).atRun = d.atRun := by
  unfold Device.workCommitLayout
  split
  · simp
  · rfl

/-- MAINTAIN with a run in progress is refused (R135). -/
theorem Device.workMaintain_atRun {d : Device} (busy : d.maint.run ≠ .idle) (p : Port) (id : Nat) :
    (d.workMaintain p id).atRun = d.atRun := by
  unfold Device.workMaintain
  split
  · simp
  · next pass => cases h : d.phase.notReady <;> simp [firstFailure, h, busy] at pass

end

/-! ### The interruption -/

section
variable {d : Device} {r : Reloc} {cause : RelocEnd}

/-- The end of a relocation of the run waits for its jobs, or is its end, and the run goes on as it was (R143). -/
theorem Device.endReloc_maint (d : Device) (r : Reloc) (cause : RelocEnd) :
    (d.endReloc .maint r cause).maint.run = d.maint.run
      ∧ ∀ r', (d.endReloc .maint r cause).maint.reloc = some r' → r'.ending = some cause := by
  unfold Device.endReloc Device.relocWait
  dsimp only
  split
  · unfold Device.finishReloc
    refine ⟨?_, fun r' h => nomatch h⟩
    have stale := ((d.withdrawDraws (.reloc .maint)).withdrawGrants (Asker.isReloc .maint)).toStale_atRun
      (r.blocks.map (·.addr))
    cases cause <;> exact congrArg Prod.fst stale
  · refine ⟨rfl, fun r' h => ?_⟩
    obtain rfl := Option.some.inj h
    rfl

/-- A run without a relocation has none to abandon (R143). -/
theorem Device.abandonMaintReloc_none (none_ : d.maint.reloc = none) : d.abandonMaintReloc cause = d := by
  unfold Device.abandonMaintReloc
  rw [none_]

/-- A relocation that is ending, or whose commit record has been queued, is not abandoned (R143). -/
theorem Device.abandonMaintReloc_stays (reloc : d.maint.reloc = some r)
    (stays : r.ending.isSome ∨ r.stage = .commitQueued ∨ r.stage = .mirrorCommit) : d.abandonMaintReloc cause = d := by
  unfold Device.abandonMaintReloc
  rw [reloc]
  exact if_pos stays

/-- Any other relocation of the run is abandoned (R143). -/
theorem Device.abandonMaintReloc_ends (reloc : d.maint.reloc = some r)
    (ends : ¬(r.ending.isSome ∨ r.stage = .commitQueued ∨ r.stage = .mirrorCommit)) :
    d.abandonMaintReloc cause = d.endReloc .maint r cause := by
  unfold Device.abandonMaintReloc
  rw [reloc]
  exact if_neg ends

/-- A relocation that is abandoned is ending where it is left (R143). -/
theorem Device.abandonMaintReloc_ending (reloc : d.maint.reloc = some r)
    (ends : ¬(r.ending.isSome ∨ r.stage = .commitQueued ∨ r.stage = .mirrorCommit)) (r' : Reloc)
    (left : (d.abandonMaintReloc cause).maint.reloc = some r') : r'.ending = some cause := by
  rw [Device.abandonMaintReloc_ends reloc ends] at left
  exact (d.endReloc_maint r cause).2 r' left

/-- The abandonment of its relocation leaves the run state alone. -/
theorem Device.abandonMaintReloc_run (d : Device) (cause : RelocEnd) :
    (d.abandonMaintReloc cause).maint.run = d.maint.run := by
  unfold Device.abandonMaintReloc
  split
  · rfl
  · split
    · rfl
    · exact (d.endReloc_maint _ cause).1

/-- No run in progress is not interrupted. -/
theorem Device.interruptRun_other (other : d.maint.run ≠ .running) : d.interruptRun = d := by
  unfold Device.interruptRun
  exact if_neg other

/-- A run in its SCRUB part at level 3 goes on in FOREGROUND (R145). -/
theorem Device.interruptRun_foreground (running : d.maint.run = .running)
    (scrub : d.pool.level = 3 ∧ d.inScrubPart = true) :
    d.interruptRun = { d with maint := { d.maint with run := .foreground } } := by
  unfold Device.interruptRun
  rw [if_pos running, if_pos scrub]

/-- Any other run winds down (R144). -/
theorem Device.interruptRun_stopping (running : d.maint.run = .running)
    (other : ¬(d.pool.level = 3 ∧ d.inScrubPart = true)) :
    d.interruptRun = ({ d with maint := { d.maint with run := .stopping } }).abandonMaintReloc .interrupted := by
  unfold Device.interruptRun
  rw [if_pos running, if_neg other]

end

/-- A row whose work keeps the run takes its request and then interrupts the run. -/
theorem State.takes_atRun {s : State} {p : Port} {tag : Byte} {body : Req} (h : s.Takes p tag body)
    (work : Device → Port → Nat → Req → Device)
    (keeps : s.maint.run ≠ .idle →
      (work (s.takeIn p { tag := tag, body := body }) p s.newFlightId body).atRun = s.atRun) :
    ∃ after : Device, (Host.Outcome.next { s with toDevice := s.toDevice.takes body.kind work }
        : Host.Outcome State Fault Refusal) = .next { s with toDevice := s.takeEnd after }
      ∧ (s.maint.run ≠ .idle → after.maint.run = s.maint.run ∧ after.maint.reloc = s.maint.reloc) :=
  ⟨_, State.takes_next h work, fun busy => Prod.mk.inj (keeps busy)⟩

/-- Settles O17: the run is interrupted after the work of the request, which leaves the run as it was. -/
theorem aTakeInterruptsTheRunInProgress : Obligations.ATakeInterruptsTheRunInProgress := by
  unfold Obligations.ATakeInterruptsTheRunInProgress
  refine ⟨fun d => ⟨d.interruptRun_other,
    fun running level scrub => Device.interruptRun_foreground running ⟨level, scrub⟩,
    fun running other => ?_⟩, fun d after => ⟨fun idle => ?_, fun busy => ?_⟩, fun s p tag body h notReset => ?_⟩
  · rw [Device.interruptRun_stopping running other]
    refine ⟨Device.abandonMaintReloc_run _ _, fun none_ => Device.abandonMaintReloc_none none_,
      fun r reloc queued => Device.abandonMaintReloc_stays reloc (.inr queued),
      fun r reloc notQueued notMirror ending => ?_⟩
    exact Device.abandonMaintReloc_ending reloc (by simp [notQueued, notMirror, ending])
  · unfold Device.takeEnd
    rw [if_pos idle]
  · unfold Device.takeEnd
    rw [if_neg busy]
  · cases body with
    | reset => exact absurd rfl notReset
    | find ns key => exact State.takes_atRun h Device.doFind fun _ => by simp [Device.doFind]
    | list ns start count => exact State.takes_atRun h Device.doList fun _ => by simp [Device.doList]
    | read ns key offset length => exact State.takes_atRun h Device.doRead fun _ => by simp [Device.doRead]
    | check ns key => exact State.takes_atRun h Device.doCheck fun _ => by simp [Device.doCheck]
    | openUpdate ns key length mode => exact State.takes_atRun h Device.doOpen fun _ => by simp [Device.doOpen]
    | putChunk handle index data => exact State.takes_atRun h Device.doPut fun _ => by simp [Device.doPut]
    | commit handle => exact State.takes_atRun h Device.doCommit fun _ => by simp [Device.doCommit]
    | abandon handle => exact State.takes_atRun h Device.doAbandon fun _ => by simp [Device.doAbandon]
    | retire ns key => exact State.takes_atRun h Device.doRetire fun _ => by simp [Device.doRetire]
    | restore ns key => exact State.takes_atRun h Device.doRestore fun _ => by simp [Device.doRestore]
    | purge => exact State.takes_atRun h Device.doPurge fun _ => by simp [Device.doPurge]
    | hold ns key => exact State.takes_atRun h Device.doHold fun _ => by simp [Device.doHold]
    | release ns key => exact State.takes_atRun h Device.doRelease fun _ => by simp [Device.doRelease]
    | freeze ns key => exact State.takes_atRun h Device.doFreeze fun _ => by simp [Device.doFreeze]
    | lockNamespace ns => exact State.takes_atRun h Device.doLock fun _ => by simp [Device.doLock]
    | configure timeout threshold mode spread pa sa =>
      exact State.takes_atRun h Device.doConfigure fun _ => by simp [Device.doConfigure]
    | maintain =>
      refine State.takes_atRun h Device.doMaintain fun busy => ?_
      have busy' : (s.takeIn p { tag := tag, body := .maintain }).maint.run ≠ .idle := by
        rwa [Device.takeIn_maint]
      exact (Device.workMaintain_atRun busy' p _).trans (Device.takeIn_atRun ..)
    | health => exact State.takes_atRun h Device.doHealth fun _ => by simp [Device.doHealth, Device.workHealth]
    | identify => exact State.takes_atRun h Device.doIdentify fun _ => by simp [Device.doIdentify, Device.workIdentify]
    | defineNamespace ns enabled limit quota mirrored early pr sr =>
      exact State.takes_atRun h Device.doDefine fun _ => by simp [Device.doDefine]
    | commitLayout => exact State.takes_atRun h Device.doCommitLayout fun _ => by simp [Device.doCommitLayout]

end Sys2Proof.Machine

/-!
PORT RESET (R179): what the abandonments of a port's contexts leave of contexts, entries, ports and requests in flight,
one after another and all together, and the settling of O15.
-/

namespace Sys2Proof.Machine

/-! ### What an abandonment leaves, whatever the names of the requests in flight -/

/-- How a device may come from another while contexts are abandoned: no context comes and none becomes OPEN, no entry
comes and none changes its hold, no notice is posted, and nothing is posted to a port whose requests are discarded. -/
structure Device.Winds (d d' : Device) : Prop where
  ctx : ∀ i c', d'.ctx? i = some c' → ∃ c, d.ctx? i = some c ∧ c'.owner = c.owner ∧ (c'.state = .open → c.state = .open)
  hold : ∀ r e', d'.entry? r = some e' → ∃ e, d.entry? r = some e ∧ e'.hold = e.hold
  notices : ∀ p, (d'.port p).notices = (d.port p).notices
  flights : ∀ f' ∈ d'.flights, ∃ f ∈ d.flights, f'.port = f.port ∧ f'.discard = f.discard
  posted : ∀ p, (∀ f ∈ d.flights, f.port = p → f.discard = true) → (d'.port p).completions = (d.port p).completions

section
variable {d₀ d d' : Device} {i : SlotIndex} {c : Ctx}

/-- Nothing done. -/
theorem Device.Winds.refl (d : Device) : d.Winds d where
  ctx := fun _ c' h => ⟨c', h, rfl, id⟩
  hold := fun _ e' h => ⟨e', h, rfl⟩
  notices := fun _ => rfl
  flights := fun f' h => ⟨f', h, rfl, rfl⟩
  posted := fun _ _ => rfl

/-- A port whose requests in flight are all discarded stays one. -/
theorem Device.Winds.discards (h : d.Winds d') {p : Port} (all : ∀ f ∈ d.flights, f.port = p → f.discard = true) :
    ∀ f ∈ d'.flights, f.port = p → f.discard = true := fun f' hf own => by
  obtain ⟨f, inside, port, discard⟩ := h.flights f' hf
  rw [discard]
  exact all f inside (port ▸ own)

/-- One thing after another. -/
theorem Device.Winds.trans (h : d₀.Winds d) (h' : d.Winds d') : d₀.Winds d' where
  ctx := fun i c'' hc => by
    obtain ⟨c', hc', owner', state'⟩ := h'.ctx i c'' hc
    obtain ⟨c, hc, owner, state⟩ := h.ctx i c' hc'
    exact ⟨c, hc, owner'.trans owner, fun o => state (state' o)⟩
  hold := fun r e'' he => by
    obtain ⟨e', he', hold'⟩ := h'.hold r e'' he
    obtain ⟨e, he, hold⟩ := h.hold r e' he'
    exact ⟨e, he, hold'.trans hold⟩
  notices := fun p => (h'.notices p).trans (h.notices p)
  flights := fun f'' hf => by
    obtain ⟨f', hf', port', discard'⟩ := h'.flights f'' hf
    obtain ⟨f, hf, port, discard⟩ := h.flights f' hf'
    exact ⟨f, hf, port'.trans port, discard'.trans discard⟩
  posted := fun p all => (h'.posted p (h.discards all)).trans (h.posted p all)

/-- A fold of such steps is one. -/
theorem Device.Winds.foldl {α : Type} {f : Device → α → Device} (hf : ∀ (d : Device) x, d.Winds (f d x)) (xs : List α)
    (d : Device) : d.Winds (xs.foldl f d) := by
  induction xs generalizing d with
  | nil => exact .refl d
  | cons x xs ih => exact (hf d x).trans (ih _)

/-- What touches the contexts, the directory and the pool alone. -/
theorem Device.Winds.inside (flights : d'.flights = d.flights) (port : ∀ p, d'.port p = d.port p)
    (ctx : ∀ i c', d'.ctx? i = some c' →
      ∃ c, d.ctx? i = some c ∧ c'.owner = c.owner ∧ (c'.state = .open → c.state = .open))
    (hold : ∀ r e', d'.entry? r = some e' → ∃ e, d.entry? r = some e ∧ e'.hold = e.hold) : d.Winds d' where
  ctx := ctx
  hold := hold
  notices := fun p => by rw [port]
  flights := fun f' h => ⟨f', flights ▸ h, rfl, rfl⟩
  posted := fun p _ => by rw [port]

/-- A context that is set. -/
theorem Device.setCtx_winds (hc : d.ctx? i = some c) {c' : Ctx} (owner : c'.owner = c.owner)
    (state : c'.state = .open → c.state = .open) : d.Winds (d.setCtx i c') := by
  refine .inside rfl (fun p => by cases p <;> rfl) (fun k x hx => ?_) fun r e h => ⟨e, h, rfl⟩
  by_cases own : k = i
  · subst own
    rw [Device.ctx?_setCtx_self] at hx
    obtain rfl := Option.some.inj hx
    exact ⟨c, hc, owner, state⟩
  · unfold Device.ctx? at hx
    rw [Device.slots_setCtx_other _ own] at hx
    exact ⟨x, hx, rfl, id⟩

/-- A context that is freed. -/
theorem Device.freeSlot_winds (d : Device) (i : SlotIndex) : d.Winds (d.freeSlot i) := by
  refine .inside rfl (fun p => by cases p <;> rfl) (fun k x hx => ?_) fun r e h => ⟨e, h, rfl⟩
  unfold Device.ctx? at hx
  by_cases own : k = i
  · subst own
    rw [Device.slots_freeSlot_self] at hx
    nomatch hx
  · rw [Device.slots_freeSlot_other _ own] at hx
    exact ⟨x, hx, rfl, id⟩

/-- A request that is completed. -/
theorem Device.complete_winds (d : Device) (id : Nat) (r : Result) (reply : List Byte) :
    d.Winds (d.complete id r reply) where
  ctx := fun i c' h => by
    unfold Device.ctx? at h ⊢
    rw [Device.complete_slots] at h
    exact ⟨c', h, rfl, fun o => o⟩
  hold := fun r e' h => ⟨e', by rwa [Device.entry?_congr (Device.complete_dir ..)] at h, rfl⟩
  notices := fun p => by
    unfold Device.complete
    cases d.flight? id with
    | none => rfl
    | some f =>
      dsimp only
      split
      · cases p <;> rfl
      · rw [Device.setPort_port]
        split
        next own => subst own; cases f.port <;> rfl
        next => cases p <;> rfl
  flights := fun f' h => by
    rw [Device.complete_flights] at h
    exact ⟨f', (List.mem_filter.mp h).1, rfl, rfl⟩
  posted := fun p all => by
    rw [Device.complete_completions]
    cases found : d.flight? id with
    | none => simp
    | some f =>
      have none_ : f.postsTo p = false := by
        unfold Flight.postsTo
        by_cases own : f.port = p
        · simp [all f (Device.flight?_eq_some found).1 own]
        · simp [own]
      simp [none_]

/-- A request whose work is replaced. -/
theorem Device.setWork_winds (d : Device) (id : Nat) (w : Work) : d.Winds (d.setWork id w) where
  ctx := fun _ c' h => ⟨c', h, rfl, fun o => o⟩
  hold := fun _ e' h => ⟨e', h, rfl⟩
  notices := fun p => by cases p <;> rfl
  flights := fun f' h => by
    obtain ⟨f, hf, rfl⟩ := List.mem_map.mp h
    refine ⟨f, hf, ?_⟩
    split <;> exact ⟨rfl, rfl⟩
  posted := fun p _ => by cases p <;> rfl

/-- Grants that are withdrawn. -/
theorem Device.withdrawGrants_winds (d : Device) (f : Asker → Bool) : d.Winds (d.withdrawGrants f) :=
  .inside rfl (fun p => by cases p <;> rfl) (fun _ c' h => ⟨c', h, rfl, id⟩) fun _ e' h => ⟨e', h, rfl⟩

/-- Blocks that become STALE. -/
theorem Device.toStale_winds (d : Device) (as : List BlockAddr) : d.Winds (d.toStale as) := by
  obtain ⟨slots, flights, dir, -, -, -, -, port⟩ := d.toStale_same as
  refine .inside flights port (fun i c' h => ?_) fun r e' h => ⟨e', by rwa [Device.entry?_congr dir] at h, rfl⟩
  unfold Device.ctx? at h ⊢
  rw [slots] at h
  exact ⟨c', h, rfl, id⟩

/-- The entry of a context that is abandoned. -/
theorem Device.abandonEntry_winds (d : Device) (c : Ctx) : d.Winds (d.abandonEntry c) := by
  obtain ⟨slots, flights, -, -, -, -, -, port⟩ := d.abandonEntry_same c
  refine .inside flights port (fun i c' h => ?_) fun r e' h => ?_
  · unfold Device.ctx? at h ⊢
    rw [slots] at h
    exact ⟨c', h, rfl, id⟩
  · unfold Device.abandonEntry at h
    cases mode : c.mode with
    | create =>
      rw [mode] at h
      by_cases own : r = c.name
      · subst own
        rw [Device.entry?_removeRecord_self] at h
        nomatch h
      · rw [Device.entry?_removeRecord_other _ own] at h
        exact ⟨e', h, rfl⟩
    | replace =>
      rw [mode] at h
      dsimp only at h
      rw [Device.entry?_modEntry, Option.map_eq_some_iff] at h
      obtain ⟨e, he, rfl⟩ := h
      refine ⟨e, he, ?_⟩
      split <;> rfl

/-- A context that a request leaves. -/
theorem Device.leaveContext_winds (d : Device) (i : SlotIndex) : d.Winds (d.leaveContext i) := by
  unfold Device.leaveContext
  split
  · exact .refl d
  next c hc => exact Device.setCtx_winds hc rfl fun o => o

/-- A request naming a context that completes. -/
theorem Device.completeNaming_winds (d : Device) (i : SlotIndex) (id : Nat) (r : Result) (reply : List Byte) :
    d.Winds (d.completeNaming i id r reply) :=
  (d.leaveContext_winds i).trans (Device.complete_winds ..)

/-- The end of an abandonment. -/
theorem Device.tryFinishAbandon_winds (d : Device) (i : SlotIndex) : d.Winds (d.tryFinishAbandon i) := by
  cases hc : d.ctx? i with
  | none =>
    unfold Device.tryFinishAbandon
    rw [hc]
    exact .refl d
  | some c =>
    by_cases finish : c.state = .abandoning ∧ d.putsOf i = []
    · rw [Device.tryFinishAbandon_done hc finish.1 finish.2]
      unfold Device.givenUp
      exact (((d.toStale_winds c.blocks).trans (Device.abandonEntry_winds _ c)).trans (Device.freeSlot_winds _ i)).trans
        (Device.Winds.foldl (fun d id => d.complete_winds id .ok []) _ _)
    · unfold Device.tryFinishAbandon
      rw [hc]
      dsimp only
      rw [if_neg finish]
      exact .refl d

/-- The end of a put. -/
theorem Device.putEnd_winds (d : Device) (id : Nat) (w : PutWork) : d.Winds (d.putEnd id w) := by
  unfold Device.putEnd
  split
  · exact d.setWork_winds ..
  · split
    · exact d.setWork_winds ..
    · dsimp only
      refine (d.withdrawGrants_winds (Asker.isPut id)).trans ?_
      split
      · exact Device.complete_winds ..
      next c hc =>
        split
        · refine .trans ?_ (Device.completeNaming_winds ..)
          refine .trans (Device.toStale_winds _ _) (Device.setCtx_winds (c := c) ?_ rfl fun o => o)
          unfold Device.ctx? at hc ⊢
          rwa [(Device.toStale_same _ _).1]
        · refine .trans ?_ (Device.tryFinishAbandon_winds ..)
          refine .trans ?_ (Device.completeNaming_winds ..)
          exact Device.setCtx_winds hc rfl fun o => o

/-- A put that is cut short. -/
theorem Device.cutPut_winds (d : Device) (id : Nat) : d.Winds (d.cutPut id) := by
  unfold Device.cutPut
  split
  · exact (d.withdrawGrants_winds _).trans (Device.putEnd_winds ..)
  · exact .refl d

/-- An abandonment, from its context's state on. -/
theorem Device.beginAbandon_winds_from (hc : d.ctx? i = some c) :
    (d.setCtx i c.abandoned).Winds (d.beginAbandon i) := by
  unfold Device.beginAbandon
  rw [hc]
  exact (Device.Winds.foldl Device.cutPut_winds _ _).trans (Device.tryFinishAbandon_winds ..)

/-- An abandonment. -/
theorem Device.beginAbandon_winds (d : Device) (i : SlotIndex) : d.Winds (d.beginAbandon i) := by
  cases hc : d.ctx? i with
  | none =>
    unfold Device.beginAbandon
    rw [hc]
    exact .refl d
  | some c =>
    exact (Device.setCtx_winds (c' := c.abandoned) hc rfl (fun o => nomatch o)).trans
      (Device.beginAbandon_winds_from hc)

/-- A context that is abandoned is OPEN no more. -/
theorem Device.beginAbandon_notOpen (d : Device) (i : SlotIndex) (c' : Ctx)
    (h : (d.beginAbandon i).ctx? i = some c') (was : (d.ctx? i).isSome) : c'.state ≠ .open := by
  obtain ⟨c, hc⟩ := Option.isSome_iff_exists.mp was
  obtain ⟨x, hx, -, state⟩ := (Device.beginAbandon_winds_from hc).ctx i c' h
  rw [Device.ctx?_setCtx_self] at hx
  obtain rfl := Option.some.inj hx
  exact fun isOpen => nomatch state isOpen

/-- One context of a port reset: it is abandoned if it is an OPEN one of the port (R46). -/
def Device.abandonIfOwned (p : Port) (d : Device) (i : SlotIndex) : Device :=
  match d.ctx? i with
  | none => d
  | some c => if c.owner = p ∧ c.state = .open then d.beginAbandon i else d

/-- One context of a port reset. -/
theorem Device.abandonIfOwned_winds (p : Port) (d : Device) (i : SlotIndex) : d.Winds (d.abandonIfOwned p i) := by
  unfold Device.abandonIfOwned
  split
  · exact .refl d
  · split
    · exact d.beginAbandon_winds i
    · exact .refl d

/-- No context of a port that its reset has come to is OPEN. -/
theorem Device.abandonIfOwned_notOpen (p : Port) (is : List SlotIndex) (d : Device) :
    ∀ i ∈ is, ∀ c', (is.foldl (Device.abandonIfOwned p) d).ctx? i = some c' → c'.owner = p → c'.state ≠ .open := by
  induction is generalizing d with
  | nil => nofun
  | cons k is ih =>
    intro i hi c' hc' own isOpen
    rcases List.mem_cons.mp hi with rfl | later
    · obtain ⟨x, hx, owner, state⟩ :=
        (Device.Winds.foldl (Device.abandonIfOwned_winds p) is (d.abandonIfOwned p i)).ctx i c' hc'
      have open_ := state isOpen
      unfold Device.abandonIfOwned at hx
      split at hx
      next none_ => rw [none_] at hx; nomatch hx
      next c hc =>
        split at hx
        · exact d.beginAbandon_notOpen i x hx (by rw [hc]; rfl) open_
        next other =>
          obtain rfl := Option.some.inj (hc.symm.trans hx)
          exact other ⟨owner ▸ own, open_⟩
    · exact ih _ i later c' hc' own isOpen

end

/-! ### One abandonment, with the requests in flight named apart -/

/-- A put that is cut short stays a put of its context, with its jobs, and no other request becomes one. -/
theorem Flight.cutShort_kind (i k : SlotIndex) (f : Flight) :
    (f.cutShort i).isPutOf k = f.isPutOf k ∧ (f.cutShort i).busyPut k = f.busyPut k
      ∧ ((f.cutShort i).work = .abandon k ↔ f.work = .abandon k) := by
  unfold Flight.cutShort
  cases work : f.work with
  | put w =>
    dsimp only
    split
    · simp [Flight.isPutOf, Flight.busyPut, work]
      rfl
    · simp [work]
  | _ => exact ⟨rfl, rfl, by rw [work]⟩

/-- A request that is no put of a context is not cut short with it. -/
theorem Flight.cutShort_other {i : SlotIndex} {f : Flight} (other : f.isPutOf i = false) : f.cutShort i = f := by
  unfold Flight.isPutOf at other
  unfold Flight.cutShort
  cases work : f.work with
  | put w =>
    rw [work] at other
    exact if_neg (of_decide_eq_false other)
  | _ => rfl

/-- A part after the abandonment of a context (R41, R42, O26). -/
structure Device.Abandoned (i : SlotIndex) (c : Ctx) (d d' : Device) : Prop where
  flights : d'.flights = (d.flights.filter fun f =>
    !f.idlePut i && (d.flights.any (·.busyPut i) || decide (f.work ≠ .abandon i))).map (·.cutShort i)
  silent : ∀ p, (∀ f ∈ d.flights, f.postsTo p = true → f.isPutOf i = false ∧ f.work ≠ .abandon i) →
    (d'.port p).completions = (d.port p).completions
  others : ∀ k, k ≠ i → d'.slots[k] = d.slots[k]
  entries : ∀ r, r ≠ c.name → d'.entry? r = d.entry? r
  going : d.flights.any (·.busyPut i) = true →
    (∃ c', d'.slots[i] = { seq := d.slots[i].seq, ctx := some c' } ∧ c'.state = .abandoning ∧ c'.owner = c.owner
      ∧ c'.name = c.name ∧ c'.chunks = c.chunks ∧ c'.present = c.present)
    ∧ d'.entry? c.name = d.entry? c.name ∧ ∀ a, d'.blockState a = d.blockState a
  gone : d.flights.any (·.busyPut i) = false →
    d'.slots[i] = { seq := d.slots[i].seq + 1, ctx := none }
    ∧ (c.mode = .create → d'.entry? c.name = none)
    ∧ (c.mode = .replace → d'.entry? c.name = (d.entry? c.name).map fun e => { e with busy := .none })
    ∧ ∀ a, d'.blockState a = if a ∈ c.blocks ∧ d.blockState a = some .allocated then some .stale else d.blockState a

section
variable {d d' : Device} {i : SlotIndex} {c : Ctx}

/-- A put of a context with a job, by its work. -/
theorem Flight.busyPut_iff {f : Flight} :
    f.busyPut i = true ↔ ∃ w, f.work = .put w ∧ w.slot = i ∧ w.hasJob = true := by
  unfold Flight.busyPut
  cases f.work <;> simp

/-- What the abandonment of a context leaves (O26). -/
theorem Device.beginAbandon_abandoned (named : d.FlightsNamed) (hc : d.ctx? i = some c) :
    Device.Abandoned i c d (d.beginAbandon i) := by
  have all := abandonmentGivesTheContextUp
  unfold Obligations.AbandonmentGivesTheContextUp at all
  obtain ⟨-, -, whole, -⟩ := all
  obtain ⟨completions, flights, -, others, entries, going, gone⟩ := whole d i c hc named
  have none_ {which : Flight → Bool} {p : Port} (off : ∀ f ∈ d.flights, f.postsTo p = true → which f = false) :
      (d.flights.filter fun f => which f && decide (f.port = p) && !f.discard) = [] := by
    refine List.filter_eq_nil_iff.mpr fun f hf on => ?_
    rw [Bool.and_assoc, Bool.and_eq_true] at on
    rw [off f hf on.2] at on
    nomatch on.1
  refine ⟨flights, fun p quiet => ?_, others, entries, fun busy => ?_, gone⟩
  · have puts := none_ (which := (·.idlePut i)) (p := p) fun f hf posts => by
      have other := (quiet f hf posts).1
      rw [Flight.isPutOf_eq, Bool.or_eq_false_iff] at other
      exact other.1
    have abandons := none_ (which := fun f => decide (f.work = .abandon i)) (p := p) fun f hf posts =>
      decide_eq_false (quiet f hf posts).2
    refine (completions p).trans ?_
    change (d.port p).completions
      ++ List.map _ (d.flights.filter fun f : Flight => f.idlePut i && decide (f.port = p) && !f.discard)
      ++ (if _ then [] else
        List.map _ (d.flights.filter fun f : Flight =>
          decide (f.work = Work.abandon i) && decide (f.port = p) && !f.discard)) = _
    rw [puts, abandons]
    simp
  · obtain ⟨slot, entry, blocks⟩ := going busy
    exact ⟨⟨_, slot, rfl, rfl, rfl, rfl, rfl⟩, entry, blocks⟩

/-- The requests left after an abandonment are named apart. -/
theorem Device.Abandoned.named (h : Device.Abandoned i c d d') (named : d.FlightsNamed) : d'.FlightsNamed := by
  unfold Device.FlightsNamed
  rw [h.flights, List.map_map]
  have ids : (fun f : Flight => f.id) ∘ Flight.cutShort i = fun f => f.id := funext fun f => (f.cutShort_same i).1
  rw [ids]
  exact named.sublist (List.filter_sublist.map _)

/-- A request that is left after an abandonment. -/
theorem Device.Abandoned.from (h : Device.Abandoned i c d d') {g : Flight} (hg : g ∈ d'.flights) :
    ∃ f ∈ d.flights, g = f.cutShort i := by
  rw [h.flights] at hg
  obtain ⟨f, hf, rfl⟩ := List.mem_map.mp hg
  exact ⟨f, (List.mem_filter.mp hf).1, rfl⟩

/-- A request that has nothing to do with a context stays in flight as the context is abandoned. -/
theorem Device.Abandoned.keeps (h : Device.Abandoned i c d d') {f : Flight} (hf : f ∈ d.flights)
    (other : f.isPutOf i = false) (not : f.work ≠ .abandon i) : f ∈ d'.flights := by
  rw [h.flights]
  have idle : f.idlePut i = false := by
    rw [Flight.isPutOf_eq, Bool.or_eq_false_iff] at other
    exact other.1
  refine List.mem_map.mpr ⟨f, List.mem_filter.mpr ⟨hf, ?_⟩, Flight.cutShort_other other⟩
  simp [idle, not]

/-- A put with a job stays in flight as its context is abandoned (R42). -/
theorem Device.Abandoned.cuts (h : Device.Abandoned i c d d') {f : Flight} (hf : f ∈ d.flights)
    (busy : f.busyPut i = true) : f.cutShort i ∈ d'.flights := by
  rw [h.flights]
  have any : d.flights.any (·.busyPut i) = true := List.any_eq_true.mpr ⟨f, hf, busy⟩
  refine List.mem_map.mpr ⟨f, List.mem_filter.mpr ⟨hf, ?_⟩, rfl⟩
  rw [any, Flight.not_idle_of_busy busy]
  rfl

/-- A block is left as it was, or has become STALE with the context (R41). -/
theorem Device.Abandoned.blocks (h : Device.Abandoned i c d d') (a : BlockAddr) :
    d'.blockState a = d.blockState a ∨ (d'.blockState a = some .stale ∧ d.blockState a = some .allocated
      ∧ d.flights.any (·.busyPut i) = false ∧ a ∈ c.blocks) := by
  rcases Bool.eq_false_or_eq_true (d.flights.any (·.busyPut i)) with busy | idle
  · exact .inl ((h.going busy).2.2 a)
  · rw [(h.gone idle).2.2.2 a]
    split
    next own => exact .inr ⟨rfl, own.2, idle, own.1⟩
    next => exact .inl rfl

/-- The puts of another context keep their jobs. -/
theorem Device.Abandoned.busy (h : Device.Abandoned i c d d') {k : SlotIndex} (other : k ≠ i) :
    d'.flights.any (·.busyPut k) = d.flights.any (·.busyPut k) := by
  rw [Bool.eq_iff_iff, List.any_eq_true, List.any_eq_true]
  constructor
  · rintro ⟨g, hg, busy⟩
    obtain ⟨f, hf, rfl⟩ := h.from hg
    exact ⟨f, hf, by rwa [(f.cutShort_kind i k).2.1] at busy⟩
  · rintro ⟨f, hf, busy⟩
    have put : f.isPutOf k = true := by rw [Flight.isPutOf_eq, busy, Bool.or_true]
    obtain ⟨w, work, slot⟩ := Flight.isPutOf_iff.mp put
    refine ⟨f, h.keeps hf (Bool.eq_false_of_not_eq_true fun mine => ?_) (by rw [work]; nofun), busy⟩
    obtain ⟨w', work', slot'⟩ := Flight.isPutOf_iff.mp mine
    rw [work] at work'
    obtain rfl := Work.put.inj work'
    exact other (slot.symm.trans slot')

end

/-! ### Several abandonments -/

/-- Whether a request in flight is a put of a context or an ABANDON of it. -/
def Flight.names (f : Flight) (i : SlotIndex) : Prop := f.isPutOf i = true ∨ f.work = .abandon i

/-- A part after several contexts have been abandoned, one after another (R46). -/
structure Device.AllAbandoned (is : List SlotIndex) (d d' : Device) : Prop where
  others : ∀ k, k ∉ is → d'.slots[k] = d.slots[k]
  going : ∀ i ∈ is, ∀ c, d.ctx? i = some c → d.flights.any (·.busyPut i) = true →
    ∃ c', d'.slots[i] = { seq := d.slots[i].seq, ctx := some c' } ∧ c'.state = .abandoning ∧ c'.owner = c.owner
      ∧ c'.name = c.name ∧ c'.chunks = c.chunks ∧ c'.present = c.present
  gone : ∀ i ∈ is, d.flights.any (·.busyPut i) = false → d'.slots[i] = { seq := d.slots[i].seq + 1, ctx := none }
  entries : ∀ r, (∀ i ∈ is, ∀ c, d.ctx? i = some c → c.name ≠ r) → d'.entry? r = d.entry? r
  entry : ∀ i ∈ is, ∀ c, d.ctx? i = some c → (∀ k ∈ is, k ≠ i → ∀ x, d.ctx? k = some x → x.name ≠ c.name) →
    (d.flights.any (·.busyPut i) = true → d'.entry? c.name = d.entry? c.name)
    ∧ (d.flights.any (·.busyPut i) = false → c.mode = .create → d'.entry? c.name = none)
    ∧ (d.flights.any (·.busyPut i) = false → c.mode = .replace →
        d'.entry? c.name = (d.entry? c.name).map fun e => { e with busy := .none })
  stale : ∀ a, d.blockState a = some .allocated →
    (∃ i ∈ is, ∃ c, d.ctx? i = some c ∧ d.flights.any (·.busyPut i) = false ∧ a ∈ c.blocks) →
    d'.blockState a = some .stale
  kept : ∀ a, ¬(d.blockState a = some .allocated
      ∧ ∃ i ∈ is, ∃ c, d.ctx? i = some c ∧ d.flights.any (·.busyPut i) = false ∧ a ∈ c.blocks) →
    d'.blockState a = d.blockState a
  keeps : ∀ f ∈ d.flights, (∀ i ∈ is, ¬f.names i) → f ∈ d'.flights
  cuts : ∀ f ∈ d.flights, ∀ i ∈ is, f.busyPut i = true → f.cutShort i ∈ d'.flights
  silent : ∀ p, (∀ f ∈ d.flights, f.postsTo p = true → ∀ i ∈ is, ¬f.names i) →
    (d'.port p).completions = (d.port p).completions

section
variable {d d₁ d' : Device} {i : SlotIndex} {is : List SlotIndex} {c : Ctx}

/-- No context abandoned. -/
theorem Device.AllAbandoned.nil (d : Device) : Device.AllAbandoned [] d d where
  others := fun _ _ => rfl
  going := fun _ hi => nomatch hi
  gone := fun _ hi => nomatch hi
  entries := fun _ _ => rfl
  entry := fun _ hi => nomatch hi
  stale := fun _ _ h => by
    obtain ⟨i, hi, -⟩ := h
    nomatch hi
  kept := fun _ _ => rfl
  keeps := fun _ hf _ => hf
  cuts := fun _ _ _ hi => nomatch hi
  silent := fun _ _ => rfl

/-- A put of one context names no other. -/
theorem Flight.not_names {f : Flight} {k : SlotIndex} (busy : f.busyPut i = true) (other : k ≠ i) : ¬f.names k := by
  have put : f.isPutOf i = true := by rw [Flight.isPutOf_eq, busy, Bool.or_true]
  obtain ⟨w, work, slot⟩ := Flight.isPutOf_iff.mp put
  rintro (mine | mine)
  · obtain ⟨w', work', slot'⟩ := Flight.isPutOf_iff.mp mine
    rw [work] at work'
    obtain rfl := Work.put.inj work'
    exact other (slot'.symm.trans slot)
  · rw [work] at mine
    nomatch mine

/-- A request that is cut short with a context names the contexts it named. -/
theorem Flight.cutShort_names (i k : SlotIndex) (f : Flight) : (f.cutShort i).names k ↔ f.names k := by
  unfold Flight.names
  rw [(f.cutShort_kind i k).1, (f.cutShort_kind i k).2.2]

/-- One context abandoned, and then more. -/
theorem Device.AllAbandoned.cons (hc : d.ctx? i = some c) (h : Device.Abandoned i c d d₁)
    (h' : Device.AllAbandoned is d₁ d') (new : i ∉ is) : Device.AllAbandoned (i :: is) d d' := by
  have slot (k : SlotIndex) (hk : k ∈ is) : d₁.slots[k] = d.slots[k] := h.others k fun same => new (same ▸ hk)
  have ctx (k : SlotIndex) (hk : k ∈ is) : d₁.ctx? k = d.ctx? k := by
    unfold Device.ctx?
    rw [slot k hk]
  have busy (k : SlotIndex) (hk : k ∈ is) : d₁.flights.any (·.busyPut k) = d.flights.any (·.busyPut k) :=
    h.busy fun same => new (same ▸ hk)
  have silent (f : Flight) (r : ¬f.names i) : f.isPutOf i = false ∧ f.work ≠ .abandon i :=
    ⟨Bool.eq_false_of_not_eq_true fun put => r (.inl put), fun abandon => r (.inr abandon)⟩
  refine
    { others := fun k hk => ?_
      going := fun k hk x hx atWork => ?_
      gone := fun k hk idle => ?_
      entries := fun r apart => ?_
      entry := fun k hk x hx apart => ?_
      stale := fun a alloc given => ?_
      kept := fun a kept => ?_
      keeps := fun f hf apart => ?_
      cuts := fun f hf k hk atWork => ?_
      silent := fun p quiet => ?_ }
  · rw [List.mem_cons, not_or] at hk
    exact (h'.others k hk.2).trans (h.others k hk.1)
  · rcases List.mem_cons.mp hk with rfl | later
    · obtain rfl := Option.some.inj (hc.symm.trans hx)
      rw [h'.others k new]
      exact (h.going atWork).1
    · rw [← slot k later]
      exact h'.going k later x ((ctx k later).trans hx) ((busy k later).trans atWork)
  · rcases List.mem_cons.mp hk with rfl | later
    · rw [h'.others k new]
      exact (h.gone idle).1
    · rw [← slot k later]
      exact h'.gone k later ((busy k later).trans idle)
  · rw [h'.entries r fun k hk x hx => apart k (List.mem_cons_of_mem _ hk) x ((ctx k hk).symm.trans hx)]
    exact h.entries r (apart i (List.mem_cons_self ..) c hc).symm
  · rcases List.mem_cons.mp hk with rfl | later
    · obtain rfl := Option.some.inj (hc.symm.trans hx)
      have rest : d'.entry? c.name = d₁.entry? c.name := h'.entries c.name fun j hj y hy =>
        apart j (List.mem_cons_of_mem _ hj) (fun same => new (same ▸ hj)) y ((ctx j hj).symm.trans hy)
      rw [rest]
      exact ⟨fun atWork => (h.going atWork).2.1, fun idle => (h.gone idle).2.1, fun idle => (h.gone idle).2.2.1⟩
    · have first : d₁.entry? x.name = d.entry? x.name :=
        h.entries _ (apart i (List.mem_cons_self ..) (fun same => new (same ▸ later)) c hc).symm
      rw [← first, ← busy k later]
      exact h'.entry k later x ((ctx k later).trans hx) fun j hj other y hy =>
        apart j (List.mem_cons_of_mem _ hj) other y ((ctx j hj).symm.trans hy)
  · obtain ⟨k, hk, x, hx, idle, own⟩ := given
    rcases h.blocks a with same | ⟨stale, -⟩
    · rcases List.mem_cons.mp hk with rfl | later
      · obtain rfl := Option.some.inj (hc.symm.trans hx)
        rw [(h.gone idle).2.2.2 a, if_pos ⟨own, alloc⟩, alloc] at same
        nomatch same
      · exact h'.stale a (same.trans alloc) ⟨k, later, x, (ctx k later).trans hx, (busy k later).trans idle, own⟩
    · rw [h'.kept a (by rw [stale]; nofun), stale]
  · have first : d₁.blockState a = d.blockState a := (h.blocks a).resolve_right fun ⟨_, alloc, idle, own⟩ =>
      kept ⟨alloc, i, List.mem_cons_self .., c, hc, idle, own⟩
    rw [← first]
    refine h'.kept a fun ⟨alloc, k, hk, x, hx, idle, own⟩ => kept ⟨first ▸ alloc, k, List.mem_cons_of_mem _ hk, x, ?_⟩
    exact ⟨(ctx k hk).symm.trans hx, (busy k hk).symm.trans idle, own⟩
  · exact h'.keeps f (h.keeps hf (silent f (apart i (List.mem_cons_self ..))).1
      (silent f (apart i (List.mem_cons_self ..))).2) fun k hk => apart k (List.mem_cons_of_mem _ hk)
  · rcases List.mem_cons.mp hk with rfl | later
    · exact h'.keeps _ (h.cuts hf atWork) fun j hj named =>
        Flight.not_names atWork (fun same => new (same ▸ hj)) ((f.cutShort_names k j).mp named)
    · have other := silent f (Flight.not_names atWork fun same => new (same ▸ later))
      exact h'.cuts f (h.keeps hf other.1 other.2) k later atWork
  · rw [h'.silent p fun g hg posts k hk named => ?_,
      h.silent p fun f hf posts => silent f (quiet f hf posts i (List.mem_cons_self ..))]
    obtain ⟨f, hf, rfl⟩ := h.from hg
    rw [(f.cutShort_same i).2.1] at posts
    exact quiet f hf posts k (List.mem_cons_of_mem _ hk) ((f.cutShort_names i k).mp named)

end

section
variable {d : Device}

/-- Several contexts abandoned one after another (R46). -/
theorem Device.foldAbandon (is : List SlotIndex) (d : Device) (named : d.FlightsNamed) (apart : is.Nodup)
    (taken : ∀ i ∈ is, (d.ctx? i).isSome) : Device.AllAbandoned is d (is.foldl Device.beginAbandon d) := by
  induction is generalizing d with
  | nil => exact .nil d
  | cons i is ih =>
    rw [List.nodup_cons] at apart
    obtain ⟨c, hc⟩ := Option.isSome_iff_exists.mp (taken i (List.mem_cons_self ..))
    have first := Device.beginAbandon_abandoned named hc
    refine .cons hc first (ih _ (first.named named) apart.2 fun k hk => ?_) apart.1
    have ctx : (d.beginAbandon i).ctx? k = d.ctx? k := by
      unfold Device.ctx?
      rw [first.others k fun same => apart.1 (same ▸ hk)]
    rw [ctx]
    exact taken k (List.mem_cons_of_mem _ hk)

/-- Whether a context is an OPEN one of a port. -/
def Device.owns (d : Device) (p : Port) (i : SlotIndex) : Bool :=
  (d.ctx? i).any fun c => decide (c.owner = p) && decide (c.state = .open)

/-- A context that is owned is there. -/
theorem Device.owns_iff {p : Port} {i : SlotIndex} :
    d.owns p i = true ↔ ∃ c, d.ctx? i = some c ∧ c.owner = p ∧ c.state = .open := by
  unfold Device.owns
  cases d.ctx? i <;> simp

/-- A context of a port that is OPEN, and no other, is abandoned in its turn. -/
theorem Device.abandonIfOwned_eq (p : Port) (d : Device) (i : SlotIndex) :
    d.abandonIfOwned p i = if d.owns p i then d.beginAbandon i else d := by
  unfold Device.abandonIfOwned Device.owns
  cases d.ctx? i with
  | none => rfl
  | some c => simp

/-- The contexts that a port reset abandons are those that the port has as it begins (R46). -/
theorem Device.foldAbandonIfOwned (p : Port) (is : List SlotIndex) (d : Device) (named : d.FlightsNamed)
    (apart : is.Nodup) : is.foldl (Device.abandonIfOwned p) d = (is.filter (d.owns p)).foldl Device.beginAbandon d := by
  induction is generalizing d with
  | nil => rfl
  | cons i is ih =>
    rw [List.nodup_cons] at apart
    rw [List.foldl_cons, Device.abandonIfOwned_eq, List.filter_cons]
    cases owned : d.owns p i with
    | false => exact ih d named apart.2
    | true =>
      obtain ⟨c, hc, -⟩ := Device.owns_iff.mp owned
      have first := Device.beginAbandon_abandoned named hc
      have same (k : SlotIndex) (hk : k ∈ is) : (d.beginAbandon i).owns p k = d.owns p k := by
        unfold Device.owns Device.ctx?
        rw [first.others k fun same => apart.1 (same ▸ hk)]
      rw [if_pos rfl, if_pos rfl, List.foldl_cons, ih _ (first.named named) apart.2, List.filter_congr same]

end

/-! ### PORT RESET -/

/-- A request in flight as the reset of a port leaves it (R179): one of that port is marked for discard. -/
def Flight.resetBy (p : Port) (f : Flight) : Flight := { f with discard := f.discard || decide (f.port = p) }

/-- A part as the reset of a port begins (R179). -/
def Device.resetPort (d : Device) (p : Port) : Device :=
  { d.setPort p { PortState.cleared with alertEnable := (d.port p).alertEnable } with
    flights := d.flights.map (·.resetBy p) }

section
variable (d : Device) (p : Port)

/-- The contexts of a port that are abandoned, one after another (R46). -/
theorem Device.abandonOwned_eq : d.abandonOwned p = allSlots.foldl (Device.abandonIfOwned p) d := rfl

/-- A port reset (R179), in its three parts. -/
theorem Device.portCleared_eq :
    d.portCleared p = (allSlots.foldl (Device.abandonIfOwned p) (d.resetPort p)).releaseHolds p := by
  have mark : (fun f : Flight => if f.port = p then { f with discard := true } else f) = (·.resetBy p) := by
    funext f
    unfold Flight.resetBy
    by_cases own : f.port = p <;> simp [own]
  rw [← Device.abandonOwned_eq]
  unfold Device.portCleared Device.resetPort
  dsimp only
  rw [mark, Device.setPort_flights]

/-- A port reset begins with its port and the requests in flight; the rest stays. -/
theorem Device.resetPort_same :
    (d.resetPort p).slots = d.slots ∧ (d.resetPort p).dir = d.dir ∧ (d.resetPort p).pool = d.pool
      ∧ (d.resetPort p).locks = d.locks ∧ (d.resetPort p).settings = d.settings
      ∧ (d.resetPort p).layout = d.layout := by
  cases p <;> exact ⟨rfl, rfl, rfl, rfl, rfl, rfl⟩

/-- The entries once a port's holds are released (R94). -/
theorem Device.entry?_releaseHolds (r : RecordName) : (d.releaseHolds p).entry? r
    = (d.entry? r).map fun e => if e.hold = .held p then { e with hold := .none } else e := by
  unfold Device.entry? Device.releaseHolds
  dsimp only
  induction d.dir with
  | nil => rfl
  | cons e es ih =>
    have name : (if e.hold = .held p then { e with hold := .none } else e : Entry).name = e.name := by split <;> rfl
    rw [List.map_cons, List.find?_cons, List.find?_cons, name]
    cases decide (e.name = r) with
    | true => rfl
    | false => exact ih

end

/-- Settles O15: a port reset clears its port, abandons its contexts one after another, and then releases its holds. -/
theorem portResetClearsItsPort : Obligations.PortResetClearsItsPort := by
  unfold Obligations.PortResetClearsItsPort
  intro p s up
  refine ⟨fun frame bad => ?_, s.portCleared p, ?_, ?_⟩
  · change execPortReset p frame s = .next s
    unfold execPortReset
    rw [if_neg fun h => by rw [bad] at h; nomatch h.2]
  · change execPortReset p (withCrc16 [portResetCode]) s = _
    unfold execPortReset
    rw [if_pos ⟨up, by decide +kernel⟩]
  obtain ⟨slots, dir, pool, locks, settings, layout⟩ := s.resetPort_same p
  rw [Device.portCleared_eq]
  have winds := Device.Winds.foldl (Device.abandonIfOwned_winds p) allSlots (s.resetPort p)
  have notOpen := Device.abandonIfOwned_notOpen p allSlots (s.resetPort p)
  have quiet : (s.resetPort p).Quiet (allSlots.foldl (Device.abandonIfOwned p) (s.resetPort p)) := by
    rw [← Device.abandonOwned_eq]
    exact Device.abandonOwned_quiet p (.refl _)
  generalize done : allSlots.foldl (Device.abandonIfOwned p) (s.resetPort p) = x at winds notOpen quiet
  have port (q : Port) : (x.releaseHolds p).port q = x.port q := by cases q <;> rfl
  have face (q : Port) : (x.port q).face = ((s.resetPort p).port q).face := by
    cases q
    · exact congrArg Face.primary quiet.face
    · exact congrArg Face.service quiet.face
  have own : (s.resetPort p).port p = { PortState.cleared with alertEnable := (s.port p).alertEnable } := by
    cases p <;> rfl
  have other : (s.resetPort p).port p.other = s.port p.other := by cases p <;> rfl
  have discarded : ∀ f ∈ (s.resetPort p).flights, f.port = p → f.discard = true := fun f hf mine => by
    obtain ⟨g, -, rfl⟩ := List.mem_map.mp hf
    have mine' : g.port = p := mine
    unfold Flight.resetBy
    simp [mine']
  refine ⟨?_, ?_, ?_, ?_, ?_, ?_, winds.discards discarded, ?_, ?_, ?_, ?_, ?_, ?_, ?_⟩
  · rw [port, face, own]
    rfl
  · rw [port, winds.posted p discarded, own]
    rfl
  · rw [port, winds.notices, own]
    rfl
  · rw [port, face, other]
  · rw [port, winds.notices, other]
  · rw [port, ← other]
    exact quiet.posted p.other
  · intro e he
    obtain ⟨e₀, -, rfl⟩ := List.mem_map.mp he
    split
    · exact nofun
    next free => exact free
  · intro r e' he'
    rw [Device.entry?_releaseHolds, Option.map_eq_some_iff] at he'
    obtain ⟨e₁, he₁, rfl⟩ := he'
    obtain ⟨e, he, hold⟩ := winds.hold r e₁ he₁
    rw [Device.entry?_congr dir] at he
    refine ⟨e, he, ?_⟩
    rw [← hold]
    split <;> rfl
  · exact fun i c hc mine => notOpen i (by rw [allSlots_eq_finRange]; exact List.mem_finRange i) c hc mine
  · exact (congrArg Face.locks quiet.face).trans locks
  · exact (congrArg Face.settings quiet.face).trans settings
  · exact (congrArg Face.layout quiet.face).trans layout
  intro named mine atWork unheld
  have named' : (s.resetPort p).FlightsNamed := by
    unfold Device.FlightsNamed Device.resetPort
    rw [List.map_map]
    exact named
  have owns (i : SlotIndex) : i ∈ allSlots.filter ((s.resetPort p).owns p) ↔ mine i := by
    rw [List.mem_filter, Device.owns_iff, allSlots_eq_finRange]
    unfold Device.ctx?
    rw [slots]
    simp [mine, List.mem_finRange]
    rfl
  have ctx (i : SlotIndex) : (s.resetPort p).ctx? i = s.ctx? i := by
    unfold Device.ctx?
    rw [slots]
  have entry (r : RecordName) : (s.resetPort p).entry? r = s.entry? r := Device.entry?_congr dir r
  have blockState (a : BlockAddr) : (s.resetPort p).blockState a = s.blockState a :=
    Device.blockState_congr (by rw [pool]) a
  have busy (i : SlotIndex) : (s.resetPort p).flights.any (·.busyPut i) = true ↔ atWork i := by
    rw [List.any_eq_true]
    refine ⟨fun ⟨f, hf, atWork⟩ => ?_, fun ⟨f, hf, w, work, slot, hasJob⟩ => ⟨f.resetBy p, List.mem_map_of_mem hf, ?_⟩⟩
    · obtain ⟨g, hg, rfl⟩ := List.mem_map.mp hf
      obtain ⟨w, work, slot, hasJob⟩ := Flight.busyPut_iff.mp atWork
      exact ⟨g, hg, w, work, slot, hasJob⟩
    · exact Flight.busyPut_iff.mpr ⟨w, work, slot, hasJob⟩
  have idle (i : SlotIndex) : (s.resetPort p).flights.any (·.busyPut i) = false ↔ ¬atWork i := by
    rw [← busy, Bool.not_eq_true]
  have apart (f : Flight) (i : SlotIndex) :
      ¬(f.resetBy p).names i ↔ (∀ w, f.work = .put w → w.slot ≠ i) ∧ f.work ≠ .abandon i := by
    unfold Flight.names
    rw [Flight.isPutOf_iff, not_or, not_exists]
    simp only [not_and]
    rfl
  have all := Device.foldAbandon (allSlots.filter ((s.resetPort p).owns p)) (s.resetPort p) named'
    (List.Nodup.filter _ (by decide)) fun i hi => by
      obtain ⟨c, hc, -⟩ := Device.owns_iff.mp (List.mem_filter.mp hi).2
      rw [hc]
      rfl
  rw [← Device.foldAbandonIfOwned p allSlots _ named' (by decide), done] at all
  refine ⟨?_, fun i c hc own => ⟨fun working => ?_, fun working => ?_, fun alone => ?_⟩, fun a => ⟨?_, fun kept => ?_⟩,
    fun i h => ?_, fun r h => ?_, fun f hf h => ?_, fun f hf w work own hasJob => ?_, fun h => ?_⟩
  · have filter : (allSlots.filter ((s.resetPort p).owns p))
        = allSlots.filter fun i => (s.ctx? i).any fun c => decide (c.owner = p) && decide (c.state = .open) := by
      refine List.filter_congr fun i _ => ?_
      unfold Device.owns
      rw [ctx]
    rw [← done, Device.foldAbandonIfOwned p allSlots _ named' (by decide), filter]
    rfl
  · have going := all.going i ((owns i).mpr own) c ((ctx i).trans hc) ((busy i).mpr working)
    rw [slots] at going
    obtain ⟨c', slot, state, owner, name, chunks, present⟩ := going
    obtain ⟨x, hx, mine, -⟩ := own
    obtain rfl := Option.some.inj (hc.symm.trans hx)
    exact ⟨c', slot, state, owner.trans mine, name, chunks, present⟩
  · have gone := all.gone i ((owns i).mpr own) ((idle i).mpr working)
    rwa [slots] at gone
  · obtain ⟨going, create, replace⟩ := all.entry i ((owns i).mpr own) c ((ctx i).trans hc) fun k hk other x hx =>
      alone k x other ((ctx k).symm.trans hx) ((owns k).mp hk)
    rw [Device.entry?_releaseHolds, ← entry]
    refine ⟨fun working => ?_, fun working mode => ?_, fun working mode => ?_⟩
    · rw [going ((busy i).mpr working)]
    · rw [create ((idle i).mpr working) mode]
      rfl
    · rw [replace ((idle i).mpr working) mode, Option.map_map]
      rfl
  · rintro ⟨alloc, i, c, hc, own, working, inside⟩
    exact all.stale a ((blockState a).trans alloc)
      ⟨i, (owns i).mpr own, c, (ctx i).trans hc, (idle i).mpr working, inside⟩
  · rw [← blockState]
    refine all.kept a fun ⟨alloc, i, hi, c, hc, idle', inside⟩ => kept ⟨(blockState a).symm.trans alloc, i, c, ?_⟩
    exact ⟨(ctx i).symm.trans hc, (owns i).mp hi, (idle i).mp idle', inside⟩
  · rw [← slots]
    exact all.others i fun hi => h ((owns i).mp hi)
  · rw [Device.entry?_releaseHolds, ← entry]
    rw [all.entries r fun i hi c hc => h i c ((ctx i).symm.trans hc) ((owns i).mp hi)]
  · exact all.keeps _ (List.mem_map_of_mem hf) fun i hi => (apart f i).mpr (h i ((owns i).mp hi))
  · have atWork' : (f.resetBy p).busyPut w.slot = true := Flight.busyPut_iff.mpr ⟨w, work, rfl, hasJob⟩
    have cut := all.cuts _ (List.mem_map_of_mem hf) w.slot ((owns w.slot).mpr own) atWork'
    rwa [(Flight.put_eq (f := f.resetBy p) work rfl).2.2.1] at cut
  · rw [port]
    refine (all.silent p.other fun f hf posts i hi => ?_).trans (by rw [other])
    obtain ⟨g, hg, rfl⟩ := List.mem_map.mp hf
    have toOther : g.port = p.other := of_decide_eq_true (Bool.and_eq_true_iff.mp posts).1
    exact (apart g i).mpr (h g hg toOther i ((owns i).mp hi))

end Sys2Proof.Machine

/-!
Mark work (R65 to R67): what it begins with, what its mark programs bring, and the settling of O29.
-/

namespace Sys2Proof.Machine

/-! ### The work of a request, set twice -/

section
variable {d : Device} {id : Nat}

/-- Of two works of one request the later counts. -/
theorem Device.setWork_setWork (d : Device) (id : Nat) (w w' : Work) :
    (d.setWork id w).setWork id w' = d.setWork id w' := by
  unfold Device.setWork
  dsimp only
  rw [List.map_map]
  have same : (fun f : Flight => if f.id = id then { f with work := w' } else f)
      ∘ (fun f : Flight => if f.id = id then { f with work := w } else f)
      = fun f => if f.id = id then { f with work := w' } else f := by
    funext f
    by_cases own : f.id = id <;> simp [own]
  rw [same]

/-- The work of a request whose work is set, if a request has the name. -/
theorem Device.work?_setWork (d : Device) (id : Nat) (w : Work) :
    (d.setWork id w).work? id = (d.work? id).map fun _ => w := by
  unfold Device.work? Device.flight? Device.setWork
  dsimp only
  induction d.flights with
  | nil => rfl
  | cons f fs ih =>
    rw [List.map_cons, List.find?_cons, List.find?_cons]
    by_cases own : f.id = id
    · simp [own]
    · simp only [own, if_false, decide_false]
      exact ih

/-- A name that no request has takes no work. -/
theorem Device.setWork_none (none_ : d.work? id = none) (w : Work) : d.setWork id w = d := by
  have others (f : Flight) (hf : f ∈ d.flights) : f.id ≠ id := by
    unfold Device.work? at none_
    rw [Option.map_eq_none_iff] at none_
    simpa using List.find?_eq_none.mp none_ f hf
  have same : d.flights.map (fun f => if f.id = id then { f with work := w } else f) = d.flights := by
    rw [List.map_congr_left (g := fun f => f) fun f hf => if_neg (others f hf), List.map_id']
  unfold Device.setWork
  rw [same]

/-- The relocation of mark work is set in its work. -/
theorem Device.setReloc_setWork (d : Device) (id : Nat) (w : MarkWork) (r : Reloc) :
    (d.setWork id (.mark w)).setReloc (.mark id) r = d.setWork id (.mark { w with stage := .relocation r }) := by
  unfold Device.setReloc
  dsimp only
  rw [Device.work?_setWork]
  cases h : d.work? id with
  | none => rw [Device.setWork_none h, Device.setWork_none h]; rfl
  | some x => exact Device.setWork_setWork ..

end

/-! ### The beginning of mark work -/

section
variable {d : Device} {id : Nat} {kind : MarkKind} {e : Entry}

/-- The quota that the excess of a relocation does not fit (R65). -/
theorem Device.not_excessFits (d : Device) (e : Entry) :
    (!d.excessFits e) = (decide (0 < excessOf e (d.copiesOf e.name.ns))
      && decide ((d.desc e.name.ns).quota
        < d.held e.name.ns + d.reservedBlocks e.name.ns + excessOf e (d.copiesOf e.name.ns))) := by
  unfold Device.excessFits
  rw [Bool.not_or, ← decide_not, ← decide_not, decide_eq_decide.mpr Nat.pos_iff_ne_zero.symm,
    decide_eq_decide.mpr Nat.not_le]

/-- Mark work as it turns to a relocation (R65). -/
def markRelocation (d : Device) (kind : MarkKind) (e : Entry) : MarkWork :=
  { kind := kind
    name := e.name
    stage := .relocation
      (newReloc e (.mark kind) (d.copiesOf e.name.ns) (decide (kind = .freeze)) (decide (kind = .retire))) }

/-- Mark work that turns to a relocation draws the relocation's places of the allowance (R65, R68). -/
theorem Device.startMarkReloc_eq (d : Device) (id : Nat) (kind : MarkKind) (e : Entry) :
    d.startMarkReloc id kind e
      = (d.setWork id (.mark (markRelocation d kind e))).askDraw (.reloc (.mark id))
          (min (e.version.chunks.length * d.copiesOf e.name.ns) 16) := by
  have flags : kind.flags = (decide (kind = .freeze), decide (kind = .retire)) := by cases kind <;> rfl
  unfold Device.startMarkReloc Device.startReloc
  dsimp only
  rw [Device.setReloc_setWork, flags]
  rfl

/-- Mark work with a slot left marks it (R66). -/
theorem Device.beginMark_slot {x : ChunkRef} (left : e.marks < 3) (zero : e.version.chunkAt 0 = some x) :
    d.beginMark id kind e
      = ((d.modEntry e.name fun x => { x with busy := .mark }).setWork id
          (.mark { kind := kind, name := e.name, stage := .slot (e.marks + 1) .primary })).queueMark x.addr kind
            (e.marks + 1) e.version.generation (.mark id) := by
  unfold Device.beginMark
  rw [if_neg (Nat.not_le.mpr left), zero]

/-- Mark work without a slot left makes its two checks (R65). -/
theorem Device.beginMark_refused {r : Result} (full : 3 ≤ e.marks)
    (fails : firstFailure (d.relocationChecks e) = some r) : d.beginMark id kind e = d.complete id r [] := by
  unfold Device.beginMark
  rw [if_pos full, fails]

/-- Mark work without a slot left that passes them relocates (R65). -/
theorem Device.beginMark_relocates (full : 3 ≤ e.marks) (pass : firstFailure (d.relocationChecks e) = none) :
    d.beginMark id kind e = (d.modEntry e.name fun x => { x with busy := .mark }).startMarkReloc id kind e := by
  unfold Device.beginMark
  rw [if_pos full, pass]

end

/-! ### The mark point -/

section
variable {d : Device} {r : RecordName} {e : Entry}

/-- A change of an entry that names it as it was named. -/
theorem Device.entry?_modEntry_some (he : d.entry? r = some e) {f : Entry → Entry} (name : (f e).name = e.name) :
    (d.modEntry r f).entry? r = some (f e) := by
  rw [Device.entry?_modEntry_self he, ← Device.entry?_name he, ← name]

/-- The entry of a retired record (R66, R72). -/
theorem Device.entry?_markPoint_retire (he : d.entry? r = some e) (k : Nat) :
    (d.markPoint .retire k r).entry? r
      = some { e with marks := k, state := .retired, hold := .none, retireOrder := some d.retireCounter } :=
  Device.entry?_modEntry_some (Device.entry?_modEntry_some (f := fun e => { e with marks := k }) he rfl)
    (f := fun e => { e with state := .retired, hold := .none, retireOrder := some d.retireCounter }) rfl

/-- The entry of a restored record (R66, R73). -/
theorem Device.entry?_markPoint_restore (he : d.entry? r = some e) (k : Nat) :
    (d.markPoint .restore k r).entry? r = some { e with marks := k, state := .live, retireOrder := none } :=
  Device.entry?_modEntry_some (Device.entry?_modEntry_some (f := fun e => { e with marks := k }) he rfl)
    (f := fun e => { e with state := .live, retireOrder := none }) rfl

/-- The entry of a frozen record (R66, R89). -/
theorem Device.entry?_markPoint_freeze (he : d.entry? r = some e) (k : Nat) :
    (d.markPoint .freeze k r).entry? r = some { e with marks := k, state := .live, hold := .frozen } :=
  Device.entry?_modEntry_some (Device.entry?_modEntry_some (f := fun e => { e with marks := k }) he rfl)
    (f := fun e => { e with state := .live, hold := .frozen }) rfl

/-- The mark point keeps the version of the record (R66). -/
theorem Device.markPoint_version (he : d.entry? r = some e) (kind : MarkKind) (k : Nat) :
    ∃ x, (d.markPoint kind k r).entry? r = some x ∧ x.version = e.version := by
  cases kind with
  | retire => exact ⟨_, Device.entry?_markPoint_retire he k, rfl⟩
  | restore => exact ⟨_, Device.entry?_markPoint_restore he k, rfl⟩
  | freeze => exact ⟨_, Device.entry?_markPoint_freeze he k, rfl⟩
  | purge => exact ⟨_, Device.entry?_modEntry_some (f := fun e => { e with marks := k }) he rfl, rfl⟩

/-- The mark point touches no other entry (R66). -/
theorem Device.entry?_markPoint_other (d : Device) (kind : MarkKind) (k : Nat) {q : RecordName} (other : q ≠ r) :
    (d.markPoint kind k r).entry? q = d.entry? q := by
  have first := Device.entry?_modEntry_other d other fun e => { e with marks := k }
  cases kind with
  | purge => exact first
  | _ => exact (Device.entry?_modEntry_other _ other _).trans first

end

/-- Mark work that is done answers with its entry, whose busy field the answer does not hold (R65, R66). -/
theorem Device.markDone_eq (d : Device) (id : Nat) (r : RecordName) :
    d.markDone id r = (d.modEntry r fun e => { e with busy := .none }).complete id .ok
      (((d.entry? r).map markReply).getD []) := by
  unfold Device.markDone
  dsimp only
  rw [Device.entry?_modEntry, Option.map_map]
  have reply : markReply ∘ (fun e : Entry => if r = r then { e with busy := .none, name := e.name } else e)
      = markReply := funext fun e => by
    rw [Function.comp_apply, if_pos rfl]
    rfl
  rw [reply]

/-! ### Rows of marks -/

section
variable {s : State} {b : Bank} {j : Job} {id k : Nat} {kind : MarkKind} {r : RecordName} {copy : Copy}

/-- A mark program goes to its mark work (R66, R67). -/
theorem State.execMarkProgramDone_working (h : s.Working b j) (hby : j.by_ = .mark id) (o : OkFail) :
    exec (.markProgramDone b o) s = .next (s.afterWork b j o (s.markProgramDone b j id o)) := by
  refine congrArg Host.Outcome.next (State.programDone_working h o ?_)
  unfold Device.onMark
  rw [hby]

/-- A MIRROR mark program goes to its mark work (R66). -/
theorem State.execMirrorMarkProgramDone_working (h : s.Working b j) (hby : j.by_ = .mirrorMark id) (o : OkFail) :
    exec (.mirrorMarkProgramDone b o) s = .next (s.afterWork b j o (s.mirrorMarkDone b j id o)) := by
  refine congrArg Host.Outcome.next (State.programDone_working h o ?_)
  unfold Device.onMirrorMark
  rw [hby]

variable {d : Device} {e : Entry}

/-- A mark that is programmed is the mark point, and the same mark follows in the MIRROR chunk 0 (R66). -/
theorem Device.markProgramDone_mirrored {m : BlockAddr}
    (work : d.work? id = some (.mark { kind := kind, name := r, stage := .slot k copy })) (he : d.entry? r = some e)
    (mirror : e.version.mirrorAt 0 = some m) :
    d.markProgramDone b j id .ok
      = ((d.markPoint kind k r).setWork id (.mark { kind := kind, name := r, stage := .slot k .mirror })).queueMark m
          kind k e.version.generation (.mirrorMark id) := by
  obtain ⟨x, hx, version⟩ := Device.markPoint_version he kind k
  unfold Device.markProgramDone
  rw [work]
  dsimp only
  rw [hx, Option.bind_some, version, mirror]
  rfl

/-- A mark that is programmed, without a MIRROR chunk 0, is the end of its work (R66). -/
theorem Device.markProgramDone_alone
    (work : d.work? id = some (.mark { kind := kind, name := r, stage := .slot k copy })) (he : d.entry? r = some e)
    (mirror : e.version.mirrorAt 0 = none) :
    d.markProgramDone b j id .ok = (d.markPoint kind k r).markDone id r := by
  obtain ⟨x, hx, version⟩ := Device.markPoint_version he kind k
  unfold Device.markProgramDone
  rw [work]
  dsimp only
  rw [hx, Option.bind_some, version, mirror]
  rfl

/-- A record whose mark failed has no mark left and is to be refreshed (R67). -/
def Device.markLost (d : Device) (b : Bank) (j : Job) (r : RecordName) : Device :=
  ((d.programFailed b j).modEntry r fun e => { e with marks := 3 }).joinRefresh r

/-- A mark that failed, of a record that may not be relocated, is answered (R67). -/
theorem Device.markProgramDone_refused {result : Result}
    (work : d.work? id = some (.mark { kind := kind, name := r, stage := .slot k copy }))
    (he : (d.markLost b j r).entry? r = some e)
    (fails : firstFailure ((d.markLost b j r).relocationChecks e) = some result) :
    d.markProgramDone b j id .fail
      = ((d.markLost b j r).modEntry r fun e => { e with busy := .none }).complete id result [] := by
  unfold Device.markProgramDone
  rw [work]
  unfold Device.markLost at he fails ⊢
  dsimp only
  rw [he]
  dsimp only
  rw [fails]

/-- A mark that failed turns to a relocation (R67). -/
theorem Device.markProgramDone_relocates
    (work : d.work? id = some (.mark { kind := kind, name := r, stage := .slot k copy }))
    (he : (d.markLost b j r).entry? r = some e)
    (pass : firstFailure ((d.markLost b j r).relocationChecks e) = none) :
    d.markProgramDone b j id .fail = (d.markLost b j r).startMarkReloc id kind e := by
  unfold Device.markProgramDone
  rw [work]
  unfold Device.markLost at he pass ⊢
  dsimp only
  rw [he]
  dsimp only
  rw [pass]

end

/-- Settles O29: each case of mark work is one of the branches above. -/
theorem markWorkTakesTheNextSlotOrRelocates : Obligations.MarkWorkTakesTheNextSlotOrRelocates := by
  unfold Obligations.MarkWorkTakesTheNextSlotOrRelocates
  intro checks relocates done missing
  have same (d : Device) (e : Entry) : checks d e = d.relocationChecks e := by
    unfold Device.relocationChecks
    rw [Device.not_excessFits]
    rfl
  refine ⟨fun d id kind e => ?_, fun s b j id k kind r copy h work => ⟨fun hby => ⟨fun e he => ?_, fun e he => ?_⟩,
      fun hby => ⟨?_, ?_⟩⟩,
    fun d r k e he => ⟨Device.entry?_markPoint_retire he k, rfl, Device.entry?_markPoint_restore he k, rfl,
      Device.entry?_markPoint_freeze he k, rfl, fun kind q other => d.entry?_markPoint_other kind k other⟩⟩
  · intro busied
    refine ⟨fun x left zero => Device.beginMark_slot left zero, fun full r fails => ?_, fun full pass => ?_⟩
    · exact Device.beginMark_refused full ((congrArg firstFailure (same d e)).symm.trans fails)
    · rw [Device.beginMark_relocates full ((congrArg firstFailure (same d e)).symm.trans pass),
        Device.startMarkReloc_eq]
      rfl
  · intro d mirrored
    refine ⟨fun m mirror => ?_, fun mirror => ?_⟩
    · rw [State.execMarkProgramDone_working h hby, Device.markProgramDone_mirrored work he mirror]
      rfl
    · rw [State.execMarkProgramDone_working h hby, Device.markProgramDone_alone work he mirror, Device.markDone_eq]
      rfl
  · refine ⟨fun result fails => ?_, fun pass => ?_⟩
    · rw [State.execMarkProgramDone_working h hby,
        Device.markProgramDone_refused work he ((congrArg firstFailure (same _ e)).symm.trans fails)]
      rfl
    · rw [State.execMarkProgramDone_working h hby,
        Device.markProgramDone_relocates work he ((congrArg firstFailure (same _ e)).symm.trans pass),
        Device.startMarkReloc_eq]
      rfl
  · rw [State.execMirrorMarkProgramDone_working h hby]
    unfold Device.mirrorMarkDone
    rw [work]
    dsimp only
    rw [Device.markDone_eq]
    rfl
  · rw [State.execMirrorMarkProgramDone_working h hby]
    unfold Device.mirrorMarkDone
    rw [work]
    dsimp only
    rw [Device.markDone_eq]
    rfl

end Sys2Proof.Machine

/-!
The reading of records (R53 to R59): the pages a range touches, the bytes they hold, how page reads go on and how a READ
and a CHECK end, and the settling of O46, O47 and O48.
-/

namespace Sys2Proof.Machine

/-! ### The chunks and pages of a range -/

section
variable {w : ReadWork} {i p : Nat}

/-- The chunks a range touches lie between its first byte's and its last byte's (R54). -/
theorem ReadWork.mem_chunksTouched (w : ReadWork) (i : Nat) :
    i ∈ w.chunksTouched ↔ w.offset / 3328 ≤ i ∧ i ≤ (w.offset + w.length - 1) / 3328 := by
  unfold ReadWork.chunksTouched Config.chunkBytes
  simp only [List.mem_map, List.mem_range]
  constructor
  · rintro ⟨k, hk, rfl⟩
    omega
  · intro h
    exact ⟨i - w.offset / 3328, by omega, by omega⟩

/-- A chunk is touched by some byte of the range (R54). -/
theorem ReadWork.touched_iff (some_ : 0 < w.length) :
    i ∈ w.chunksTouched ↔ ∃ x, w.offset ≤ x ∧ x < w.offset + w.length ∧ x / 3328 = i := by
  rw [ReadWork.mem_chunksTouched]
  constructor
  · intro h
    exact ⟨max w.offset (3328 * i), by omega⟩
  · rintro ⟨x, lo, hi, rfl⟩
    omega

/-- The bytes of the range within a chunk. -/
theorem ReadWork.span_eq (w : ReadWork) (i : Nat) :
    w.span i = (max w.offset (3328 * i) - 3328 * i, min (w.offset + w.length) (3328 * (i + 1)) - 3328 * i) := rfl

/-- A chunk that is touched has bytes of the range. -/
theorem ReadWork.span_touched (some_ : 0 < w.length) (h : i ∈ w.chunksTouched) :
    (w.span i).1 < (w.span i).2 ∧ (w.span i).2 ≤ 3328 ∧ 3328 * i + (w.span i).1 = max w.offset (3328 * i)
      ∧ 3328 * i + (w.span i).2 = min (w.offset + w.length) (3328 * (i + 1)) := by
  obtain ⟨lo, hi⟩ := (w.mem_chunksTouched i).mp h
  rw [ReadWork.span_eq]
  dsimp only
  omega

/-- The pages of a chunk that hold bytes of the range (R54). -/
theorem ReadWork.mem_pagesOf (w : ReadWork) (i p : Nat) :
    p ∈ w.pagesOf i ↔ 1 + (w.span i).1 / 256 ≤ p ∧ p ≤ 1 + ((w.span i).2 - 1) / 256 := by
  unfold ReadWork.pagesOf
  simp only [List.mem_map, List.mem_range]
  constructor
  · rintro ⟨k, hk, rfl⟩
    omega
  · intro h
    exact ⟨p - (1 + (w.span i).1 / 256), by omega, by omega⟩

/-- A page of a touched chunk is read when it holds a byte of the range (R54). -/
theorem ReadWork.page_iff (some_ : 0 < w.length) (h : i ∈ w.chunksTouched) :
    p ∈ w.pagesOf i
      ↔ ∃ x, (w.offset ≤ x ∧ x < w.offset + w.length ∧ x / 3328 = i) ∧ p = 1 + (x - 3328 * i) / 256 := by
  obtain ⟨nonempty, -, lo, hi⟩ := ReadWork.span_touched some_ h
  rw [ReadWork.mem_pagesOf]
  generalize (w.span i).1 = a at *
  generalize (w.span i).2 = b at *
  constructor
  · intro hp
    exact ⟨3328 * i + max a (256 * (p - 1)), by omega, by omega⟩
  · rintro ⟨x, ⟨from_, upto, inside⟩, rfl⟩
    omega

/-- The pages of a chunk are read in ascending order (R54). -/
theorem ReadWork.pagesOf_ascending (w : ReadWork) (i : Nat) : (w.pagesOf i).Pairwise (· < ·) := by
  unfold ReadWork.pagesOf
  rw [List.pairwise_map]
  exact List.pairwise_lt_range.imp fun h => by omega

/-- A chunk is done when each page it is read for has been kept (R54). -/
theorem ReadWork.chunkDone_iff (w : ReadWork) :
    w.chunkDone = true ↔ ∀ g ∈ w.pagesOf w.chunk, pageGot w.got w.chunk g ≠ none := by
  unfold ReadWork.chunkDone
  rw [List.all_eq_true]
  exact forall₂_congr fun g _ => Option.isSome_iff_ne_none

end

/-! ### The bytes of a range -/

/-- A slice of a slice. -/
theorem sliceBytes_sliceBytes (bytes : List Byte) {o n o' n' : Nat} (inside : o' + n' ≤ n) :
    sliceBytes (sliceBytes bytes o n) o' n' = sliceBytes bytes (o + o') n' := by
  unfold sliceBytes
  rw [List.drop_take, List.take_take, List.drop_drop, Nat.min_eq_left (by omega)]

/-- Two slices one after the other. -/
theorem sliceBytes_add (bytes : List Byte) (o m n : Nat) :
    sliceBytes bytes o m ++ sliceBytes bytes (o + m) n = sliceBytes bytes o (m + n) := by
  unfold sliceBytes
  rw [List.take_add, List.drop_drop]

/-- Slices between cuts, one after the other. -/
theorem flatMap_slices (bytes : List Byte) (cut : Nat → Nat) (mono : ∀ k, cut k ≤ cut (k + 1)) (n : Nat) :
    (List.range n).flatMap (fun k => sliceBytes bytes (cut k) (cut (k + 1) - cut k))
      = sliceBytes bytes (cut 0) (cut n - cut 0) := by
  have zero_le : ∀ k, cut 0 ≤ cut k := fun k => monotone_nat_of_le_succ mono (Nat.zero_le k)
  induction n with
  | zero => simp [sliceBytes]
  | succ n ih =>
    have here := zero_le n
    have next := mono n
    rw [List.range_succ, List.flatMap_append, ih, List.flatMap_singleton]
    have start : cut n = cut 0 + (cut n - cut 0) := by omega
    rw [show sliceBytes bytes (cut n) (cut (n + 1) - cut n)
      = sliceBytes bytes (cut 0 + (cut n - cut 0)) (cut (n + 1) - cut n) by rw [← start], sliceBytes_add]
    congr 1
    omega

/-- Bytes padded with zeros are those bytes with zeros after them, cut at the end. -/
theorem sliceBytes_padded (bytes : List Byte) {m o n : Nat} (inside : o + n ≤ m) (full : o + n ≤ bytes.length) :
    sliceBytes (padded m bytes) o n = sliceBytes bytes o n := by
  unfold padded
  change sliceBytes (sliceBytes (bytes ++ fill m 0) 0 m) o n = _
  rw [sliceBytes_sliceBytes _ inside, Nat.zero_add]
  unfold sliceBytes
  rw [List.drop_append, List.take_append, List.length_drop, Nat.sub_eq_zero_of_le (by omega : n ≤ bytes.length - o)]
  simp

/-- A slice that lies in the first of two parts. -/
theorem sliceBytes_append_left (bytes more : List Byte) {o n : Nat} (full : o + n ≤ bytes.length) :
    sliceBytes (bytes ++ more) o n = sliceBytes bytes o n := by
  unfold sliceBytes
  rw [List.drop_append_of_le_length (by omega), List.take_append_of_le_length (by rw [List.length_drop]; omega)]

/-- A page's share, padded with zeros, is a slice of the whole with zeros after it. -/
theorem padded_slice (bytes : List Byte) {o n m : Nat} (room : o + n ≤ m) :
    padded n (sliceBytes bytes o n) = sliceBytes (bytes ++ fill m 0) o n := by
  have gap : min (n - min n (bytes.length - o)) n = min (n - (bytes.length - o)) (m - (o - bytes.length)) := by omega
  unfold padded sliceBytes fill
  rw [List.drop_append, List.take_append, List.take_append, List.take_take, Nat.min_self, List.length_take,
    List.length_drop, List.drop_replicate, List.take_replicate, List.take_replicate, gap]

/-- The bytes that a touched chunk gives, when each of its pages holds its share of the body (R54). -/
theorem ReadWork.bytesOf_eq {w : ReadWork} {body : List Byte} {i : Nat} (some_ : 0 < w.length)
    (within : w.offset + w.length ≤ body.length) (touched : i ∈ w.chunksTouched)
    (pages : ∀ p, p ∈ w.pagesOf i →
      pageGot w.got i p = some (padded 256 (sliceBytes (sliceBytes body (3328 * i) 3328) (256 * (p - 1)) 256))) :
    w.bytesOf i = sliceBytes body (3328 * i + (w.span i).1) ((w.span i).2 - (w.span i).1) := by
  obtain ⟨nonempty, most, lo, hi⟩ := ReadWork.span_touched some_ touched
  have members := w.mem_pagesOf i
  unfold ReadWork.bytesOf
  unfold ReadWork.pagesOf at pages members ⊢
  dsimp only at pages members ⊢
  generalize (w.span i).1 = a at *
  generalize (w.span i).2 = b at *
  let chunk := sliceBytes body (3328 * i) 3328
  let cut (k : Nat) : Nat := 256 * (a / 256 + k)
  have length : chunk.length = min 3328 (body.length - 3328 * i) := by
    change (sliceBytes body (3328 * i) 3328).length = _
    unfold sliceBytes
    rw [List.length_take, List.length_drop]
  have share (k : Nat) (hk : k ∈ List.range ((b - 1) / 256 + 1 - a / 256)) :
      (pageGot w.got i (1 + a / 256 + k)).getD []
        = sliceBytes (chunk ++ fill 3328 0) (cut k) (cut (k + 1) - cut k) := by
    have page := pages _ (List.mem_map_of_mem hk)
    have := List.mem_range.mp hk
    rw [page, Option.getD_some, padded_slice (m := 3328) chunk (by omega)]
    congr 1
    · change 256 * (1 + a / 256 + k - 1) = 256 * (a / 256 + k)
      omega
    · change 256 = 256 * (a / 256 + (k + 1)) - 256 * (a / 256 + k)
      omega
  have joined : ((List.range ((b - 1) / 256 + 1 - a / 256)).map (1 + a / 256 + ·)).flatMap
        (fun p => (pageGot w.got i p).getD [])
      = sliceBytes (chunk ++ fill 3328 0) (256 * (a / 256)) (256 * ((b - 1) / 256 + 1 - a / 256)) := by
    rw [List.flatMap_map, List.flatMap_congr share, flatMap_slices _ cut fun k => by change 256 * _ ≤ 256 * _; omega]
    congr 1
    change 256 * (a / 256 + _) - 256 * (a / 256 + 0) = _
    omega
  rw [joined, sliceBytes_sliceBytes _ (by omega), sliceBytes_append_left _ _ (by omega)]
  change sliceBytes (sliceBytes body (3328 * i) 3328) _ _ = _
  rw [sliceBytes_sliceBytes _ (by omega)]
  congr 1
  omega

/-- Settles O47: the bytes of the chunks touched lie one after the other in the body. -/
theorem aReadReturnsTheBytesOfItsRange : Obligations.AReadReturnsTheBytesOfItsRange := by
  unfold Obligations.AReadReturnsTheBytesOfItsRange
  intro w body some_ within pages
  let count := (w.offset + w.length - 1) / 3328 + 1 - w.offset / 3328
  let cut (k : Nat) : Nat := max w.offset (min (w.offset + w.length) (3328 * (w.offset / 3328 + k)))
  have cut_eq (k : Nat) : cut k = max w.offset (min (w.offset + w.length) (3328 * (w.offset / 3328 + k))) := rfl
  have mono (k : Nat) : cut k ≤ cut (k + 1) := by
    rw [cut_eq, cut_eq]
    omega
  have touched : w.chunksTouched = (List.range count).map (w.offset / 3328 + ·) := rfl
  have chunk (k : Nat) (hk : k ∈ List.range count) :
      w.bytesOf (w.offset / 3328 + k) = sliceBytes body (cut k) (cut (k + 1) - cut k) := by
    have inside : w.offset / 3328 + k ∈ w.chunksTouched := touched ▸ List.mem_map_of_mem hk
    obtain ⟨nonempty, -, lo, hi⟩ := ReadWork.span_touched some_ inside
    have start : 3328 * (w.offset / 3328 + k) + (w.span (w.offset / 3328 + k)).1 = cut k := by
      rw [cut_eq]
      omega
    have stop : 3328 * (w.offset / 3328 + k) + (w.span (w.offset / 3328 + k)).2 = cut (k + 1) := by
      rw [cut_eq]
      omega
    rw [ReadWork.bytesOf_eq some_ within inside fun p hp => pages _ p inside hp, start]
    congr 1
    omega
  have start : cut 0 = w.offset := by
    rw [cut_eq]
    omega
  have stop : cut count = w.offset + w.length := by
    have last : count = (w.offset + w.length - 1) / 3328 + 1 - w.offset / 3328 := rfl
    rw [cut_eq]
    omega
  rw [touched, List.flatMap_map, List.flatMap_congr chunk, flatMap_slices body cut mono, start, stop,
    Nat.add_sub_cancel_left]
  rfl

/-! ### How a READ and a CHECK go on -/

section
variable {d : Device} {id : Nat}

/-- A READ that has lost a page waits for its last job (R58). -/
theorem Device.readOn_waits {w : ReadWork} (lost : w.lost ≠ none) (out : w.jobs ≠ 0) :
    d.readOn id w = d.setWork id (.read w) := by
  unfold Device.readOn
  rw [if_pos (Option.isSome_iff_ne_none.mpr lost), if_neg out]

/-- A READ that has lost a page ends with its last job (R58). -/
theorem Device.readOn_lost {w : ReadWork} (lost : w.lost ≠ none) (out : w.jobs = 0) :
    d.readOn id w = d.endRead id w := by
  unfold Device.readOn
  rw [if_pos (Option.isSome_iff_ne_none.mpr lost), if_pos out]

/-- A READ whose chunk has pages out waits for them (R54). -/
theorem Device.readOn_pages {w : ReadWork} (lost : w.lost = none) (more : w.chunkDone = false) :
    d.readOn id w = d.setWork id (.read w) := by
  unfold Device.readOn
  rw [if_neg (by simp [lost]), if_neg (by simp [more])]

/-- A READ whose last chunk is done ends (R54). -/
theorem Device.readOn_last {w : ReadWork} (lost : w.lost = none) (done : w.chunkDone = true)
    (last : w.chunk + 1 ∉ w.chunksTouched) : d.readOn id w = d.endRead id w := by
  unfold Device.readOn
  rw [if_neg (by simp [lost]), if_pos done, if_neg (by simpa using last)]

/-- A READ goes to its next chunk (R54). -/
theorem Device.readOn_next {w : ReadWork} (lost : w.lost = none) (done : w.chunkDone = true)
    (more : w.chunk + 1 ∈ w.chunksTouched) {x : ChunkRef} (hx : w.version.chunkAt (w.chunk + 1) = some x) :
    let next : ReadWork := { w with chunk := w.chunk + 1 }
    d.readOn id w = ((next.pagesOf next.chunk).foldl
      (fun d g => d.queueRead x.addr g (.readPage id next.chunk g .primary)) d).setWork id
        (.read { next with jobs := w.jobs + (next.pagesOf next.chunk).length }) := by
  intro next
  unfold Device.readOn Device.readChunk
  rw [if_neg (by simp [lost]), if_pos done, if_pos (by simpa using more)]
  dsimp only
  rw [hx]
  dsimp only
  rw [if_neg (by simp [lost])]

/-- A READ whose next chunk is MISSING loses the chunk's first page (R57). -/
theorem Device.readOn_missing {w : ReadWork} (lost : w.lost = none) (done : w.chunkDone = true)
    (more : w.chunk + 1 ∈ w.chunksTouched) (missing : w.version.chunkAt (w.chunk + 1) = none) :
    let next : ReadWork := { w with chunk := w.chunk + 1 }
    d.readOn id w
      = d.readOn id { next with lost := some { chunk := next.chunk, page := (next.pagesOf next.chunk).headD 1 } } := by
  intro next
  conv_lhs => unfold Device.readOn Device.readChunk
  rw [if_neg (by simp [lost]), if_pos done, if_pos (by simpa using more)]
  dsimp only
  rw [missing]
  unfold Device.readOn
  simp [next]

/-- A CHECK waits for its last job (R55). -/
theorem Device.checkOn_waits {w : CheckWork} (out : w.jobs ≠ 0) : d.checkOn id w = d.setWork id (.check w) := by
  unfold Device.checkOn
  rw [if_pos out]

/-- A CHECK that has lost a page ends with its last job (R58, R59). -/
theorem Device.checkOn_lost {w : CheckWork} {l : LostPage} (lost : w.lost = some l) (out : w.jobs = 0) :
    d.checkOn id w
      = ((d.modDamaged w.name w.version.generation (insertNat l.chunk)).unpin w.pins).complete id .dataLost
          (leBytes 1 l.chunk ++ leBytes 1 l.page ++ leBytes 1 w.pagesRead) := by
  unfold Device.checkOn
  rw [if_neg (by simp [out]), lost]

/-- A CHECK that read every page and failed no test is answered OK (R55). -/
theorem Device.checkOn_ok {w : CheckWork} (lost : w.lost = none) (out : w.jobs = 0) (pass : w.failures = []) :
    d.checkOn id w
      = ((d.modDamaged w.name w.version.generation fun _ => []).unpin w.pins).complete id .ok [] := by
  unfold Device.checkOn
  rw [if_neg (by simp [out]), lost, pass]

/-- A CHECK that read every page and failed a test is answered with the first (R55). -/
theorem Device.checkOn_mismatch {w : CheckWork} {k : Nat} {rest : List Nat} (lost : w.lost = none) (out : w.jobs = 0)
    (fails : w.failures = k :: rest) :
    d.checkOn id w
      = ((d.modDamaged w.name w.version.generation fun _ => []).unpin w.pins).complete id .checkMismatch
          (leBytes 1 k ++ leBytes 1 (rest.length + 1)) := by
  unfold Device.checkOn
  rw [if_neg (by simp [out]), lost, fails]

end

/-- Settles O48: the two ends of a READ and the three of a CHECK, with the tests written out. -/
theorem readsEndWithTheirResult : Obligations.ReadsEndWithTheirResult := by
  unfold Obligations.ReadsEndWithTheirResult
  refine fun d id => ⟨fun w l lost out => ?_, fun w lost done last => ?_,
    fun w l lost out => Device.checkOn_lost lost out, fun w lost out => ?_⟩
  · rw [Device.readOn_lost (by rw [lost]; nofun) out]
    unfold Device.endRead
    rw [lost]
    rfl
  · rw [Device.readOn_last lost done last]
    unfold Device.endRead
    rw [lost]
    rfl
  · intro ended v n page share recordOk headerOk fillOk body failed
    have same : w.failures = failed := rfl
    exact ⟨fun pass => Device.checkOn_ok lost out (same.trans pass),
      fun k rest fails => Device.checkOn_mismatch lost out (same.trans fails)⟩

/-! ### Rows of page reads -/

section
variable {s : State} {b : Bank} {j : Job} {id chunk page : Nat} {copy : Copy}

/-- A page of a READ goes to it (R54). -/
theorem State.execReadPageDone_working (h : s.Working b j) (hby : j.by_ = .readPage id chunk page copy)
    (o : ReadOutcome) :
    exec (.readPageDone b o) s = .next (s.afterRead b (s.readPageDone id chunk page copy o (s.readBytes b j))) := by
  refine congrArg Host.Outcome.next (State.readDone_working h ?_)
  unfold Device.onReadPage
  rw [hby]

/-- A page of a CHECK goes to it (R55). -/
theorem State.execCheckPageDone_working (h : s.Working b j) (hby : j.by_ = .checkPage id chunk page copy)
    (o : ReadOutcome) :
    exec (.checkPageDone b o) s = .next (s.afterRead b (s.checkPageDone id chunk page copy o (s.readBytes b j))) := by
  refine congrArg Host.Outcome.next (State.readDone_working h ?_)
  unfold Device.onCheckPage
  rw [hby]

variable {d : Device} {data : List Byte}

/-- A page of a READ that has lost one is reported and not kept (R58, log 44). -/
theorem Device.readPageDone_lost {w : ReadWork} (work : d.work? id = some (.read w)) (lost : w.lost ≠ none)
    (o : ReadOutcome) :
    d.readPageDone id chunk page copy o data
      = (d.reportPage w.name w.version.generation copy o).readOn id { w with jobs := w.jobs - 1 } := by
  unfold Device.readPageDone
  rw [work]
  exact if_pos (Option.isSome_iff_ne_none.mpr lost)

/-- A usable page of a READ is kept (R54, R56). -/
theorem Device.readPageDone_kept {w : ReadWork} (work : d.work? id = some (.read w)) (lost : w.lost = none)
    (n : Fin 9) :
    d.readPageDone id chunk page copy (.corrected n) data
      = (d.reportPage w.name w.version.generation copy (.corrected n)).readOn id
          { w with jobs := w.jobs - 1, got := w.got ++ [{ chunk := chunk, page := page, data := data }] } := by
  unfold Device.readPageDone
  rw [work]
  dsimp only
  rw [lost]
  rfl

/-- A PRIMARY page of a READ is read again from the MIRROR copy (R57). -/
theorem Device.readPageDone_again {w : ReadWork} {m : BlockAddr} (work : d.work? id = some (.read w))
    (lost : w.lost = none) (mirror : w.version.mirrorAt chunk = some m) :
    d.readPageDone id chunk page .primary .uncorrectable data
      = (d.queueRead m page (.readPage id chunk page .mirror)).setWork id
          (.read { w with jobs := w.jobs - 1 + 1 }) := by
  unfold Device.readPageDone
  rw [work]
  dsimp only
  rw [lost, mirror]
  rfl

/-- A page of a READ without another copy is lost (R57, R58). -/
theorem Device.readPageDone_loses {w : ReadWork} (work : d.work? id = some (.read w)) (lost : w.lost = none)
    (none_ : copy = .mirror ∨ w.version.mirrorAt chunk = none) :
    d.readPageDone id chunk page copy .uncorrectable data
      = d.readOn id { w with jobs := w.jobs - 1, lost := some { chunk := chunk, page := page } } := by
  unfold Device.readPageDone
  rw [work]
  dsimp only
  rw [lost]
  rcases none_ with rfl | missing
  · rfl
  · rw [missing]
    cases copy <;> rfl

/-- A page of a CHECK that has lost one is reported and not kept (R58, log 44). -/
theorem Device.checkPageDone_lost {w : CheckWork} (work : d.work? id = some (.check w)) (lost : w.lost ≠ none)
    (o : ReadOutcome) :
    d.checkPageDone id chunk page copy o data
      = (d.reportPage w.name w.version.generation copy o).checkOn id { w with jobs := w.jobs - 1 } := by
  unfold Device.checkPageDone
  rw [work]
  exact if_pos (Option.isSome_iff_ne_none.mpr lost)

/-- A usable page of a CHECK is kept (R55, R56). -/
theorem Device.checkPageDone_kept {w : CheckWork} (work : d.work? id = some (.check w)) (lost : w.lost = none)
    (n : Fin 9) :
    d.checkPageDone id chunk page copy (.corrected n) data
      = (d.reportPage w.name w.version.generation copy (.corrected n)).checkOn id
          { w with
            jobs := w.jobs - 1
            got := w.got ++ [{ chunk := chunk, page := page, data := data }]
            pagesRead := w.pagesRead + 1 } := by
  unfold Device.checkPageDone
  rw [work]
  dsimp only
  rw [lost]
  rfl

/-- A PRIMARY page of a CHECK is read again from the MIRROR copy (R57). -/
theorem Device.checkPageDone_again {w : CheckWork} {m : BlockAddr} (work : d.work? id = some (.check w))
    (lost : w.lost = none) (mirror : w.version.mirrorAt chunk = some m) :
    d.checkPageDone id chunk page .primary .uncorrectable data
      = (d.queueRead m page (.checkPage id chunk page .mirror)).setWork id
          (.check { w with jobs := w.jobs - 1 + 1 }) := by
  unfold Device.checkPageDone
  rw [work]
  dsimp only
  rw [lost, mirror]
  rfl

/-- A page of a CHECK without another copy is lost (R57, R58). -/
theorem Device.checkPageDone_loses {w : CheckWork} (work : d.work? id = some (.check w)) (lost : w.lost = none)
    (none_ : copy = .mirror ∨ w.version.mirrorAt chunk = none) :
    d.checkPageDone id chunk page copy .uncorrectable data
      = d.checkOn id { w with jobs := w.jobs - 1, lost := some { chunk := chunk, page := page } } := by
  unfold Device.checkPageDone
  rw [work]
  dsimp only
  rw [lost]
  rcases none_ with rfl | missing
  · rfl
  · rw [missing]
    cases copy <;> rfl

end

/-- Settles O46: each page goes to its request, and the request by what it has lost and what is left of its chunk. -/
theorem pageReadsAreKeptOrFallBackOrAreLost : Obligations.PageReadsAreKeptOrFallBackOrAreLost := by
  unfold Obligations.PageReadsAreKeptOrFallBackOrAreLost
  refine ⟨fun s b j id chunk page copy h => ?_, fun w i p some_ => ?_, fun d id => ⟨fun w waits => ?_,
    fun w lost done more => ?_, fun w out => Device.checkOn_waits out⟩⟩
  · intro reported
    refine ⟨fun w hby work => ?_, fun w hby work => ?_⟩
    · intro out lost kept
      refine ⟨fun n => ?_, fun gone => ?_, fun m left primary mirror => ?_, fun left none_ => ?_⟩
      · rw [State.execReadPageDone_working h hby]
        by_cases left : w.lost = none
        · rw [Device.readPageDone_kept work left, if_pos left]
          rfl
        · rw [Device.readPageDone_lost work left, if_neg left]
          rfl
      · rw [State.execReadPageDone_working h hby, Device.readPageDone_lost work gone]
        rfl
      · subst primary
        rw [State.execReadPageDone_working h hby, Device.readPageDone_again work left mirror]
        rfl
      · rw [State.execReadPageDone_working h hby, Device.readPageDone_loses work left none_]
    · intro out lost kept
      refine ⟨fun n => ?_, fun gone => ?_, fun m left primary mirror => ?_, fun left none_ => ?_⟩
      · rw [State.execCheckPageDone_working h hby]
        by_cases left : w.lost = none
        · rw [Device.checkPageDone_kept work left, if_pos left]
          rfl
        · rw [Device.checkPageDone_lost work left, if_neg left]
          rfl
      · rw [State.execCheckPageDone_working h hby, Device.checkPageDone_lost work gone]
        rfl
      · subst primary
        rw [State.execCheckPageDone_working h hby, Device.checkPageDone_again work left mirror]
        rfl
      · rw [State.execCheckPageDone_working h hby, Device.checkPageDone_loses work left none_]
  · intro touches
    exact ⟨ReadWork.touched_iff some_, ReadWork.page_iff some_, w.pagesOf_ascending i, w.chunkDone_iff⟩
  · rcases waits with ⟨lost, more⟩ | ⟨lost, out⟩
    · exact Device.readOn_pages lost more
    · exact Device.readOn_waits lost out
  · intro next pages
    exact ⟨fun x hx => Device.readOn_next lost done more hx, Device.readOn_missing lost done more⟩

end Sys2Proof.Machine

/-!
The urgency level and WORN (R112 to R114, R163): what they follow from, and the settling of O60.
-/

namespace Sys2Proof.Machine

section
variable {d : Device}

/-- Work waits (R114) when a block waits for its erase, or, outside WORN, when a record waits for its refresh or a move
is due. -/
theorem Device.workWaits_iff (d : Device) : d.workWaits = true
    ↔ d.pool.scrub ≠ [] ∨ (d.phase ≠ .worn ∧ (d.pool.refresh.any d.refreshWaits = true ∨ d.moveDue = true)) := by
  unfold Device.workWaits
  simp

/-- Without work waiting the urgency level is 0 (R114). -/
theorem Device.urgency_none (none_ : d.workWaits = false) : d.urgency = 0 := by
  unfold Device.urgency
  rw [none_]
  rfl

/-- With work waiting the urgency level follows the FREE blocks (R114). -/
theorem Device.urgency_some (waits : d.workWaits = true) :
    d.urgency = if 64 ≤ d.countState .free then 1 else if 16 ≤ d.countState .free then 2 else 3 := by
  unfold Device.urgency
  exact if_pos waits

/-- The condition of WORN (R112). -/
theorem Device.wornCondition_iff (d : Device) :
    d.wornCondition = true ↔ d.goodTotal < d.quotaSum + 32 ∨ ∃ b : Bank, 64 ≤ d.pool.slots[b] := by
  unfold Device.wornCondition
  rw [Bool.or_eq_true, List.any_eq_true]
  refine or_congr (decide_eq_true_iff ..) ⟨fun ⟨k, hk, full⟩ => ?_, fun ⟨b, full⟩ => ⟨_, ?_, decide_eq_true full⟩⟩
  · obtain ⟨i, hi, rfl⟩ := List.getElem_of_mem hk
    rw [Vector.length_toList] at hi
    exact ⟨⟨i, hi⟩, of_decide_eq_true full⟩
  · exact Vector.mem_toList_iff.mpr (Vector.getElem_mem ..)

/-! ### The notices of a step that interrupts or abandons -/

/-- What stays as the part goes on quietly: the notices, the phase, the level and WORN. -/
structure Device.Quietly (d d' : Device) : Prop where
  notices : ∀ p, (d'.port p).notices = (d.port p).notices
  phase : d'.phase = d.phase
  level : d'.pool.level = d.pool.level
  worn : d'.pool.worn = d.pool.worn

/-- One thing after another. -/
theorem Device.Quietly.trans {d₀ d d' : Device} (h : d₀.Quietly d) (h' : d.Quietly d') : d₀.Quietly d' :=
  ⟨fun p => (h'.notices p).trans (h.notices p), h'.phase.trans h.phase, h'.level.trans h.level, h'.worn.trans h.worn⟩

/-- Nothing done. -/
theorem Device.Quietly.refl (d : Device) : d.Quietly d := ⟨fun _ => rfl, rfl, rfl, rfl⟩

/-- Blocks that become STALE post nothing. -/
theorem Device.toStale_quietly (d : Device) (as : List BlockAddr) : d.Quietly (d.toStale as) := by
  obtain ⟨table, scrub, joined, h⟩ := d.toStale_fields as
  rw [h]
  exact ⟨fun p => by cases p <;> rfl, rfl, rfl, rfl⟩

/-- The finish of a relocation of the run posts nothing (R143). -/
theorem Device.finishReloc_quietly (d : Device) (r : Reloc) (cause : RelocEnd) :
    d.Quietly (d.finishReloc .maint r cause) := by
  refine (d.toStale_quietly (r.blocks.map (·.addr))).trans ?_
  unfold Device.finishReloc
  generalize d.toStale (r.blocks.map (·.addr)) = x
  cases cause <;> exact ⟨fun p => by cases p <;> rfl, rfl, rfl, rfl⟩

/-- The end of a relocation of the run posts nothing, and leaves the phase, the level and WORN alone (R143). -/
theorem Device.endReloc_quietly (d : Device) (r : Reloc) (cause : RelocEnd) :
    d.Quietly (d.endReloc .maint r cause) := by
  have withdrawn : d.Quietly ((d.withdrawDraws (.reloc .maint)).withdrawGrants (Asker.isReloc .maint)) :=
    ⟨fun p => by cases p <;> rfl, rfl, rfl, rfl⟩
  refine withdrawn.trans ?_
  unfold Device.endReloc
  generalize (d.withdrawDraws (.reloc .maint)).withdrawGrants (Asker.isReloc .maint) = x
  unfold Device.relocWait
  dsimp only
  split
  · exact x.finishReloc_quietly _ cause
  · exact ⟨fun p => by cases p <;> rfl, rfl, rfl, rfl⟩

/-- The abandonment of the run's relocation posts nothing, and leaves the phase, the level and WORN alone. -/
theorem Device.abandonMaintReloc_quietly (d : Device) (cause : RelocEnd) : d.Quietly (d.abandonMaintReloc cause) := by
  unfold Device.abandonMaintReloc
  split
  · exact .refl d
  · split
    · exact .refl d
    · exact d.endReloc_quietly _ cause

/-- The interruption of a run posts nothing and leaves the level alone (R144). -/
theorem Device.interruptRun_quietly (d : Device) : d.Quietly d.interruptRun := by
  unfold Device.interruptRun
  split
  · split
    · exact ⟨fun p => by cases p <;> rfl, rfl, rfl, rfl⟩
    · have stopping : d.Quietly { d with maint := { d.maint with run := .stopping } } :=
        ⟨fun p => by cases p <;> rfl, rfl, rfl, rfl⟩
      exact stopping.trans (Device.abandonMaintReloc_quietly _ .interrupted)
  · exact .refl d

/-- What follows from level 3 posts nothing and leaves the level alone (R145). -/
theorem Device.levelReached_quietly (d : Device) : d.Quietly d.levelReached := by
  unfold Device.levelReached
  split
  · exact d.interruptRun_quietly
  · exact .refl d

/-- What is posted to both ports joins the notices of each (R177). -/
theorem Device.postBoth_notices (d : Device) (n : Notices) (p : Port) :
    ((d.postBoth n).port p).notices = (d.port p).notices.union n := by
  cases p <;> rfl

/-! ### Entry into WORN -/

/-- The device as it enters WORN, before its run's relocation is abandoned (R112). -/
def Device.enteredWorn (d : Device) : Device :=
  ({ d with
    pool := { d.pool with worn := true }
    phase := if d.phase = .ready then .worn else d.phase
    maint := { d.maint with wornSeen := if d.maint.run = .idle then d.maint.wornSeen else true } } : Device).postBoth
      { Notices.empty with wornEntered := true }

/-- Entry into WORN abandons the relocation of the run (R112, R146). -/
theorem Device.enterWorn_eq (d : Device) : d.enterWorn = d.enteredWorn.abandonMaintReloc .worn := by
  have seen : (d.maint.wornSeen || decide (d.maint.run ≠ .idle))
      = if d.maint.run = .idle then d.maint.wornSeen else true := by
    by_cases idle : d.maint.run = .idle <;> simp [idle]
  unfold Device.enterWorn Device.enteredWorn
  rw [seen]

end

/-- Settles O60: the level and WORN by their inputs, and the entry into WORN by the relocation of the run. -/
theorem urgencyAndWornFollowTheirConditions : Obligations.UrgencyAndWornFollowTheirConditions := by
  unfold Obligations.UrgencyAndWornFollowTheirConditions
  intro d due refresh waits free noted
  have work : d.workWaits = true ↔ waits := d.workWaits_iff
  obtain ⟨notices, phase, level, worn⟩ := d.enteredWorn.abandonMaintReloc_quietly .worn
  rw [← Device.enterWorn_eq] at notices phase level worn
  refine ⟨fun none_ => ?_, fun some_ many => ?_, fun some_ few most => ?_, fun some_ few => ?_, fun active low => ?_,
    fun active high => ?_, d.wornCondition_iff, ?_, ?_, ?_⟩
  · exact Device.urgency_none (Bool.eq_false_of_not_eq_true (mt work.mp none_))
  · rw [Device.urgency_some (work.mpr some_), if_pos many]
  · rw [Device.urgency_some (work.mpr some_), if_neg (Nat.not_le.mpr most), if_pos few]
  · rw [Device.urgency_some (work.mpr some_), if_neg (by change ¬64 ≤ free; omega), if_neg (Nat.not_le.mpr few)]
  · have quiet := Device.levelReached_quietly
      (({ d with pool := { d.pool with level := d.urgency } } : Device).postBoth
        { Notices.empty with urgencyRaised := true })
    refine ⟨_, ?_, quiet.level, fun p => (quiet.notices p).trans ?_⟩
    · unfold Device.urgencyStep
      rw [if_pos ⟨active, Fin.ne_of_lt low⟩]
      exact congrArg some (if_pos low)
    · rw [Device.postBoth_notices]
      cases p <;> rfl
  · unfold Device.urgencyStep
    rw [if_pos ⟨active, (Fin.ne_of_lt high).symm⟩]
    exact congrArg some (if_neg (Fin.not_lt.mpr (Fin.le_of_lt high)))
  · rw [Device.enterWorn_eq]
    refine ⟨fun none_ => Device.abandonMaintReloc_none none_,
      fun r reloc => ⟨fun stays => ?_, fun going notQueued notMirror => ?_⟩⟩
    · exact Device.abandonMaintReloc_stays reloc (by rwa [Option.isSome_iff_ne_none])
    · have ends : d.enteredWorn.abandonMaintReloc .worn = d.enteredWorn.endReloc .maint r .worn :=
        Device.abandonMaintReloc_ends reloc (by simp [going, notQueued, notMirror])
      rw [ends]
      intro without free
      refine ⟨fun jobs => ?_, fun jobs => ?_⟩
      · unfold Device.endReloc Device.relocWait
        exact if_neg jobs
      · unfold Device.endReloc Device.relocWait
        exact if_pos jobs
  · refine ⟨worn, fun ready => phase.trans (if_pos ready), fun other => phase.trans (if_neg other), fun p => ?_⟩
    rw [notices]
    unfold Device.enteredWorn
    rw [Device.postBoth_notices]
    exact Bool.or_true _
  · refine ⟨fun worn => ?_, fun worn => ?_, fun p => ?_⟩
    · exact if_pos worn
    · exact if_neg (by rw [worn]; nofun)
    · unfold Device.endResuming
      rw [Device.postBoth_notices]
      cases p <;> rfl

end Sys2Proof.Machine

/-!
Blocks that are erased and blocks that go BAD (R97, R106, R109, R110): what becomes of the block, its queue and its
bank's list, and the settling of O49 and O52.
-/

namespace Sys2Proof.Machine

/-! ### One block of the table -/

section
variable {d : Device} {a : BlockAddr} {e : BlockEntry}

/-- The table names the blocks (R96). -/
theorem Pool.block?_congr {p p' : Pool} (h : p'.table = p.table) (x : BlockAddr) : p'.block? x = p.block? x := by
  unfold Pool.block?
  rw [h]

/-- A descriptor block is in no line (R96). -/
theorem Device.block?_descriptor (d : Device) {x : BlockAddr} (h : x.block = 0) :
    d.pool.block? x = some .descriptor := by
  unfold Pool.block?
  exact if_pos h

/-- The block that is changed. -/
theorem Device.block?_modBlock_self (general : a.block ≠ 0) (f : BlockEntry → BlockEntry)
    (he : d.pool.block? a = some e) : (d.modBlock a f).pool.block? a = some (f e) := by
  rw [Device.block?_modBlock, if_neg general, if_pos rfl, he]
  rfl

/-- The other blocks stay. -/
theorem Device.block?_modBlock_other (d : Device) (f : BlockEntry → BlockEntry) {x : BlockAddr} (other : x ≠ a) :
    (d.modBlock a f).pool.block? x = d.pool.block? x := by
  rw [Device.block?_modBlock, if_neg other]
  split
  next descriptor => exact (d.block?_descriptor descriptor).symm
  next => rfl

/-! ### A block that goes BAD -/

/-- The entry of a block that goes BAD, which may keep its owner (R97). -/
def BlockEntry.goneBad (keep : Bool) (x : BlockEntry) : BlockEntry :=
  { x with state := .bad, owner := if keep then x.owner else none, flag := false, erase := none }

/-- The part as a block goes BAD, before its grown-bad entry is queued (R97, R109). -/
def Device.losesBlock (d : Device) (a : BlockAddr) (keep : Bool) : Device :=
  let d := d.modBlock a (·.goneBad keep)
  ({ d with pool := { d.pool with scrub := d.pool.scrub.filter fun x => decide (x ≠ a) } } : Device).toRecheck

/-- A block that is BAD already, or a descriptor, stays (R109). -/
theorem Device.makeBad_stays (he : d.pool.block? a = some e) (stays : e.state = .bad ∨ e.state = .descriptor)
    (cause : BadCause) (page seg : Nat) : d.makeBad a cause page seg = d := by
  unfold Device.makeBad
  rw [he]
  exact if_pos stays

/-- Any other block goes BAD and has its entry queued (R109, R110). -/
theorem Device.makeBad_eq (he : d.pool.block? a = some e) (goes : ¬(e.state = .bad ∨ e.state = .descriptor))
    (cause : BadCause) (page seg : Nat) :
    d.makeBad a cause page seg
      = (d.losesBlock a (e.owner.any fun o => d.isCommittedZero a o)).queueGrownBad a cause page seg := by
  unfold Device.makeBad
  rw [he]
  dsimp only
  rw [if_neg goes]
  unfold Device.losesBlock BlockEntry.goneBad
  rfl

/-- A grown-bad entry, with room in its bank's list (R110). -/
theorem Device.queueGrownBad_room (d : Device) (a : BlockAddr) (cause : BadCause) (page seg : Nat)
    (room : d.pool.slots[a.bank] < 64) :
    d.queueGrownBad a cause page seg
      = ({ d with pool := { d.pool with
          slots := d.pool.slots.set a.bank (d.pool.slots[a.bank] + 1) } } : Device).queueJob a.bank
          (segmentJob 0 (1 + d.pool.slots[a.bank] / 16) (d.pool.slots[a.bank] % 16)
            (grownBadRecord a.block.val cause (if cause = .program then page else 0)
              (if cause = .program then seg else 0)) .grownBad) := by
  unfold Device.queueGrownBad
  exact if_pos room

/-- A bank whose list is full gets no entry (R110). -/
theorem Device.queueGrownBad_full (d : Device) (a : BlockAddr) (cause : BadCause) (page seg : Nat)
    (full : 64 ≤ d.pool.slots[a.bank]) : d.queueGrownBad a cause page seg = d := by
  unfold Device.queueGrownBad
  exact if_neg (Nat.not_lt.mpr full)

/-- A grown-bad entry leaves the table and the scrub queue alone (R110). -/
theorem Device.queueGrownBad_same (d : Device) (a : BlockAddr) (cause : BadCause) (page seg : Nat) :
    (d.queueGrownBad a cause page seg).pool.table = d.pool.table
      ∧ (d.queueGrownBad a cause page seg).pool.scrub = d.pool.scrub := by
  by_cases room : d.pool.slots[a.bank] < 64
  · rw [Device.queueGrownBad_room d a cause page seg room]
    exact ⟨rfl, rfl⟩
  · rw [Device.queueGrownBad_full d a cause page seg (Nat.not_lt.mp room)]
    exact ⟨rfl, rfl⟩

end

/-- A grown-bad entry that has been programmed changes nothing outside the array and the engines (R110). -/
theorem State.execGrownBadEntryDone_working {s : State} {b : Bank} {j : Job} (h : s.Working b j)
    (hby : j.by_ = .grownBad) (o : OkFail) :
    exec (.grownBadEntryDone b o) s = .next (s.afterWork b j o s.toDevice) := by
  refine congrArg Host.Outcome.next (State.programDone_working h o ?_)
  unfold Device.onGrownBad
  exact if_pos hby

/-- Settles O52: a block that goes BAD is one change of its line and one grown-bad entry. -/
theorem badBlocksAreRecorded : Obligations.BadBlocksAreRecorded := by
  unfold Obligations.BadBlocksAreRecorded
  refine ⟨fun d a cause page seg e he => ⟨fun stays => ?_, fun good general place => ?_⟩,
    fun s b j o h hby => State.execGrownBadEntryDone_working h hby o⟩
  · refine Device.makeBad_stays he (stays.imp_right fun descriptor => ?_) cause page seg
    rw [Device.block?_descriptor d descriptor] at he
    obtain rfl := Option.some.inj he
    rfl
  · intro d' k
    let keep := e.owner.any fun o => d.isCommittedZero a o
    have made : d' = (d.losesBlock a keep).queueGrownBad a cause page seg :=
      Device.makeBad_eq he (not_or.mpr ⟨good, general⟩) cause page seg
    obtain ⟨table, scrub⟩ := (d.losesBlock a keep).queueGrownBad_same a cause page seg
    have lines : d'.pool.table = (d.modBlock a (·.goneBad keep)).pool.table := by
      rw [made, table]
      rfl
    have slots : (d.losesBlock a keep).pool.slots = d.pool.slots := rfl
    have engines : (d.losesBlock a keep).engines = d.engines := rfl
    refine ⟨?_, fun y other => ?_, ?_, fun full => ?_, fun room => ?_⟩
    · rw [Pool.block?_congr lines, Device.block?_modBlock_self place _ he]
      rfl
    · rw [Pool.block?_congr lines, Device.block?_modBlock_other d _ other]
    · rw [made, scrub]
      rfl
    · rw [made, Device.queueGrownBad_full _ a cause page seg (by rw [slots]; exact full)]
      exact ⟨engines, slots⟩
    · rw [made, Device.queueGrownBad_room _ a cause page seg (by rw [slots]; exact room), slots]
      refine ⟨rfl, ?_⟩
      unfold Device.queueJob
      dsimp only
      rw [engines]

/-! ### Erases and wear stamps -/

section
variable {s : State} {b : Bank} {j : Job}

/-- The erase of a scrub-queue block goes to the Block Pool Manager (R106). -/
theorem State.execScrubEraseDone_working (h : s.Working b j) (hby : j.by_ = .scrubErase) (o : OkFail) :
    exec (.scrubEraseDone b o) s = .next (s.afterWork b j o (s.scrubEraseDone b j o)) := by
  refine congrArg Host.Outcome.next (State.programDone_working h o ?_)
  unfold Device.onScrubErase
  exact if_pos hby

/-- A wear stamp goes to the Block Pool Manager (R106). -/
theorem State.execWearStampDone_working (h : s.Working b j) (hby : j.by_ = .wearStamp) (o : OkFail) :
    exec (.wearStampDone b o) s = .next (s.afterWork b j o (s.wearStampDone b j o)) := by
  refine congrArg Host.Outcome.next (State.programDone_working h o ?_)
  unfold Device.onWearStamp
  exact if_pos hby

variable {d : Device} {a : BlockAddr} {e : BlockEntry}

/-- A block erased as often as it may be goes BAD (R106). -/
theorem Device.eraseCounted_worn (he : d.pool.block? a = some e) (worn : 120000 ≤ e.count + 1) :
    d.eraseCounted a = (d.modBlock a fun x => { x with count := x.count + 1 }).makeBad a .wear 0 0 := by
  unfold Device.eraseCounted
  rw [he]
  exact if_pos worn

/-- Any other block is stamped with its new count (R106). -/
theorem Device.eraseCounted_stamped (he : d.pool.block? a = some e) (good : e.count + 1 < 120000) :
    d.eraseCounted a
      = ((d.modBlock a fun x => { x with count := x.count + 1 }).modBlock a fun x =>
          { x with erase := x.erase.map fun w => { w with stamp := true } }).queueJob a.bank
            (segmentJob a.block 0 0 (wearStamp (e.count + 1)) .wearStamp) := by
  unfold Device.eraseCounted
  rw [he]
  exact if_neg (Nat.not_le.mpr good)

/-- The entry of a block that becomes FREE (R106). -/
theorem Device.block?_blockFreed (general : a.block ≠ 0) (he : d.pool.block? a = some e) :
    (d.blockFreed a).pool.block? a
      = some { e with state := .free, estimated := false, owner := none, flag := false, erase := none } := by
  have freed := Device.block?_modBlock_self general
    (fun e => { e with state := .free, estimated := false, owner := none, flag := false, erase := none }) he
  unfold Device.blockFreed
  dsimp only
  split <;> exact freed

/-- A block that no purge has leaves none (R77). -/
theorem Device.memberGone_none (none_ : d.member? a = none) : d.memberGone a = d := by
  unfold Device.memberGone
  rw [none_]

end

/-- Settles O49: each end of an erase and of a wear stamp, for a block that no purge has. -/
theorem erasedBlocksAreStampedAndFreed : Obligations.ErasedBlocksAreStampedAndFreed := by
  unfold Obligations.ErasedBlocksAreStampedAndFreed
  intro s b j e h a he general free counted
  have unpurged : ¬(s.member? a).isSome = true := by rw [free]; nofun
  refine ⟨fun hby => ⟨fun worn => ?_, fun good => ?_, ?_⟩, fun hby => ⟨?_, Device.block?_blockFreed general he, ?_⟩⟩
  · rw [State.execScrubEraseDone_working h hby]
    unfold Device.scrubEraseDone
    dsimp only
    rw [if_neg unpurged, Device.eraseCounted_worn he worn]
  · rw [State.execScrubEraseDone_working h hby]
    unfold Device.scrubEraseDone
    dsimp only
    rw [if_neg unpurged, Device.eraseCounted_stamped he good]
  · rw [State.execScrubEraseDone_working h hby]
    unfold Device.scrubEraseDone
    dsimp only
    rw [if_neg unpurged]
  · rw [State.execWearStampDone_working h hby]
    unfold Device.wearStampDone
    dsimp only
    rw [if_neg unpurged]
  · have none_ : (s.programFailed b j).member? a = none := by
      rw [← free]
      unfold Device.member?
      rw [Device.programFailed_purge]
    rw [State.execWearStampDone_working h hby]
    unfold Device.wearStampDone
    dsimp only
    rw [Device.memberGone_none none_]
    rfl

end Sys2Proof.Machine

/-!
PURGE as it is taken (R74, R75): the retire list, the records included and what becomes of their entries, and the
settling of O50.
-/

namespace Sys2Proof.Machine

/-! ### The retire list -/

/-- An inserted entry is one more (R74). -/
theorem insertRetired_perm (e : Entry) (es : List Entry) : (insertRetired e es).Perm (e :: es) := by
  induction es with
  | nil => exact .refl _
  | cons x es ih =>
    unfold insertRetired
    split
    · exact .refl _
    · exact (ih.cons x).trans (.swap e x es)

/-- An entry is inserted by its retire order (R74). -/
theorem insertRetired_ordered (e : Entry) {es : List Entry}
    (h : es.Pairwise fun x y => (x.retireOrder.getD 0).toNat ≤ (y.retireOrder.getD 0).toNat) :
    (insertRetired e es).Pairwise fun x y => (x.retireOrder.getD 0).toNat ≤ (y.retireOrder.getD 0).toNat := by
  induction es with
  | nil => exact List.pairwise_singleton _ _
  | cons x es ih =>
    obtain ⟨first, rest⟩ := List.pairwise_cons.mp h
    unfold insertRetired
    split
    next before =>
      refine List.pairwise_cons.mpr ⟨fun y hy => ?_, h⟩
      rcases List.mem_cons.mp hy with rfl | later
      · exact before
      · exact before.trans (first y later)
    next after =>
      refine List.pairwise_cons.mpr ⟨fun y hy => ?_, ih rest⟩
      rcases List.mem_cons.mp ((insertRetired_perm e es).mem_iff.mp hy) with rfl | later
      · exact Nat.le_of_not_le after
      · exact first y later

/-- The retire list holds the RETIRED entries in retire order (R74). -/
theorem Device.retireList_sorted (d : Device) :
    d.retireList.Perm (d.dir.filter fun e => decide (e.state = .retired))
      ∧ d.retireList.Pairwise fun x y => (x.retireOrder.getD 0).toNat ≤ (y.retireOrder.getD 0).toNat := by
  unfold Device.retireList
  induction d.dir.filter fun e => decide (e.state = .retired) with
  | nil => exact ⟨.refl _, .nil⟩
  | cons e es ih =>
    rw [List.foldr_cons]
    exact ⟨(insertRetired_perm e _).trans (ih.1.cons e), insertRetired_ordered e ih.2⟩

/-! ### The records a PURGE includes -/

section
variable {d : Device} {p : Port} {id : Nat}

/-- The checks of PURGE (R75). -/
def Device.purgeChecks (d : Device) : List (Bool × Result) :=
  [ (d.phase.notReady, .notReady), (decide (d.phase = .worn), .worn), (d.layout.pending, .layoutPending),
    (d.purge.isSome, .purgeBusy) ]

/-- A PURGE that fails a check does nothing but answer (R75). -/
theorem Device.workPurge_refused {r : Result} (fails : firstFailure d.purgeChecks = some r) :
    d.workPurge p id = d.complete id r [] := by
  unfold Device.purgeChecks at fails
  unfold Device.workPurge
  rw [fails]

/-- A PURGE that includes no record does nothing but answer (R75). -/
theorem Device.workPurge_nothing (pass : firstFailure d.purgeChecks = none)
    (none_ : d.retireList.filter (d.purgeIncludes p) = []) :
    d.workPurge p id
      = d.complete id .nothingToPurge (leBytes 2 (d.retireList.filter fun e => !d.purgeIncludes p e).length) := by
  unfold Device.purgeChecks at pass
  unfold Device.workPurge
  rw [pass]
  dsimp only
  rw [none_]
  rfl

/-- A PURGE that includes a record begins (R75, R76). -/
theorem Device.workPurge_starts {e : Entry} {es : List Entry} (pass : firstFailure d.purgeChecks = none)
    (included : d.retireList.filter (d.purgeIncludes p) = e :: es) :
    d.workPurge p id
      = d.startPurge id e.name (es.map (·.name)) (d.retireList.filter fun e => !d.purgeIncludes p e).length := by
  unfold Device.purgeChecks at pass
  unfold Device.workPurge
  rw [pass]
  dsimp only
  rw [included]
  rfl

variable (r : Request) (q : Port)

/-- A PURGE checks nothing that a take changes. -/
@[simp] theorem Device.takeIn_purgeChecks (d : Device) : (d.takeIn q r).purgeChecks = d.purgeChecks := by
  unfold Device.purgeChecks
  simp

/-- A take leaves the retire list alone. -/
@[simp] theorem Device.takeIn_retireList (d : Device) : (d.takeIn q r).retireList = d.retireList := by
  unfold Device.retireList
  simp

/-- A PURGE includes what it would before its take. -/
@[simp] theorem Device.takeIn_purgeIncludes (d : Device) : (d.takeIn q r).purgeIncludes p = d.purgeIncludes p := by
  funext e
  unfold Device.purgeIncludes
  simp

end

/-! ### The entries of the records included -/

section
variable (d : Device)

/-- The purge of a record leaves the directory alone as it begins (R76). -/
theorem Device.beginPurgeRecord_dir (w : PurgeWork) : (d.beginPurgeRecord w).dir = d.dir := by
  have erase : (d.beginErase w).dir = d.dir := by
    unfold Device.beginErase
    split <;> rfl
  have mirror : (d.purgeMirrorMark w).dir = d.dir := by
    unfold Device.purgeMirrorMark
    split
    · exact erase
    · split
      · exact erase
      · rfl
  unfold Device.beginPurgeRecord
  split
  · exact erase
  · split
    · exact mirror
    · split
      · exact mirror
      · rfl

/-- An entry as a purge includes it (R75). -/
def Entry.purging (e : Entry) : Entry := { e with state := .purging, busy := .purge, retireOrder := none }

/-- The entries of the records a purge includes are PURGING, and every other entry stays (R75). -/
theorem Device.entry?_foldPurging (rs : List RecordName) (r : RecordName) :
    (rs.foldl (fun d r => d.modEntry r Entry.purging) d).entry? r
      = if r ∈ rs then (d.entry? r).map Entry.purging else d.entry? r := by
  induction rs generalizing d with
  | nil => rfl
  | cons x rs ih =>
    rw [List.foldl_cons, ih, Device.entry?_modEntry]
    by_cases own : r = x
    · have twice : (fun e : Entry => if r = x then { e.purging with name := e.name } else e) = Entry.purging :=
        funext fun e => if_pos own
      rw [twice, Option.map_map]
      have same : Entry.purging ∘ Entry.purging = Entry.purging := rfl
      rw [same, ite_self, if_pos (own ▸ List.mem_cons_self ..)]
    · have stays : (fun e : Entry => if r = x then { e.purging with name := e.name } else e) = fun e => e :=
        funext fun e => if_neg own
      rw [stays, Option.map_id']
      simp [own]

end

/-- Settles O50: the request by its checks and what it includes, and the entries by the records included. -/
theorem purgeTakesTheRetireList : Obligations.PurgeTakesTheRetireList := by
  unfold Obligations.PurgeTakesTheRetireList
  refine ⟨fun s p tag h => ?_, Device.retireList_sorted, fun d id first rest skipped r => ⟨rfl, ?_⟩⟩
  · intro checks included skipped
    have same : checks = s.purgeChecks := by
      unfold Device.purgeChecks
      rw [Phase.notReady_eq]
    have includes : included = s.purgeIncludes p := rfl
    have skips : skipped = (s.retireList.filter fun e => !s.purgeIncludes p e).length := rfl
    let d := s.takeIn p { tag := tag, body := .purge }
    have skippedIn : (d.retireList.filter fun e => !d.purgeIncludes p e).length
        = (s.retireList.filter fun e => !s.purgeIncludes p e).length := by
      rw [Device.takeIn_retireList, Device.takeIn_purgeIncludes]
    rw [same, includes, skips]
    refine ⟨fun r fails => ?_, fun pass none_ => ?_, fun e es pass some_ => ?_⟩
    · exact State.takes_answered h Device.doPurge (Device.workPurge_refused (by simpa using fails))
    · rw [← skippedIn]
      exact State.takes_answered h Device.doPurge
        (Device.workPurge_nothing (by simpa using pass) (by simpa using none_))
    · rw [← skippedIn]
      exact State.takes_begun h Device.doPurge
        (Device.workPurge_starts (by simpa using pass) (by simpa using some_))
  · have entries := d.entry?_foldPurging (first :: rest) r
    unfold Device.startPurge
    dsimp only
    rw [Device.entry?_congr (Device.beginPurgeRecord_dir ..)]
    exact entries

end Sys2Proof.Machine

/-!
The Maintenance Unit (R133 to R140, R144, R145): the work it is offered, how its runs go on, and the settling of O44.
-/

namespace Sys2Proof.Machine

/-! ### Ascending sets of records -/

/-- What an ascending set of records holds once a record has joined it. -/
theorem mem_insertName (r x : RecordName) (rs : List RecordName) : x ∈ insertName r rs ↔ x = r ∨ x ∈ rs := by
  induction rs with
  | nil => simp [insertName]
  | cons y rs ih =>
    unfold insertName
    split
    · simp
    · split
      next same => simp [same]
      next => rw [List.mem_cons, ih, List.mem_cons, or_left_comm]

/-- An ascending set of records stays ascending as a record joins it. -/
theorem insertName_ordered (r : RecordName) {rs : List RecordName} (h : (rs.map (·.num)).Pairwise (· < ·)) :
    ((insertName r rs).map (·.num)).Pairwise (· < ·) := by
  rw [List.pairwise_map] at h ⊢
  induction rs with
  | nil => exact List.pairwise_singleton _ _
  | cons y rs ih =>
    obtain ⟨first, rest⟩ := List.pairwise_cons.mp h
    unfold insertName
    split
    next before =>
      refine List.pairwise_cons.mpr ⟨fun x hx => ?_, h⟩
      rcases List.mem_cons.mp hx with rfl | later
      · exact before
      · exact before.trans (first x later)
    next after =>
      split
      next => exact h
      next other =>
        refine List.pairwise_cons.mpr ⟨fun x hx => ?_, ih rest⟩
        rcases (mem_insertName r x rs).mp hx with rfl | later
        · have apart : x.num ≠ y.num := fun same => other (recordNum_inj same)
          omega
        · exact first x later

/-! ### Scrub blocks that are offered -/

section
variable {d : Device}

/-- A block that a run could erase now (R133, R137): it has no pins, and its bank no erase of a scrub-queue block. -/
def Device.scrubTakes (d : Device) (a : BlockAddr) : Prop :=
  d.pinsOf a = 0 ∧ ¬∃ l ∈ d.pool.table, l.addr.bank = a.bank
    ∧ l.entry.state = .erasing ∧ ∃ w, l.entry.erase = some w ∧ w.eraser ≠ .purge

/-- A bank with an erase of a scrub-queue block (R137). -/
theorem Device.scrubBusy_iff (d : Device) (b : Bank) : d.scrubBusy b = true
    ↔ ∃ l ∈ d.pool.table, l.addr.bank = b ∧ l.entry.state = .erasing
      ∧ ∃ w, l.entry.erase = some w ∧ w.eraser ≠ .purge := by
  unfold Device.scrubBusy
  rw [List.any_eq_true]
  refine exists_congr fun l => and_congr_right fun _ => ?_
  simp only [Bool.and_eq_true, decide_eq_true_eq, Option.any_eq_true, and_assoc]

/-- The block a bank offers (R105, R133). -/
def Device.offerIn (d : Device) (b : Bank) : Option BlockAddr := if d.scrubBusy b then none else d.nextScrub b

/-- A bank offers no block just where no block of it could be erased now. -/
theorem Device.offerIn_none (d : Device) (b : Bank) :
    d.offerIn b = none ↔ ∀ a ∈ d.pool.scrub, a.bank = b → ¬d.scrubTakes a := by
  unfold Device.offerIn
  split
  next busy =>
    refine ⟨fun _ a _ bank takes => takes.2 ?_, fun _ => rfl⟩
    rw [bank]
    exact (d.scrubBusy_iff b).mp busy
  next idle =>
    unfold Device.nextScrub
    rw [List.find?_eq_none]
    refine forall₂_congr fun a _ => ?_
    simp only [Bool.and_eq_true, decide_eq_true_eq, not_and]
    refine forall_congr' fun bank => ⟨fun pinned takes => pinned takes.1, fun bars pins => bars ⟨pins, ?_⟩⟩
    rw [bank]
    exact fun busy => idle ((d.scrubBusy_iff b).mpr busy)

/-- The block a bank offers is the oldest that could be erased now. -/
theorem Device.offerIn_some {b : Bank} {a : BlockAddr} (h : d.offerIn b = some a) :
    a.bank = b ∧ d.scrubTakes a
      ∧ ∃ front back, d.pool.scrub = front ++ a :: back ∧ ∀ x ∈ front, x.bank = a.bank → ¬d.scrubTakes x := by
  unfold Device.offerIn at h
  split at h
  · nomatch h
  next idle =>
    unfold Device.nextScrub at h
    obtain ⟨own, front, back, scrub, older⟩ := List.find?_eq_some_iff_append.mp h
    obtain ⟨bank, pins⟩ : a.bank = b ∧ d.pinsOf a = 0 := by simpa using own
    refine ⟨bank, ⟨pins, ?_⟩, front, back, scrub, fun x hx same takes => ?_⟩
    · rw [bank]
      exact fun busy => idle ((d.scrubBusy_iff b).mpr busy)
    · have off := older x hx
      simp [same.trans bank, takes.1] at off

/-- No bank offers a block just where none could be erased now (R133). -/
theorem Device.scrubOffer_none (d : Device) : d.scrubOffer = none ↔ ∀ a ∈ d.pool.scrub, ¬d.scrubTakes a := by
  have offer : d.scrubOffer = allBanks.findSome? d.offerIn := rfl
  rw [offer, List.findSome?_eq_none_iff]
  constructor
  · exact fun none_ a ha => (d.offerIn_none a.bank).mp (none_ _ (mem_allBanks _)) a ha rfl
  · exact fun bars b _ => (d.offerIn_none b).mpr fun a ha _ => bars a ha

/-- The block that is offered is the oldest of the lowest bank that has one (R133). -/
theorem Device.scrubOffer_some {a : BlockAddr} (h : d.scrubOffer = some a) :
    d.scrubTakes a ∧ (∀ x ∈ d.pool.scrub, d.scrubTakes x → a.bank ≤ x.bank)
      ∧ ∃ front back, d.pool.scrub = front ++ a :: back ∧ ∀ x ∈ front, x.bank = a.bank → ¬d.scrubTakes x := by
  have offer : d.scrubOffer = allBanks.findSome? d.offerIn := rfl
  rw [offer, List.findSome?_eq_some_iff] at h
  obtain ⟨lower, b, higher, banks, some_, none_⟩ := h
  obtain ⟨bank, takes, oldest⟩ := Device.offerIn_some some_
  refine ⟨takes, fun x hx hasTakes => ?_, oldest⟩
  rw [bank]
  by_contra below
  have inLower : x.bank ∈ lower := by
    have ascending : allBanks.Pairwise (· ≤ ·) := by decide
    have here := mem_allBanks x.bank
    rw [banks] at ascending here
    rcases List.mem_append.mp here with before | after
    · exact before
    · rcases List.mem_cons.mp after with same | later
      · exact absurd (le_of_eq same.symm) below
      · exact absurd ((List.pairwise_cons.mp (List.pairwise_append.mp ascending).2.1).1 _ later) below
  exact (d.offerIn_none x.bank).mp (none_ _ inLower) x hx rfl hasTakes

/-! ### The wear-levelling candidate -/

/-- A block whose record could be moved (R139). -/
def Device.wearsFor (d : Device) (l : BlockLine) (r : RecordName) : Prop :=
  l ∈ d.pool.table ∧ l.entry.state = .allocated ∧ l.entry.flag = false
    ∧ ∃ o e, l.entry.owner = some o ∧ o.name = r ∧ d.entry? r = some e ∧ d.eligible e = true ∧ l.addr ∈ e.version.blocks

/-- The record a block is a candidate for (R139). -/
theorem Device.wearOwner_iff {l : BlockLine} {r : RecordName} (inside : l ∈ d.pool.table) :
    d.wearOwner l = some r ↔ d.wearsFor l r := by
  unfold Device.wearOwner Device.wearsFor
  by_cases held : l.entry.state = .allocated ∧ l.entry.flag = false
  · rw [if_pos held]
    cases owner : l.entry.owner with
    | none => simp
    | some o =>
      dsimp only
      cases entry : d.entry? o.name with
      | none =>
        simp only [Option.any_none, Bool.false_eq_true, if_false]
        refine ⟨nofun, fun ⟨_, _, _, o', e, own, name, found, _⟩ => ?_⟩
        obtain rfl := Option.some.inj own
        rw [name] at entry
        rw [entry] at found
        nomatch found
      | some e =>
        simp only [Option.any_some, Bool.and_eq_true, List.contains_iff_mem]
        constructor
        · intro h
          split at h
          next fits =>
            obtain rfl := Option.some.inj h
            exact ⟨inside, held.1, held.2, o, e, rfl, rfl, entry, fits.1, fits.2⟩
          next => nomatch h
        · rintro ⟨_, _, _, o', e', own, name, found, fits⟩
          obtain rfl := Option.some.inj own
          rw [name, found] at entry
          obtain rfl := Option.some.inj entry
          rw [if_pos fits, name]
  · rw [if_neg held]
    exact ⟨nofun, fun ⟨_, state, flag, _⟩ => absurd ⟨state, flag⟩ held⟩

/-- The first line of lowest count, of a line and those after it (R139). -/
def leastWorn (l : BlockLine) (rest : List BlockLine) : BlockLine :=
  rest.foldl (fun best x => if x.entry.count < best.entry.count then x else best) l

/-- The first line of lowest count is one of the lines. -/
theorem leastWorn_mem (rest : List BlockLine) (l : BlockLine) : leastWorn l rest ∈ l :: rest := by
  induction rest generalizing l with
  | nil => exact List.mem_cons_self ..
  | cons y rest ih =>
    have step : leastWorn l (y :: rest) = leastWorn (if y.entry.count < l.entry.count then y else l) rest := rfl
    rw [step]
    split
    · exact List.mem_cons_of_mem _ (ih y)
    · rcases List.mem_cons.mp (ih l) with same | rest_
      · rw [same]
        exact List.mem_cons_self ..
      · exact List.mem_cons_of_mem _ (List.mem_cons_of_mem _ rest_)

/-- The first line of lowest count has the lowest count, and comes before the others that have it. -/
theorem leastWorn_least (rest : List BlockLine) (l : BlockLine)
    (ordered : (l :: rest).Pairwise fun x y => x.addr.num < y.addr.num) :
    ∀ x ∈ l :: rest, (leastWorn l rest).entry.count < x.entry.count
      ∨ ((leastWorn l rest).entry.count = x.entry.count ∧ (leastWorn l rest).addr.num ≤ x.addr.num) := by
  induction rest generalizing l with
  | nil =>
    intro x hx
    rw [List.mem_singleton.mp hx]
    exact .inr ⟨rfl, le_rfl⟩
  | cons y rest ih =>
    obtain ⟨first, later⟩ := List.pairwise_cons.mp ordered
    have step : leastWorn l (y :: rest)
        = leastWorn (if y.entry.count < l.entry.count then y else l) rest := rfl
    rw [step]
    split
    next less =>
      have least := ih y later
      intro x hx
      rcases List.mem_cons.mp hx with rfl | rest_
      · rcases least y (List.mem_cons_self ..) with h | h
        · exact .inl (h.trans less)
        · exact .inl (h.1.trans_lt less)
      · exact least x rest_
    next more =>
      have least := ih l (List.pairwise_cons.mpr
        ⟨fun x hx => first x (List.mem_cons_of_mem _ hx), (List.pairwise_cons.mp later).2⟩)
      have own := least l (List.mem_cons_self ..)
      have before := first y (List.mem_cons_self ..)
      intro x hx
      rcases List.mem_cons.mp hx with rfl | after
      · exact own
      · rcases List.mem_cons.mp after with rfl | rest_
        · omega
        · exact least x (List.mem_cons_of_mem _ rest_)

/-- The record of the wear-levelling candidate is that of the first block of lowest count (R139). -/
theorem Device.wearCandidate_eq (d : Device) : d.wearCandidate = none ∧ (∀ l ∈ d.pool.table, d.wearOwner l = none)
    ∨ ∃ l rest, (d.pool.table.filter fun l => (d.wearOwner l).isSome) = l :: rest
      ∧ d.wearCandidate = d.wearOwner (leastWorn l rest) := by
  unfold Device.wearCandidate
  cases lines : d.pool.table.filter fun l => (d.wearOwner l).isSome with
  | nil => exact .inl ⟨rfl, fun l hl => by simpa using List.filter_eq_nil_iff.mp lines l hl⟩
  | cons l rest => exact .inr ⟨l, rest, rfl, rfl⟩

/-- There is no wear-levelling candidate just where no block is one (R139). -/
theorem Device.wearCandidate_none (d : Device) : d.wearCandidate = none ↔ ∀ l r, ¬d.wearsFor l r := by
  rcases d.wearCandidate_eq with ⟨none_, all⟩ | ⟨l, rest, lines, some_⟩
  · refine ⟨fun _ l r wears => ?_, fun _ => none_⟩
    have owner := (Device.wearOwner_iff wears.1).mpr wears
    rw [all l wears.1] at owner
    nomatch owner
  · have found := leastWorn_mem rest l
    rw [← lines] at found
    obtain ⟨inside, owned⟩ := List.mem_filter.mp found
    obtain ⟨r, owner⟩ := Option.isSome_iff_exists.mp owned
    rw [some_, owner]
    exact ⟨nofun, fun none_ => absurd ((Device.wearOwner_iff inside).mp owner) (none_ _ r)⟩

/-- The wear-levelling candidate is the record of the block of lowest count, ties to the lower block (R139). -/
theorem Device.wearCandidate_some {r : RecordName} (ordered : d.TableOrdered) (h : d.wearCandidate = some r) :
    ∃ l, d.wearsFor l r ∧ ∀ l' r', d.wearsFor l' r' →
      l.entry.count < l'.entry.count ∨ (l.entry.count = l'.entry.count ∧ l.addr.num ≤ l'.addr.num) := by
  rcases d.wearCandidate_eq with ⟨none_, -⟩ | ⟨l, rest, lines, some_⟩
  · rw [none_] at h
    nomatch h
  · have sorted : (l :: rest).Pairwise fun x y => x.addr.num < y.addr.num := by
      rw [← lines]
      exact (List.pairwise_map.mp ordered).sublist List.filter_sublist
    have found := leastWorn_mem rest l
    have least := leastWorn_least rest l sorted
    rw [← lines] at found least
    have inside := (List.mem_filter.mp found).1
    refine ⟨_, (Device.wearOwner_iff inside).mp (some_.symm.trans h), fun l' r' wears => least l' ?_⟩
    refine List.mem_filter.mpr ⟨wears.1, ?_⟩
    rw [(Device.wearOwner_iff wears.1).mpr wears]
    rfl

/-! ### What the unit can begin -/

/-- A wear-levelling move is offered (R133, R139). -/
theorem Device.wearOffer_none (d : Device) : d.wearOffer = none
    ↔ d.phase = .worn ∨ d.highestCount - d.lowestCount ≤ d.settings.wearSpread ∨ ∀ l r, ¬d.wearsFor l r := by
  have due : d.moveDue = true ↔ ¬d.highestCount - d.lowestCount ≤ d.settings.wearSpread := by
    unfold Device.moveDue
    rw [decide_eq_true_eq, Nat.not_le]
  unfold Device.wearOffer
  rw [← Device.wearCandidate_none]
  by_cases offers : d.phase ≠ .worn ∧ d.moveDue = true
  · rw [if_pos offers]
    simp [offers.1, due.mp offers.2]
  · rw [if_neg offers, due, not_and_or, not_not, not_not] at *
    exact ⟨fun _ => offers.imp_right .inl, fun _ => rfl⟩

/-- The move that is offered is the candidate's (R139). -/
theorem Device.wearOffer_some {r : RecordName} (h : d.wearOffer = some r) : d.wearCandidate = some r := by
  unfold Device.wearOffer at h
  split at h
  · exact h
  · nomatch h

/-- The next record of the REFRESH part (R138). -/
theorem Device.nextRefresh_eq (d : Device) : d.nextRefresh
    = d.pool.refresh.find? fun r => (d.entry? r).any d.eligible && !(d.maint.visited.contains r) := by
  unfold Device.nextRefresh Device.refreshable
  rw [List.find?_filter]
  simp only [Bool.decide_and, Bool.decide_eq_true]

/-- Whether the unit has work it can begin (R133). -/
theorem Device.canBegin_iff (d : Device) : d.canBegin = true ↔ d.scrubOffer ≠ none ∨ d.wearOffer ≠ none
    ∨ (d.phase ≠ .worn ∧ ∃ r ∈ d.pool.refresh, ∃ e, d.entry? r = some e ∧ d.eligible e = true) := by
  have refreshes : d.refreshable.isEmpty = false
      ↔ ∃ r ∈ d.pool.refresh, ∃ e, d.entry? r = some e ∧ d.eligible e = true := by
    unfold Device.refreshable
    rw [List.isEmpty_eq_false_iff_exists_mem]
    simp only [List.mem_filter, Option.any_eq_true]
  unfold Device.canBegin
  rw [Bool.or_eq_true, Bool.or_eq_true, Bool.and_eq_true, Option.isSome_iff_ne_none, Option.isSome_iff_ne_none,
    decide_eq_true_eq, Bool.not_eq_true', refreshes, or_assoc]
  exact or_congr_right or_comm

/-- An erase that a run queued is out (R136). -/
theorem Device.ownErases_iff (d : Device) : d.ownErases = true ↔ ∃ l ∈ d.pool.table, l.entry.state = .erasing
    ∧ ∃ w, l.entry.erase = some w ∧ w.eraser = .run := by
  unfold Device.ownErases
  rw [List.any_eq_true]
  refine exists_congr fun l => and_congr_right fun _ => ?_
  simp only [Bool.and_eq_true, decide_eq_true_eq, Option.any_eq_true]

/-- Something that a run began is not over (R136). -/
def Device.runsOn (d : Device) : Prop :=
  d.maint.reloc ≠ none ∨ ∃ l ∈ d.pool.table, l.entry.state = .erasing ∧ ∃ w, l.entry.erase = some w ∧ w.eraser = .run

/-- Something that a run began is not over, as its decision points test it. -/
theorem Device.runsOn_iff (d : Device) : (d.ownErases || d.maint.reloc.isSome) = true ↔ d.runsOn := by
  unfold Device.runsOn
  rw [Bool.or_eq_true, Device.ownErases_iff, Option.isSome_iff_ne_none, or_comm]

/-! ### How a run goes on -/

/-- An idle unit starts a run of AUTO, or else of LEVEL, when its condition holds (R134). -/
theorem Device.maintStep_idle (active : d.phase = .ready ∨ d.phase = .worn) (idle : d.maint.run = .idle) :
    d.maintStep
      = if d.autoDue then some (d.startRun .auto) else if d.levelDue then some (d.startRun .level) else none := by
  unfold Device.maintStep
  rw [if_pos active, idle]

/-- A RUNNING run goes on (R136). -/
theorem Device.maintStep_running (active : d.phase = .ready ∨ d.phase = .worn) (running : d.maint.run = .running) :
    d.maintStep = d.runningStep := by
  unfold Device.maintStep
  rw [if_pos active, running]

/-- A run in FOREGROUND goes on (R145). -/
theorem Device.maintStep_foreground (active : d.phase = .ready ∨ d.phase = .worn)
    (foreground : d.maint.run = .foreground) : d.maintStep = d.foregroundStep := by
  unfold Device.maintStep
  rw [if_pos active, foreground]

/-- A run in STOPPING ends with what it began (R144). -/
theorem Device.maintStep_stopping (active : d.phase = .ready ∨ d.phase = .worn) (stopping : d.maint.run = .stopping) :
    d.maintStep = if d.ownErases || d.maint.reloc.isSome then none else some d.endRun := by
  unfold Device.maintStep
  rw [if_pos active, stopping]

/-- The AUTO condition (R134). -/
theorem Device.autoDue_iff (d : Device) : d.autoDue = true
    ↔ d.settings.mode = .auto ∧ d.primary.requests = [] ∧ d.service.requests = [] ∧ d.flights = []
      ∧ d.pool.level ≠ 0 ∧ d.canBegin = true := by
  have level : 1 ≤ d.pool.level.val ↔ d.pool.level ≠ 0 := by
    rw [ne_eq, Fin.ext_iff]
    exact Nat.pos_iff_ne_zero
  unfold Device.autoDue
  simp only [Bool.and_eq_true, decide_eq_true_eq, List.isEmpty_iff, and_assoc, level]

/-- The LEVEL condition (R134). -/
theorem Device.levelDue_iff (d : Device) : d.levelDue = true ↔ d.pool.level = 3 ∧ d.scrubOffer ≠ none := by
  unfold Device.levelDue
  rw [Bool.and_eq_true, decide_eq_true_eq, Option.isSome_iff_ne_none]

section
variable (none_ : d.scrubOffer = none) (alone : ¬d.runsOn)
include none_

/-- A run with an erase or a relocation of its own waits for it (R136). -/
theorem Device.runningStep_waits (own : d.runsOn) : d.runningStep = none := by
  unfold Device.runningStep
  rw [none_]
  exact if_pos (d.runsOn_iff.mpr own)

include alone

/-- A run of LEVEL, or in WORN, ends after its erases (R136, R146). -/
theorem Device.runningStep_ends (last : d.maint.origin = .level ∨ d.phase = .worn) : d.runningStep = some d.endRun := by
  unfold Device.runningStep
  rw [none_]
  dsimp only
  rw [if_neg (mt d.runsOn_iff.mp alone), if_pos last]

variable (more : ¬(d.maint.origin = .level ∨ d.phase = .worn))
include more

/-- A run goes on to the next record of REFRESH (R138). -/
theorem Device.runningStep_refresh {r : RecordName} (next : d.nextRefresh = some r) :
    d.runningStep = some (d.tryRefresh r) := by
  unfold Device.runningStep
  rw [none_]
  dsimp only
  rw [if_neg (mt d.runsOn_iff.mp alone), if_neg more, next]

/-- A run with no record of REFRESH left makes its wear-levelling move (R139). -/
theorem Device.runningStep_wear {r : RecordName} (next : d.nextRefresh = none) (unmoved : d.maint.wearMoved = false)
    (offer : d.wearOffer = some r) : d.runningStep = some (d.tryWear r) := by
  unfold Device.runningStep
  rw [none_]
  dsimp only
  rw [if_neg (mt d.runsOn_iff.mp alone), if_neg more, next, unmoved]
  dsimp only
  rw [if_neg (by decide), offer]

/-- A run with nothing left to do ends (R136). -/
theorem Device.runningStep_done (next : d.nextRefresh = none)
    (moved : d.maint.wearMoved = true ∨ d.wearOffer = none) : d.runningStep = some d.endRun := by
  have nothing : (if d.maint.wearMoved then none else d.wearOffer) = none := by
    rcases moved with moved | none_
    · exact if_pos moved
    · rw [none_, ite_self]
  unfold Device.runningStep
  rw [none_]
  dsimp only
  rw [if_neg (mt d.runsOn_iff.mp alone), if_neg more, next]
  dsimp only
  rw [nothing]

end

/-- The excess of a relocation fits its namespace's quota (R65, R140). -/
theorem Device.excessFits_iff (d : Device) (e : Entry) : d.excessFits e = true
    ↔ e.version.chunks.length * d.copiesOf e.name.ns ≤ 16 ∨ d.held e.name.ns + d.reservedBlocks e.name.ns
      + (e.version.chunks.length * d.copiesOf e.name.ns - 16) ≤ (d.desc e.name.ns).quota := by
  unfold Device.excessFits excessOf Config.allowancePlaces
  rw [Bool.or_eq_true, decide_eq_true_eq, decide_eq_true_eq, Nat.sub_eq_zero_iff_le]

/-- A maintenance relocation begins when its excess fits (R140). -/
theorem Device.beginMaintReloc_fits {e : Entry} (fits : d.excessFits e = true) (kind : RelocKind) :
    d.beginMaintReloc e kind
      = ((d.modEntry e.name fun x => { x with busy := .relocation }).setReloc .maint
          (newReloc e kind (d.copiesOf e.name.ns) (decide (e.hold = .frozen)) false)).askDraw (.reloc .maint)
            (min (e.version.chunks.length * d.copiesOf e.name.ns) 16) := by
  unfold Device.beginMaintReloc
  exact if_pos fits

/-- A record whose excess does not fit is passed over (R140). -/
theorem Device.beginMaintReloc_unfit {e : Entry} (unfit : ¬d.excessFits e = true) (kind : RelocKind) :
    d.beginMaintReloc e kind = { d with maint := { d.maint with passOver := insertName e.name d.maint.passOver } } := by
  unfold Device.beginMaintReloc
  exact if_neg unfit

/-- The REFRESH part tries a record that it has then visited (R138). -/
theorem Device.tryRefresh_eq {r : RecordName} {e : Entry} (he : d.entry? r = some e) :
    d.tryRefresh r
      = ({ d with maint := { d.maint with visited := insertName r d.maint.visited } } : Device).beginMaintReloc e
          .refresh := by
  have found : ({ d with maint := { d.maint with visited := insertName r d.maint.visited } } : Device).entry? r
      = some e := he
  unfold Device.tryRefresh
  dsimp only
  rw [found]

/-- The WEAR part makes a move when the relocation begins (R139, log 30). -/
theorem Device.tryWear_fits {r : RecordName} {e : Entry} (he : d.entry? r = some e) (fits : d.excessFits e = true) :
    d.tryWear r = { d.beginMaintReloc e .wear with
      maint := { (d.beginMaintReloc e .wear).maint with wearMoved := true } } := by
  unfold Device.tryWear
  rw [he]
  dsimp only
  rw [Device.beginMaintReloc_fits fits]
  simp [Device.setReloc, Device.askDraw]

/-- A move that does not fit is none (R140). -/
theorem Device.tryWear_unfit {r : RecordName} {e : Entry} (he : d.entry? r = some e) (unfit : ¬d.excessFits e = true)
    (alone : d.maint.reloc = none) : d.tryWear r = d.beginMaintReloc e .wear := by
  have unmoved : (d.maint.wearMoved || d.maint.reloc.isSome) = d.maint.wearMoved := by
    rw [alone, Option.isSome_none, Bool.or_false]
  unfold Device.tryWear
  rw [he]
  dsimp only
  rw [Device.beginMaintReloc_unfit unfit]
  exact congrArg (fun moved => ({ d with maint := { d.maint with
    passOver := insertName e.name d.maint.passOver, wearMoved := moved } } : Device)) unmoved

/-- What the urgency level's rise leaves of the part, with the level and the notice (R114). -/
def Device.raised (d : Device) : Device :=
  ({ d with pool := { d.pool with level := d.urgency } } : Device).postBoth { Notices.empty with urgencyRaised := true }

/-- A rise of the urgency level (R114, R145). -/
theorem Device.urgencyStep_raises (active : d.phase.poolActive = true) (low : d.pool.level < d.urgency) :
    d.urgencyStep = some d.raised.levelReached := by
  unfold Device.urgencyStep
  rw [if_pos ⟨active, Fin.ne_of_lt low⟩]
  exact congrArg some (if_pos low)

/-- Whether the part that a run is in is SCRUB (R136). -/
theorem Device.inScrubPart_iff (d : Device) : d.inScrubPart = true
    ↔ d.scrubOffer ≠ none ∨ ∃ l ∈ d.pool.table, l.entry.state = .erasing
      ∧ ∃ w, l.entry.erase = some w ∧ w.eraser = .run := by
  unfold Device.inScrubPart
  rw [Bool.or_eq_true, Device.ownErases_iff, Option.isSome_iff_ne_none, or_comm]

/-- The count of a run's erases (R137). -/
theorem Device.blockFreed_maint {a : BlockAddr} {e : BlockEntry} (he : d.pool.block? a = some e) :
    (d.blockFreed a).maint = { d.maint with
      erased := if ∃ w, e.erase = some w ∧ w.eraser = .run then countUp d.maint.erased else d.maint.erased } := by
  have own : ((d.pool.block? a).any fun e => e.erase.any fun w => decide (w.eraser = .run)) = true
      ↔ ∃ w, e.erase = some w ∧ w.eraser = .run := by
    rw [he]
    simp only [Option.any_some, Option.any_eq_true, decide_eq_true_eq]
  unfold Device.blockFreed
  dsimp only
  by_cases mine : ∃ w, e.erase = some w ∧ w.eraser = .run
  · rw [if_pos (own.mpr mine), if_pos mine]
    rfl
  · rw [if_neg (mt own.mp mine), if_neg mine]
    rfl

end

/-- Settles O44: the offers, the decision points of each run state, and what follows from them. -/
theorem maintenanceRunsWorkTheirParts : Obligations.MaintenanceRunsWorkTheirParts := by
  unfold Obligations.MaintenanceRunsWorkTheirParts
  intro eligible erasing ended begun
  have eligible_eq (d : Device) : d.eligible = eligible d := rfl
  have endRun_eq (d : Device) : d.endRun = ended d := by
    unfold Device.endRun
    dsimp only [ended]
    cases d.maint.origin <;> rfl
  refine ⟨fun d => ?_, fun r rs ordered => ⟨insertName_ordered r ordered, fun x => mem_insertName r x rs⟩,
    fun d => ⟨fun notReady notWorn => ?_, fun active => ?_⟩, fun d active low => ?_,
    fun d a e he => Device.blockFreed_maint he, fun n d => ⟨rfl, fun none_ => ?_, fun d' next => ?_⟩⟩
  · intro takes candidate
    exact ⟨d.scrubOffer_none, fun a => Device.scrubOffer_some, d.nextRefresh_eq, d.wearOffer_none,
      fun r ordered offer => Device.wearCandidate_some ordered (Device.wearOffer_some offer), d.canBegin_iff⟩
  · unfold Device.maintStep
    rw [if_neg (not_or.mpr ⟨notReady, notWorn⟩)]
  · intro own started auto level
    refine ⟨fun idle => ?_, fun running => ?_, fun foreground => ?_, fun stopping => ?_⟩
    · rw [Device.maintStep_idle active idle]
      refine ⟨fun due => ?_, fun notAuto due => ?_, fun notAuto notLevel => ?_⟩
      · rw [if_pos (d.autoDue_iff.mpr due)]
        rfl
      · rw [if_neg (mt d.autoDue_iff.mp notAuto), if_pos (d.levelDue_iff.mpr due)]
        rfl
      · rw [if_neg (mt d.autoDue_iff.mp notAuto), if_neg (mt d.levelDue_iff.mp notLevel)]
    · rw [Device.maintStep_running active running]
      refine ⟨fun a offer => ?_, fun none_ own => Device.runningStep_waits none_ own, fun none_ alone last => ?_,
        fun none_ alone notLevel notWorn => ?_⟩
      · unfold Device.runningStep
        rw [offer]
        rfl
      · rw [Device.runningStep_ends none_ alone last, endRun_eq]
      · have more := not_or.mpr ⟨notLevel, notWorn⟩
        refine ⟨fun r e next he => ⟨_, Device.runningStep_refresh none_ alone more next, ?_⟩,
          fun r e next unmoved offer he => ⟨_, Device.runningStep_wear none_ alone more next unmoved offer, ?_⟩,
          fun next moved => ?_⟩
        · rw [Device.tryRefresh_eq he]
          refine ⟨fun fits => ?_, fun unfit => Device.beginMaintReloc_unfit (mt (Device.excessFits_iff _ e).mp unfit) _⟩
          have unmoved : (d.maint.wearMoved || decide (RelocKind.refresh = .wear)) = d.maint.wearMoved :=
            Bool.or_false _
          dsimp only
          rw [Device.beginMaintReloc_fits ((Device.excessFits_iff _ e).mpr fits), unmoved]
          rfl
        · refine ⟨fun fits => ?_, fun unfit => ?_⟩
          · rw [Device.tryWear_fits he ((d.excessFits_iff e).mpr fits),
              Device.beginMaintReloc_fits ((d.excessFits_iff e).mpr fits), decide_eq_true rfl, Bool.or_true]
            rfl
          · have stays := mt (d.excessFits_iff e).mp unfit
            rw [Device.tryWear_unfit he stays (not_not.mp fun reloc => alone (.inl reloc)),
              Device.beginMaintReloc_unfit stays]
        · rw [Device.runningStep_done none_ alone more next moved, endRun_eq]
    · rw [Device.maintStep_foreground active foreground]
      unfold Device.foregroundStep
      refine ⟨fun lower => if_pos lower, fun a at3 offer => ?_, fun at3 none_ own => ?_, fun at3 none_ alone => ?_⟩
      · rw [if_neg (not_not.mpr at3), offer]
        rfl
      · rw [if_neg (not_not.mpr at3), none_]
        exact if_pos (d.runsOn_iff.mpr own)
      · rw [if_neg (not_not.mpr at3), none_, ← endRun_eq]
        exact if_neg (mt d.runsOn_iff.mp alone)
    · rw [Device.maintStep_stopping active stopping, ← endRun_eq]
      exact ⟨fun own => if_pos (d.runsOn_iff.mpr own), fun alone => if_neg (mt d.runsOn_iff.mp alone)⟩
  · intro raised scrubs
    rw [Device.urgencyStep_raises active low]
    have part : d.raised.inScrubPart = true ↔ scrubs := d.raised.inScrubPart_iff
    refine ⟨fun at3 running outside => ?_, fun other => ?_⟩
    · unfold Device.levelReached
      rw [if_pos ⟨at3, running, Bool.eq_false_of_not_eq_true (mt part.mp outside)⟩]
      rfl
    · unfold Device.levelReached
      rw [if_neg]
      · rfl
      · rintro ⟨at3, running, outside⟩
        rcases other with not3 | notRunning | inside
        · exact not3 at3
        · exact notRunning running
        · rw [part.mpr inside] at outside
          nomatch outside
  · rw [Device.settle, none_]
  · rw [Device.settle, next]

end Sys2Proof.Machine

/-!
Relocations at work (R68, R69, R140 to R143): what each completion of a job does to one, branch by branch, and the
settling of O45.
-/

namespace Sys2Proof.Machine

/-! ### The rows -/

section
variable {s : State} {b : Bank} {j : Job} {id : RelocId}

/-- A page read for a relocation goes to it (R69, R141). -/
theorem State.execRelocRead_working {chunk page : Nat} {copy : Copy} (h : s.Working b j)
    (hby : j.by_ = .relocRead id chunk page copy) (o : ReadOutcome) :
    exec (id.readRow b o) s = .next (s.afterRead b
      (s.relocReadDone id chunk page copy o (s.readBytes b j) (Config.freeCrc s.fresh))) := by
  cases id <;>
  · refine congrArg Host.Outcome.next (State.readDone_working h ?_)
    unfold Device.onRelocRead
    rw [hby]
    exact if_pos rfl

/-- A program into a new block goes to its relocation (R69, R141). -/
theorem State.execRelocProgram_working {copy : Copy} (h : s.Working b j) (hby : j.by_ = .relocProgram id copy)
    (o : OkFail) :
    exec (id.programRow b o) s = .next (s.afterWork b j o (s.relocProgramDone b j id copy o)) := by
  cases id <;>
  · refine congrArg Host.Outcome.next (State.programDone_working h o ?_)
    unfold Device.onRelocProgram
    rw [hby]
    exact if_pos rfl

/-- A PRIMARY commit record goes to its relocation (R69, R142). -/
theorem State.execRelocCommit_working (h : s.Working b j) (hby : j.by_ = .relocCommit id) (o : OkFail) :
    exec (id.commitRow b o) s = .next (s.afterWork b j o (s.relocCommitDone b j id o)) := by
  cases id <;>
  · refine congrArg Host.Outcome.next (State.programDone_working h o ?_)
    unfold Device.onRelocCommit
    rw [hby]
    exact if_pos rfl

/-- A MIRROR commit record goes to its relocation (R38, R69, R142). -/
theorem State.execRelocMirrorCommit_working (h : s.Working b j) (hby : j.by_ = .relocMirrorCommit id) (o : OkFail) :
    exec (id.mirrorRow b o) s = .next (s.afterWork b j o (s.relocMirrorCommitDone b j id o)) := by
  cases id <;>
  · refine congrArg Host.Outcome.next (State.programDone_working h o ?_)
    unfold Device.onRelocMirrorCommit
    rw [hby]
    exact if_pos rfl

end

section
variable {d : Device} {id : RelocId} {r : Reloc}

/-! ### A relocation that is ending -/

/-- A relocation that is ending finishes with the last of its jobs (R143, log 15). -/
theorem Device.relocWait_ending {cause : RelocEnd} (ending : r.ending = some cause) :
    d.relocWait id r = if r.jobs = 0 then d.finishReloc id r cause else d.setReloc id r := by
  unfold Device.relocWait
  rw [ending]

/-- A page read that comes back to a relocation that is ending is reported, and nothing more (R143, log 15). -/
theorem Device.relocReadDone_ending {cause : RelocEnd} (work : d.reloc? id = some r) (ending : r.ending = some cause)
    (chunk page : Nat) (copy : Copy) (o : ReadOutcome) (data : List Byte) (free : BitVec 32) :
    d.relocReadDone id chunk page copy o data free
      = (d.reportPage r.name r.source.generation copy o).relocWait id { r with jobs := r.jobs - 1 } := by
  unfold Device.relocReadDone
  rw [work]
  exact if_pos (Option.isSome_iff_exists.mpr ⟨cause, ending⟩)

/-- A program that comes back OK to a relocation that is ending (R143, log 15). -/
theorem Device.relocProgramDone_ending {cause : RelocEnd} (work : d.reloc? id = some r)
    (ending : r.ending = some cause) (b : Bank) (j : Job) (copy : Copy) (o : OkFail) :
    d.relocProgramDone b j id copy o
      = (match o with | .ok => d | .fail => d.programFailed b j).relocWait id { r with jobs := r.jobs - 1 } := by
  unfold Device.relocProgramDone
  rw [work]
  exact if_pos (Option.isSome_iff_exists.mpr ⟨cause, ending⟩)

/-! ### The pages of a chunk -/

/-- The relocation that has kept one more page. -/
def Reloc.keep (r : Reloc) (page : PageData) : Reloc := { r with jobs := r.jobs - 1, got := r.got ++ [page] }

/-- Every page of the chunk at work is kept: pages 1 to 13, and page 15 of chunk 0 (R69). -/
theorem Reloc.pages_kept (r : Reloc) :
    (r.pages.all fun p => (pageGot r.got r.chunk p).isSome) = true
      ↔ (∀ p, 1 ≤ p → p ≤ 13 → (pageGot r.got r.chunk p).isSome = true)
        ∧ (r.chunk = 0 → (pageGot r.got 0 15).isSome = true) := by
  have mem (p : Nat) : p ∈ r.pages ↔ (1 ≤ p ∧ p ≤ 13) ∨ (r.chunk = 0 ∧ p = 15) := by
    unfold Reloc.pages
    rw [List.mem_append, List.mem_map]
    refine or_congr ⟨?_, fun ⟨low, high⟩ => ⟨p - 1, List.mem_range.mpr (by omega), by omega⟩⟩ ?_
    · rintro ⟨k, hk, rfl⟩
      exact ⟨by omega, by have := List.mem_range.mp hk; omega⟩
    · split <;> simp_all
  rw [List.all_eq_true]
  constructor
  · exact fun all => ⟨fun p low high => all p ((mem p).mpr (.inl ⟨low, high⟩)),
      fun zero => zero ▸ all 15 ((mem 15).mpr (.inr ⟨zero, rfl⟩))⟩
  · rintro ⟨body, last⟩ p hp
    rcases (mem p).mp hp with ⟨low, high⟩ | ⟨zero, rfl⟩
    · exact body p low high
    · rw [zero]
      exact last zero

/-- A usable page of a chunk that is not yet complete is kept (R69). -/
theorem Device.relocReadDone_more {chunk page : Nat} {data : List Byte} (work : d.reloc? id = some r)
    (goes : r.ending = none)
    (more : ¬((r.keep ⟨chunk, page, data⟩).pages.all fun p =>
      (pageGot (r.keep ⟨chunk, page, data⟩).got r.chunk p).isSome) = true)
    (copy : Copy) (n : Fin 9) (free : BitVec 32) :
    d.relocReadDone id chunk page copy (.corrected n) data free
      = (d.reportPage r.name r.source.generation copy (.corrected n)).setReloc id (r.keep ⟨chunk, page, data⟩) := by
  unfold Device.relocReadDone
  rw [work]
  exact (if_neg (goes ▸ Bool.false_ne_true)).trans (if_neg more)

/-- The last page of a chunk lets the new blocks be programmed (R69). -/
theorem Device.relocReadDone_full {chunk page : Nat} {data : List Byte} (work : d.reloc? id = some r)
    (goes : r.ending = none)
    (full : ((r.keep ⟨chunk, page, data⟩).pages.all fun p =>
      (pageGot (r.keep ⟨chunk, page, data⟩).got r.chunk p).isSome) = true)
    (copy : Copy) (n : Fin 9) (free : BitVec 32) :
    d.relocReadDone id chunk page copy (.corrected n) data free
      = (d.reportPage r.name r.source.generation copy (.corrected n)).relocPrograms id (r.keep ⟨chunk, page, data⟩)
          free := by
  unfold Device.relocReadDone
  rw [work]
  exact (if_neg (goes ▸ Bool.false_ne_true)).trans (if_pos full)

/-- A page that the PRIMARY copy lost is read from the MIRROR copy (R57, R69). -/
theorem Device.relocReadDone_again {chunk : Nat} {m : BlockAddr} (work : d.reloc? id = some r)
    (goes : r.ending = none) (mirror : r.source.mirrorAt chunk = some m) (page : Nat) (data : List Byte)
    (free : BitVec 32) :
    d.relocReadDone id chunk page .primary .uncorrectable data free
      = (d.queueRead m page (.relocRead id chunk page .mirror)).setReloc id { r with jobs := r.jobs - 1 + 1 } := by
  unfold Device.relocReadDone
  rw [work]
  dsimp only
  rw [goes, mirror]
  rfl

/-- A page that no copy gives ends the relocation (R69, R143). -/
theorem Device.relocReadDone_loses {chunk : Nat} {copy : Copy} (work : d.reloc? id = some r) (goes : r.ending = none)
    (none_ : copy = .mirror ∨ r.source.mirrorAt chunk = none) (page : Nat) (data : List Byte) (free : BitVec 32) :
    d.relocReadDone id chunk page copy .uncorrectable data free
      = d.endReloc id { r with jobs := r.jobs - 1 } (.dataLost chunk) := by
  unfold Device.relocReadDone
  rw [work]
  dsimp only
  rw [goes]
  rcases none_ with rfl | missing
  · rfl
  · rw [missing]
    cases copy <;> rfl

/-! ### The programs of a chunk -/

/-- The body CRC-32 a relocation keeps as it programs the chunk at work (R69, R142). -/
def Reloc.keptCrc (r : Reloc) (free : BitVec 32) : List Byte := if r.chunk = 0 then r.oldCrc free else r.crc

/-- The run of a copy that has its block and its header job queued. -/
def CopyRun.into (x : CopyRun) (a : BlockAddr) : CopyRun := { x with block := some a, job := some 0 }

/-- The header job of a copy of the chunk at work (R69, R141). -/
def Reloc.headerJob (r : Reloc) (id : RelocId) (copy : Copy) (a : BlockAddr) : Job :=
  segmentJob a.block 0 1 (headerRecord (r.header copy)) (.relocProgram id copy)

/-- The relocation that begins to program the chunk at work. -/
theorem Reloc.withCrc (r : Reloc) (free : BitVec 32) :
    (if r.chunk = 0 then { r with crc := r.oldCrc free } else r) = { r with crc := r.keptCrc free } := by
  unfold Reloc.keptCrc
  split <;> rfl

/-- An unmirrored chunk is programmed into its PRIMARY block (R69). -/
theorem Device.relocPrograms_alone {x : NewBlock} (single : r.copies ≠ 2)
    (block : r.blocks[r.place r.chunk .primary]? = some x) (free : BitVec 32) :
    d.relocPrograms id r free
      = (d.queueJob x.addr.bank (r.headerJob id .primary x.addr)).setReloc id
          { r with crc := r.keptCrc free, primary := r.primary.into x.addr, jobs := r.jobs + 1 } := by
  unfold Device.relocPrograms
  rw [Reloc.withCrc]
  dsimp only
  rw [if_neg single]
  unfold Reloc.place at block ⊢
  dsimp only
  rw [block]
  rfl

/-- A mirrored chunk is programmed into its two blocks (R69). -/
theorem Device.relocPrograms_mirrored {x y : NewBlock} {m : CopyRun} (two : r.copies = 2)
    (primary : r.blocks[r.place r.chunk .primary]? = some x) (mirror : r.blocks[r.place r.chunk .mirror]? = some y)
    (run : r.mirror = some m) (free : BitVec 32) :
    d.relocPrograms id r free
      = ((d.queueJob x.addr.bank (r.headerJob id .primary x.addr)).queueJob y.addr.bank
            (r.headerJob id .mirror y.addr)).setReloc id
          { r with crc := r.keptCrc free, primary := r.primary.into x.addr, mirror := some (m.into y.addr)
                   jobs := r.jobs + 2 } := by
  unfold Device.relocPrograms
  rw [Reloc.withCrc]
  dsimp only
  rw [if_pos two]
  unfold Reloc.place at primary mirror ⊢
  dsimp only
  rw [primary]
  unfold Device.relocCopyInto Reloc.run Reloc.setRun
  dsimp only
  rw [mirror]
  dsimp only
  rw [run]
  rfl

/-- The reads of a later chunk of a relocation (R69). -/
theorem Device.relocChunk_later {x : ChunkRef} (later : r.chunk ≠ 0) (block : r.source.chunkAt r.chunk = some x) :
    d.relocChunk id r
      = ([1, 2, 3, 4, 5, 6, 7, 8, 9, 10, 11, 12, 13].foldl
          (fun d p => d.queueRead x.addr p (.relocRead id r.chunk p .primary)) d).setReloc id
        { r with got := [], jobs := r.jobs + 13, primary := .start
                 mirror := if r.copies = 2 then some .start else none } := by
  have pages : r.pages = [1, 2, 3, 4, 5, 6, 7, 8, 9, 10, 11, 12, 13] := by
    unfold Reloc.pages
    rw [if_neg later]
    rfl
  unfold Device.relocChunk
  rw [block]
  dsimp only
  rw [pages]
  rfl

/-- A MISSING chunk ends a relocation (R69, R143). -/
theorem Device.relocChunk_missing (missing : r.source.chunkAt r.chunk = none) :
    d.relocChunk id r = d.endReloc id r (.dataLost r.chunk) := by
  unfold Device.relocChunk
  rw [missing]

/-- Past the last chunk the commit record is programmed (R69, R142). -/
theorem Device.relocChunkDone_last {n : NewBlock} (last : r.source.chunks.length ≤ r.chunk + 1)
    (zero : r.blocks[0]? = some n) :
    d.relocChunkDone id r
      = (d.queueJob n.addr.bank (segmentJob n.addr.block 15 0 r.commitRecord (.relocCommit id))).setReloc id
          { r with stage := .commitQueued, jobs := r.jobs + 1 } := by
  unfold Device.relocChunkDone
  rw [if_neg (Nat.not_lt.mpr last), zero]
  rfl

/-- Before the last chunk the relocation goes to the next (R69). -/
theorem Device.relocChunkDone_next (more : r.chunk + 1 < r.source.chunks.length) :
    d.relocChunkDone id r = d.relocChunk id { r with chunk := r.chunk + 1 } := if_pos more

/-- Every copy of the chunk at work is programmed (R69). -/
def Reloc.BothDone (r : Reloc) : Prop := r.primary.done = true ∧ ∀ m, r.mirror = some m → m.done = true

/-- The relocation says so by its two runs. -/
theorem Reloc.bothDone_iff (r : Reloc) : (r.primary.done && r.mirror.all (·.done)) = true ↔ r.BothDone := by
  unfold Reloc.BothDone
  rw [Bool.and_eq_true, Option.all_eq_true]

section
variable {copy : Copy} {x : CopyRun} {a : BlockAddr} {k : Nat}

/-- A program that comes back OK to a relocation at work (R69, R141). -/
theorem Device.relocProgramDone_ok (work : d.reloc? id = some r) (goes : r.ending = none) (run : r.run copy = some x)
    (b : Bank) (j : Job) :
    d.relocProgramDone b j id copy .ok = d.relocJobOk id { r with jobs := r.jobs - 1 } copy x := by
  unfold Device.relocProgramDone
  rw [work]
  refine (if_neg (goes ▸ Bool.false_ne_true)).trans ?_
  have run' : ({ r with jobs := r.jobs - 1 } : Reloc).run copy = some x := run
  rw [run']

/-- A program that fails in a relocation at work (R69, R141). -/
theorem Device.relocProgramDone_fail (work : d.reloc? id = some r) (goes : r.ending = none)
    (run : r.run copy = some x) (b : Bank) (j : Job) :
    d.relocProgramDone b j id copy .fail
      = (d.programFailed b j).relocJobFailed id { r with jobs := r.jobs - 1 } copy x := by
  unfold Device.relocProgramDone
  rw [work]
  refine (if_neg (goes ▸ Bool.false_ne_true)).trans ?_
  have run' : ({ r with jobs := r.jobs - 1 } : Reloc).run copy = some x := run
  rw [run']

/-- The next page of a copy is programmed (R69, R141). -/
theorem Device.relocJobOk_page (block : x.block = some a) (job : x.job = some k) (more : k < 13) :
    d.relocJobOk id r copy x
      = (d.queueJob a.bank (pageJob a.block (k + 1) (padded 256 (sliceBytes r.chunkData (256 * k) 256))
          (.relocProgram id copy))).setReloc id
          { r.setRun copy { x with job := some (k + 1) } with jobs := r.jobs + 1 } := by
  unfold Device.relocJobOk
  rw [block, job]
  exact if_pos more

/-- The relocation with the run of a copy done (R69). -/
def Reloc.copyDone (r : Reloc) (copy : Copy) (x : CopyRun) : Reloc := r.setRun copy { x with job := none, done := true }

/-- A copy that is done waits for the other (R69). -/
theorem Device.relocJobOk_waits (block : x.block = some a) (job : x.job = some k) (last : 13 ≤ k)
    (waits : ¬(r.copyDone copy x).BothDone) :
    d.relocJobOk id r copy x = d.setReloc id (r.copyDone copy x) := by
  cases x
  cases block
  cases job
  refine (if_neg (Nat.not_lt.mpr last)).trans ?_
  exact if_neg fun h => waits ((Reloc.bothDone_iff _).mp h)

/-- With both copies done the chunk is (R69). -/
theorem Device.relocJobOk_chunk (block : x.block = some a) (job : x.job = some k) (last : 13 ≤ k)
    (both : (r.copyDone copy x).BothDone) :
    d.relocJobOk id r copy x = d.relocChunkDone id (r.copyDone copy x) := by
  cases x
  cases block
  cases job
  refine (if_neg (Nat.not_lt.mpr last)).trans ?_
  exact if_pos ((Reloc.bothDone_iff _).mpr both)

/-- The relocation whose copy is to be programmed again (R69, R108). -/
def Reloc.again (r : Reloc) (copy : Copy) (flagged : Bool) : Reloc :=
  { r.setRun copy { attempt := 2, block := none, job := none, done := false } with
    secured := if flagged then r.secured + 1 else r.secured
    excess := if flagged then r.excess else r.excess + 1 }

/-- A first failure asks for one block more, drawn as the failed one was (R69, R108). -/
theorem Device.relocJobFailed_again (first : x.attempt = 1) {flagged tail : Bool}
    (was : (r.blocks[r.place r.chunk copy]?).any (·.flagged) = flagged) (kind : r.kind.tail = tail) :
    d.relocJobFailed id r copy x
      = ((d.setReloc id (r.again copy flagged)).askGrant (.reloc id (some copy))
          [{ owner := r.owns r.chunk copy, allowance := flagged, tail := tail, avoid := .nothing }]).reavoidReloc
            id (r.again copy flagged) := by
  unfold Device.relocJobFailed
  rw [if_pos first, was, ← kind]
  cases flagged <;> cases copy <;> rfl

/-- A second failure ends the relocation (R69, R143). -/
theorem Device.relocJobFailed_ends (second : x.attempt ≠ 1) :
    d.relocJobFailed id r copy x = d.endReloc id r .mediaFailed := if_neg second

end

/-! ### The commit -/

/-- What the commit of a relocation leaves (R69, R142). -/
def Device.relocMoved (d : Device) (r : Reloc) : Device := (d.takeVersion r.name r.version).relocEffect r

/-- The mirror list of the version a relocation commits: every second block of its grant (R68, R142). -/
theorem Reloc.version_mirrors (r : Reloc) :
    r.version.mirrors = if r.copies = 2
      then (List.range r.source.chunks.length).map fun k => (r.blocks[2 * k + 1]?).map (·.addr) else [] := by
  unfold Reloc.version Reloc.place
  dsimp only
  split
  next two => rw [two]
  next => rfl

/-- The MIRROR chunk 0 of the version a relocation commits. -/
theorem Reloc.version_mirrorAt_zero (r : Reloc) :
    r.version.mirrorAt 0
      = if r.copies = 2 ∧ r.source.chunks.length ≠ 0 then (r.blocks[1]?).map (·.addr) else none := by
  unfold Version.mirrorAt
  rw [Reloc.version_mirrors]
  by_cases two : r.copies = 2
  · rw [if_pos two]
    cases r.source.chunks.length with
    | zero => simp
    | succ n => simp [two]
  · rw [if_neg two, if_neg fun h => two h.1]
    rfl

/-- With a MIRROR chunk 0 the relocation goes on to its commit record (R69, R142). -/
theorem Device.relocCommitDone_mirror {m : BlockAddr} (work : d.reloc? id = some r) (two : r.copies = 2)
    (mirror : r.version.mirrorAt 0 = some m) (b : Bank) (j : Job) :
    d.relocCommitDone b j id .ok
      = ((d.relocMoved r).queueJob m.bank (segmentJob m.block 15 0 r.commitRecord (.relocMirrorCommit id))).setReloc id
          { r with stage := .mirrorCommit, jobs := r.jobs - 1 + 1 } := by
  unfold Device.relocCommitDone
  rw [work]
  dsimp only
  split
  next m' _ h =>
    obtain rfl := Option.some.inj (mirror.symm.trans h)
    rfl
  next none_ => exact (none_ m two mirror).elim

/-- Without one the relocation is done (R69, R142). -/
theorem Device.relocCommitDone_alone (work : d.reloc? id = some r)
    (alone : ¬(r.copies = 2 ∧ r.version.mirrorAt 0 ≠ none)) (b : Bank) (j : Job) :
    d.relocCommitDone b j id .ok = (d.relocMoved r).relocDone id { r with jobs := r.jobs - 1 } := by
  unfold Device.relocCommitDone
  rw [work]
  dsimp only
  split
  next m two h => exact absurd ⟨two, fun none_ => by cases h.symm.trans none_⟩ alone
  next => rfl

/-- A commit record that fails ends the relocation (R69, R143). -/
theorem Device.relocCommitDone_fail (work : d.reloc? id = some r) (b : Bank) (j : Job) :
    d.relocCommitDone b j id .fail
      = (d.programFailed b j).endReloc id { r with jobs := r.jobs - 1 } .mediaFailed := by
  unfold Device.relocCommitDone
  rw [work]

/-- A MIRROR commit record that is programmed ends the relocation well (R142). -/
theorem Device.relocMirrorCommitDone_ok (work : d.reloc? id = some r) (b : Bank) (j : Job) :
    d.relocMirrorCommitDone b j id .ok = d.relocDone id r := by
  unfold Device.relocMirrorCommitDone
  rw [work]

/-- One that fails loses the MIRROR chunk 0, and the relocation ends well all the same (R38, R142). -/
theorem Device.relocMirrorCommitDone_fail (work : d.reloc? id = some r) (b : Bank) (j : Job) :
    d.relocMirrorCommitDone b j id .fail = ((d.programFailed b j).loseMirrorZero r.name).relocDone id r := by
  unfold Device.relocMirrorCommitDone
  rw [work]

/-- The entry once a mark has taken effect with the relocation (R66, R72, R73, R89). -/
def Entry.marked (e : Entry) (kind : RelocKind) (order : BitVec 64) : Entry :=
  match kind with
  | .mark .retire => { e with state := .retired, hold := .none, retireOrder := some order }
  | .mark .restore => { e with state := .live, retireOrder := none }
  | .mark .freeze => { e with state := .live, hold := .frozen }
  | _ => e

/-- What the effect of a commit beside the version does: the entry takes the mark, the counters count, and the pool, the
refresh set and the pass-over list stay (R8, R69, R142). -/
theorem Device.relocEffect_eq {e : Entry} (he : d.entry? r.name = some e) :
    (d.relocEffect r).entry? r.name = some (e.marked r.kind d.retireCounter)
      ∧ (∀ q, q ≠ r.name → (d.relocEffect r).entry? q = d.entry? q)
      ∧ (d.relocEffect r).retireCounter
          = (if r.kind = .mark .retire then d.retireCounter + 1 else d.retireCounter)
      ∧ (d.relocEffect r).pool = d.pool ∧ (d.relocEffect r).maint.passOver = d.maint.passOver := by
  have other (q : RecordName) (h : q ≠ r.name) (f : Entry → Entry) : (d.modEntry r.name f).entry? q = d.entry? q :=
    Device.entry?_modEntry_other _ h f
  unfold Device.relocEffect
  rcases hk : r.kind with _ | _ | kind
  · exact ⟨he, fun _ _ => rfl, rfl, rfl, rfl⟩
  · exact ⟨he, fun _ _ => rfl, rfl, rfl, rfl⟩
  · cases kind with
    | retire =>
      exact ⟨Device.entry?_modEntry_some he rfl, fun q h => other q h _, rfl, rfl, rfl⟩
    | restore =>
      exact ⟨Device.entry?_modEntry_some he rfl, fun q h => other q h _, rfl, rfl, rfl⟩
    | freeze =>
      exact ⟨Device.entry?_modEntry_some he rfl, fun q h => other q h _, rfl, rfl, rfl⟩
    | purge => exact ⟨he, fun _ _ => rfl, rfl, rfl, rfl⟩

/-- A mark relocation is counted as it commits (R142). -/
theorem Device.relocEffect_markMoves (d : Device) (r : Reloc) :
    (d.relocEffect r).maint.markMoves
      = (match r.kind with | .mark _ => countUp d.maint.markMoves | _ => d.maint.markMoves) := by
  unfold Device.relocEffect
  rcases r.kind with _ | _ | kind
  · rfl
  · rfl
  · cases kind <;> rfl

/-- A new version leaves the retire order and the count of mark relocations alone. -/
theorem Device.takeVersion_counts {q : RecordName} {old : Entry} (v : Version) (h : d.entry? q = some old) :
    (d.takeVersion q v).retireCounter = d.retireCounter
      ∧ (d.takeVersion q v).maint.markMoves = d.maint.markMoves := by
  obtain ⟨dir, table, scrub, joined, e⟩ := Device.takeVersion_fields v h
  rw [e]
  unfold Device.leaveRefresh
  split <;> exact ⟨rfl, rfl⟩

end

/-- Settles O45: each completion is one of the branches above. -/
theorem relocationsCopyTheirChunks : Obligations.RelocationsCopyTheirChunks := by
  unfold Obligations.RelocationsCopyTheirChunks
  intro readOf finish ends header record done copied
  have finishes (d : Device) (id : RelocId) (r : Reloc) (cause : RelocEnd) :
      d.finishReloc id r cause = finish d id r cause := by
    cases id <;> cases cause <;> rfl
  have endsSo (d : Device) (id : RelocId) (r : Reloc) (cause : RelocEnd) :
      d.endReloc id r cause = ends d id r cause := by
    unfold Device.endReloc
    rw [Device.relocWait_ending rfl, finishes]
    cases id <;> rfl
  have doneSo (d : Device) (id : RelocId) (r : Reloc) : d.relocDone id r = done d id r := by
    cases id <;> rfl
  have copiedSo (d : Device) (id : RelocId) (r : Reloc) : copied d id r (d.relocChunkDone id r) := by
    refine ⟨fun x more block => ?_, fun more missing => ?_, fun n last zero => Device.relocChunkDone_last last zero⟩
    · rw [Device.relocChunkDone_next more, Device.relocChunk_later (Nat.succ_ne_zero _) block]
      rfl
    · rw [Device.relocChunkDone_next more, Device.relocChunk_missing missing, endsSo]
  refine ⟨?_, ?_, ?_⟩
  · intro s b j id r h work goes less
    refine ⟨fun chunk page copy hby => ⟨fun n => ?_, fun m primary mirror => ?_, fun none_ => ?_⟩,
      fun copy x hby run => ⟨fun a k block job more => ?_, fun a k block job last => ?_, fun first => ?_,
        fun second => ?_⟩⟩
    · intro d r' full crc into
      refine ⟨fun more => ?_, fun x all single block => ?_, fun x y m all two primary mirror run => ?_⟩
      · rw [State.execRelocRead_working h hby,
          Device.relocReadDone_more work goes (fun all => more ((Reloc.pages_kept _).mp all))]
        rfl
      · rw [State.execRelocRead_working h hby,
          Device.relocReadDone_full work goes ((Reloc.pages_kept r').mpr all),
          Device.relocPrograms_alone (r := r.keep _) single block]
        rfl
      · rw [← two] at primary mirror
        rw [State.execRelocRead_working h hby,
          Device.relocReadDone_full work goes ((Reloc.pages_kept r').mpr all),
          Device.relocPrograms_mirrored (r := r.keep _) two primary mirror run]
        rfl
    · subst primary
      rw [State.execRelocRead_working h hby, Device.relocReadDone_again work goes mirror]
      rfl
    · rw [State.execRelocRead_working h hby, Device.relocReadDone_loses work goes none_, endsSo]
    · rw [State.execRelocProgram_working h hby, Device.relocProgramDone_ok work goes run,
        Device.relocJobOk_page block job more]
      cases copy <;> rfl
    · refine ⟨fun waits => ?_, fun both => ⟨_, ?_, copiedSo s.toDevice id _⟩⟩
      · rw [State.execRelocProgram_working h hby, Device.relocProgramDone_ok work goes run,
          Device.relocJobOk_waits block job last waits]
        rfl
      · rw [State.execRelocProgram_working h hby, Device.relocProgramDone_ok work goes run,
          Device.relocJobOk_chunk block job last both]
        rfl
    · intro flagged r' avoids d asked
      have tail : r.kind.tail = decide (r.kind = .wear) := by cases r.kind <;> rfl
      rw [State.execRelocProgram_working h hby, Device.relocProgramDone_fail work goes run,
        Device.relocJobFailed_again (r := less) first rfl tail]
      rfl
    · rw [State.execRelocProgram_working h hby, Device.relocProgramDone_fail work goes run,
        Device.relocJobFailed_ends second, endsSo]
  · intro s b j id r e h work he less blockAt n version
    have moved := Device.entry?_takeVersion_self (v := r.version) he
    obtain ⟨entry, other, order, pool, passOver⟩ := Device.relocEffect_eq (r := r) moved
    obtain ⟨counter, counted⟩ := Device.takeVersion_counts r.version he
    have versionSo : r.version = version := by
      calc r.version = { r.version with mirrors := r.version.mirrors } := rfl
        _ = version := by
          rw [Reloc.version_mirrors]
          rfl
    refine ⟨fun hby => ⟨⟨s.relocMoved r, ?_, fun q hq => ?_, ?_, fun a => ?_, fun a => ?_, ?_, fun was => ?_, ?_,
      fun m two block some_ => ?_, fun alone => ?_⟩, ?_⟩, fun hby => ⟨?_, ?_⟩⟩
    · refine entry.trans (congrArg some ?_)
      rw [counter, versionSo]
      rcases r.kind with _ | _ | kind
      · rfl
      · rfl
      · cases kind <;> rfl
    · exact (other q hq).trans (Device.entry?_takeVersion_other he hq)
    · exact order.trans (by rw [counter])
    · exact (Device.blockState_congr (congrArg Pool.table pool) a).trans (Device.blockState_takeVersion he a)
    · rw [Device.relocMoved, pool]
      refine (Device.flagOf_takeVersion he a).trans ?_
      rw [versionSo]
      unfold Device.flagOf Version.blocks
      rw [Option.map_map]
      refine congrArg (fun g => Option.map g (s.pool.block? a)) (funext fun x => ?_)
      refine congrArg (fun p => x.flag && !p) (decide_eq_decide.mpr ?_)
      rw [List.mem_append]
      rfl
    · rw [Device.relocMoved, pool]
      exact fun h => ((Device.mem_takeVersion he r.name).1.mp h).2 rfl
    · rw [Device.relocMoved, passOver]
      exact fun h => ((Device.mem_takeVersion he r.name).2.mp h).2 rfl was
    · refine (Device.relocEffect_markMoves _ r).trans ?_
      rcases r.kind with _ | _ | kind
      · exact counted
      · exact counted
      · exact congrArg countUp counted
    · have mirror : r.version.mirrorAt 0 = some m := by
        rw [Reloc.version_mirrorAt_zero, if_pos ⟨two, some_⟩]
        exact block
      rw [State.execRelocCommit_working h hby, Device.relocCommitDone_mirror work two mirror]
      rfl
    · rw [State.execRelocCommit_working h hby, Device.relocCommitDone_alone work, doneSo]
      rintro ⟨two, mirror⟩
      rw [Reloc.version_mirrorAt_zero] at mirror
      rcases alone with single | none_ | zero
      · exact single two
      · exact mirror (by rw [show (r.blocks[1]?).map (·.addr) = none from none_, ite_self])
      · exact mirror (if_neg fun h => h.2 zero)
    · rw [State.execRelocCommit_working h hby, Device.relocCommitDone_fail work, endsSo]
    · rw [State.execRelocMirrorCommit_working h hby, Device.relocMirrorCommitDone_ok work, doneSo]
    · rw [State.execRelocMirrorCommit_working h hby, Device.relocMirrorCommitDone_fail work, doneSo]
      rfl
  · intro s b j id r cause h work ending less goesOn
    have goes (d : Device) : d.relocWait id less = goesOn d := by
      rw [Device.relocWait_ending (r := less) ending, finishes]
    refine ⟨fun chunk page copy hby => ⟨fun n => ?_, ?_⟩, fun copy hby => ⟨?_, ?_⟩⟩
    · rw [State.execRelocRead_working h hby, Device.relocReadDone_ending work ending, goes]
      rfl
    · rw [State.execRelocRead_working h hby, Device.relocReadDone_ending work ending, goes]
      rfl
    · rw [State.execRelocProgram_working h hby, Device.relocProgramDone_ending work ending, goes]
    · rw [State.execRelocProgram_working h hby, Device.relocProgramDone_ending work ending, goes]

end Sys2Proof.Machine

/-!
How a grant chooses its blocks (R100 to R103): the line a free list gives, the bank with the most on offer, and the
blocks a waiting grant is tested against. Lemmas for O30.
-/

namespace Sys2Proof.Machine

/-! ### The best of a list -/

/-- A run along a list that keeps the better of two each time ends with one of them that is as good as every other. -/
theorem foldl_keeps_best {α : Type} {R : α → α → Prop} (refl : ∀ x, R x x) (trans : ∀ x y z, R x y → R y z → R x z)
    {swap : α → α → Prop} [DecidableRel swap] (rest : List α) (x : α)
    (better : (x :: rest).Pairwise fun a c => (swap a c → R c a) ∧ (¬swap a c → R a c)) :
    rest.foldl (fun best c => if swap best c then c else best) x ∈ x :: rest
      ∧ ∀ c ∈ x :: rest, R (rest.foldl (fun best c => if swap best c then c else best) x) c := by
  induction rest generalizing x with
  | nil => exact ⟨List.mem_singleton_self x, fun c hc => List.mem_singleton.mp hc ▸ refl x⟩
  | cons y rest ih =>
    obtain ⟨first, later⟩ := List.pairwise_cons.mp better
    rw [List.foldl_cons]
    by_cases worse : swap x y
    · rw [if_pos worse]
      obtain ⟨mem, best⟩ := ih y later
      refine ⟨List.mem_cons_of_mem x mem, fun c hc => ?_⟩
      rcases List.mem_cons.mp hc with rfl | hc
      · exact trans _ y _ (best y List.mem_cons_self) ((first y List.mem_cons_self).1 worse)
      · exact best c hc
    · rw [if_neg worse]
      obtain ⟨mem, best⟩ := ih x (better.sublist ((List.sublist_cons_self y rest).cons_cons x))
      refine ⟨?_, fun c hc => ?_⟩
      · rcases List.mem_cons.mp mem with eq | mem
        · rw [eq]
          exact List.mem_cons_self
        · exact List.mem_cons_of_mem x (List.mem_cons_of_mem y mem)
      · rcases List.mem_cons.mp hc with rfl | hc
        · exact best c List.mem_cons_self
        · rcases List.mem_cons.mp hc with rfl | hc
          · exact trans _ x _ (best x List.mem_cons_self) ((first c List.mem_cons_self).2 worse)
          · exact best c (List.mem_cons_of_mem x hc)

/-! ### The free list -/

/-- The place of a line in the order of a free list (R100). -/
def BlockLine.order (l : BlockLine) : Nat := l.entry.count * 2048 + l.addr.num

/-- The order of a free list is by erase count, then by block number (R100). -/
theorem BlockLine.before_iff (x y : BlockLine) : x.before y = true ↔ x.order < y.order := by
  have below (l : BlockLine) : l.addr.num < 2048 := by
    unfold BlockAddr.num
    omega
  have hx := below x
  have hy := below y
  unfold BlockLine.before BlockLine.order
  simp only [Bool.or_eq_true, Bool.and_eq_true, decide_eq_true_eq]
  omega

/-- The line a request takes is the first of its list, or the last (R100, R101). -/
theorem pickLine_some {tail : Bool} {ls : List BlockLine} {l : BlockLine} (h : pickLine tail ls = some l) :
    l ∈ ls ∧ ∀ x ∈ ls, if tail = true then x.order ≤ l.order else l.order ≤ x.order := by
  cases ls with
  | nil => cases h
  | cons x rest =>
    have swaps (a c : BlockLine) : (if tail then a.before c else c.before a) = true
        ↔ if tail = true then a.order < c.order else c.order < a.order := by
      cases tail
      · exact c.before_iff a
      · exact a.before_iff c
    obtain rfl := Option.some.inj h
    refine foldl_keeps_best (R := fun b c => if tail = true then c.order ≤ b.order else b.order ≤ c.order)
      (swap := fun best l => (if tail then best.before l else l.before best) = true) ?_ ?_ rest x ?_
    · intro x
      cases tail <;> exact Nat.le_refl _
    · intro x y z hxy hyz
      cases tail
      · exact Nat.le_trans hxy hyz
      · exact Nat.le_trans hyz hxy
    · refine List.pairwise_of_forall fun a c => ?_
      rw [swaps]
      cases tail
      · exact ⟨Nat.le_of_lt, Nat.le_of_not_lt⟩
      · exact ⟨Nat.le_of_lt, Nat.le_of_not_lt⟩

/-- A list of lines that holds one gives one. -/
theorem pickLine_isSome {tail : Bool} {ls : List BlockLine} (h : ls ≠ []) : ∃ l, pickLine tail ls = some l := by
  cases ls with
  | nil => exact absurd rfl h
  | cons x rest => exact ⟨_, rfl⟩

/-- The line a list gives goes with the lines, when their order does. -/
theorem pickLine_map (tail : Bool) (f : BlockLine → BlockLine) (same : ∀ x y, (f x).before (f y) = x.before y)
    (ls : List BlockLine) : pickLine tail (ls.map f) = (pickLine tail ls).map f := by
  cases ls with
  | nil => rfl
  | cons x rest =>
    refine congrArg some ?_
    induction rest generalizing x with
    | nil => rfl
    | cons y rest ih =>
      rw [List.map_cons, List.foldl_cons, List.foldl_cons, same, same, ← ih, apply_ite f]

/-! ### The bank -/

/-- The bank with the most on offer, and the first of those, among banks in ascending order (R101). -/
theorem mostOffered_some {count : Bank → Nat} {bs : List Bank} {b : Bank} (ascending : bs.Pairwise (· < ·))
    (h : mostOffered count bs = some b) :
    b ∈ bs ∧ ∀ c ∈ bs, count c < count b ∨ (count c = count b ∧ b ≤ c) := by
  cases bs with
  | nil => cases h
  | cons x rest =>
    obtain rfl := Option.some.inj h
    refine foldl_keeps_best (R := fun b c => count c < count b ∨ (count c = count b ∧ b ≤ c))
      (swap := fun best c => count best < count c) ?_ ?_ rest x ?_
    · exact fun x => .inr ⟨rfl, Fin.le_refl x⟩
    · rintro x y z (more | ⟨same, before⟩) (more' | ⟨same', before'⟩)
      · exact .inl (Nat.lt_trans more' more)
      · exact .inl (same' ▸ more)
      · exact .inl (same ▸ more')
      · exact .inr ⟨same'.trans same, Fin.le_trans before before'⟩
    · refine ascending.imp fun {a c} before => ⟨.inl, fun keep => ?_⟩
      exact (Nat.lt_or_eq_of_le (Nat.le_of_not_lt keep)).imp_right fun same => ⟨same, Fin.le_of_lt before⟩

/-- A list of banks that holds one gives one. -/
theorem mostOffered_isSome {count : Bank → Nat} {bs : List Bank} (h : bs ≠ []) :
    ∃ b, mostOffered count bs = some b := by
  cases bs with
  | nil => exact absurd rfl h
  | cons x rest => exact ⟨_, rfl⟩

/-! ### The block of one request -/

section
variable (d : Device) (avail : BlockState → Bool) (taken : List BlockAddr) (r : BlockRequest) (previous : Option Bank)

/-- The banks a request may take a block from (R101). -/
def Device.mayTake : List Bank :=
  ([0, 1, 2, 3] : List Bank).filter fun b =>
    decide (some b ≠ r.avoid.resolved previous) && !(d.offered avail taken r.owner b).isEmpty

/-- Whether a bank's queue is below 16 jobs (R101). -/
def Device.short (b : Bank) : Prop := d.engines[b].queue.length < 16

/-- Those of the banks that are preferred, or all of them where none is (R101). -/
def Device.remains : List Bank :=
  let preferred := (d.mayTake avail taken r previous).filter fun b =>
    decide (d.engines[b].queue.length < Config.queueDepth)
  if preferred.isEmpty then d.mayTake avail taken r previous else preferred

/-- The block of a request: the bank, then the line of its list (R101). -/
theorem Device.chooseBlock_eq :
    d.chooseBlock avail taken r previous
      = (mostOffered (fun b => (d.offered avail taken r.owner b).length) (d.remains avail taken r previous)).bind
          fun b => (pickLine r.tail (d.offered avail taken r.owner b)).map (·.addr) := by
  have bind (o : Option Bank) (f : Bank → Option BlockAddr) :
      (match o with | none => none | some b => f b) = o.bind f := by cases o <;> rfl
  exact bind _ _

variable {d avail taken r previous}

/-- A bank may give a block when it has one on offer and need not be avoided (R101). -/
theorem Device.mem_mayTake {b : Bank} :
    b ∈ d.mayTake avail taken r previous
      ↔ 0 < (d.offered avail taken r.owner b).length
        ∧ ¬(r.avoid = .bank b ∨ (r.avoid = .previous ∧ previous = some b)) := by
  have avoids : some b = r.avoid.resolved previous ↔ r.avoid = .bank b ∨ (r.avoid = .previous ∧ previous = some b) := by
    cases r.avoid with
    | nothing => simp [Avoid.resolved]
    | bank c => simp [Avoid.resolved, eq_comm]
    | previous => simp [Avoid.resolved, eq_comm]
  unfold Device.mayTake
  rw [List.mem_filter, ← avoids, Bool.and_eq_true, decide_eq_true_eq, List.length_pos_iff, Bool.not_eq_true',
    List.isEmpty_eq_false_iff]
  exact ⟨fun ⟨_, apart, some_⟩ => ⟨some_, apart⟩, fun ⟨some_, apart⟩ => ⟨mem_allBanks b, apart, some_⟩⟩

/-- A bank remains when it may give a block and is short if any of them is (R101). -/
theorem Device.mem_remains {b : Bank} :
    b ∈ d.remains avail taken r previous
      ↔ b ∈ d.mayTake avail taken r previous ∧ ((∃ c ∈ d.mayTake avail taken r previous, d.short c) → d.short b) := by
  unfold Device.remains
  dsimp only
  split
  next none_ =>
    have long (c : Bank) (hc : c ∈ d.mayTake avail taken r previous) : ¬d.short c := by
      have past := List.filter_eq_nil_iff.mp (List.isEmpty_iff.mp none_) c hc
      exact fun short => past (decide_eq_true short)
    exact ⟨fun mem => ⟨mem, fun ⟨c, hc, short⟩ => absurd short (long c hc)⟩, And.left⟩
  next some_ =>
    obtain ⟨c, hc⟩ := List.exists_mem_of_ne_nil _ fun none_ => some_ (List.isEmpty_iff.mpr none_)
    rw [List.mem_filter, decide_eq_true_eq] at hc
    rw [List.mem_filter, decide_eq_true_eq]
    exact and_congr_right fun _ => ⟨fun short _ => short, fun short => short ⟨c, hc⟩⟩

/-- The banks that remain stand in ascending order. -/
theorem Device.remains_ascending : (d.remains avail taken r previous).Pairwise (· < ·) := by
  have all : ([0, 1, 2, 3] : List Bank).Pairwise (· < ·) := by decide
  have may : (d.mayTake avail taken r previous).Pairwise (· < ·) := all.filter _
  unfold Device.remains
  dsimp only
  split
  · exact may
  · exact may.filter _

/-- A request finds no block just when no bank may give one (R101). -/
theorem Device.chooseBlock_none :
    d.chooseBlock avail taken r previous = none ↔ ∀ b, b ∉ d.mayTake avail taken r previous := by
  have stays : d.remains avail taken r previous = [] ↔ ∀ b, b ∉ d.mayTake avail taken r previous := by
    rw [List.eq_nil_iff_forall_not_mem]
    constructor
    · intro none_ b hb
      by_cases some_ : ∃ c ∈ d.mayTake avail taken r previous, d.short c
      · obtain ⟨c, hc, short⟩ := some_
        exact none_ c (Device.mem_remains.mpr ⟨hc, fun _ => short⟩)
      · exact none_ b (Device.mem_remains.mpr ⟨hb, fun h => absurd h some_⟩)
    · exact fun none_ b hb => none_ b (Device.mem_remains.mp hb).1
  rw [← stays, Device.chooseBlock_eq]
  constructor
  · intro none_
    by_contra some_
    obtain ⟨b, hb⟩ := mostOffered_isSome (count := fun b => (d.offered avail taken r.owner b).length) some_
    have mem := (Device.mem_mayTake.mp (Device.mem_remains.mp (mostOffered_some Device.remains_ascending hb).1).1).1
    obtain ⟨l, hl⟩ := pickLine_isSome (tail := r.tail) (List.length_pos_iff.mp mem)
    rw [hb, Option.bind_some, hl] at none_
    cases none_
  · intro empty
    rw [empty]
    rfl

/-- The block a request finds: its bank remains and has the most on offer of those that do, the first of equals, and
there it is the first of the list, or the last (R101). -/
theorem Device.chooseBlock_some {a : BlockAddr} (h : d.chooseBlock avail taken r previous = some a) :
    a.bank ∈ d.remains avail taken r previous
      ∧ (∀ c ∈ d.remains avail taken r previous,
          (d.offered avail taken r.owner c).length < (d.offered avail taken r.owner a.bank).length
          ∨ ((d.offered avail taken r.owner c).length = (d.offered avail taken r.owner a.bank).length ∧ a.bank ≤ c))
      ∧ ∃ l ∈ d.offered avail taken r.owner a.bank, l.addr = a
        ∧ ∀ x ∈ d.offered avail taken r.owner a.bank,
            if r.tail = true then x.order ≤ l.order else l.order ≤ x.order := by
  rw [Device.chooseBlock_eq] at h
  obtain ⟨b, hb, picked⟩ := Option.bind_eq_some_iff.mp h
  obtain ⟨l, hl, rfl⟩ := Option.map_eq_some_iff.mp picked
  obtain ⟨mem, best⟩ := mostOffered_some Device.remains_ascending hb
  obtain ⟨offered, order⟩ := pickLine_some hl
  have own : l.addr.bank = b := by
    unfold Device.offered at offered
    have := (List.mem_filter.mp offered).2
    simp only [Bool.and_eq_true, decide_eq_true_eq] at this
    exact this.1.1.1
  subst own
  exact ⟨mem, best, l, offered, rfl, order⟩

end

/-! ### The blocks of a grant -/

/-- A request that finds no block stops the grant (R101). -/
theorem Device.resolveGrant_none {d : Device} {avail : BlockState → Bool} {taken : List BlockAddr} {r : BlockRequest}
    {previous : Option Bank} (h : d.chooseBlock avail taken r previous = none) (rest : List BlockRequest) :
    d.resolveGrant avail (r :: rest) taken previous = none := by
  rw [Device.resolveGrant, h]

/-- A block found is no longer on offer to the requests behind it (R101). -/
theorem Device.resolveGrant_some {d : Device} {avail : BlockState → Bool} {taken : List BlockAddr} {r : BlockRequest}
    {previous : Option Bank} {a : BlockAddr} (h : d.chooseBlock avail taken r previous = some a)
    (rest : List BlockRequest) :
    d.resolveGrant avail (r :: rest) taken previous
      = (d.resolveGrant avail rest (a :: taken) (some a.bank)).map fun as => a :: as := by
  rw [Device.resolveGrant, h]
  dsimp only
  cases d.resolveGrant avail rest (a :: taken) (some a.bank) <;> rfl

/-- A line whose block is FREE if it was STALE or ERASING (R103). -/
def BlockLine.freed (l : BlockLine) : BlockLine :=
  if l.entry.state = .stale ∨ l.entry.state = .erasing then { l with entry := { l.entry with state := .free } } else l

/-- A device with every STALE and ERASING block FREE (R103). -/
def Device.allFree (d : Device) : Device :=
  { d with pool := { d.pool with table := d.pool.table.map BlockLine.freed } }

/-- A line so freed keeps its address and its erase count. -/
theorem BlockLine.freed_same (l : BlockLine) : l.freed.addr = l.addr ∧ l.freed.entry.count = l.entry.count := by
  unfold BlockLine.freed
  split <;> exact ⟨rfl, rfl⟩

/-- A block is FREE there just when it counts for a waiting grant (R103). -/
theorem BlockLine.onlyFree_freed (l : BlockLine) : onlyFree l.freed.entry.state = freeStaleErasing l.entry.state := by
  unfold BlockLine.freed
  cases h : l.entry.state <;> simp [onlyFree, freeStaleErasing, h]

/-- What a bank offers there is what it offers to a waiting grant (R103). -/
theorem Device.offered_allFree (d : Device) (taken : List BlockAddr) (o : Owner) (b : Bank) :
    d.allFree.offered onlyFree taken o b = (d.offered freeStaleErasing taken o b).map BlockLine.freed := by
  unfold Device.offered Device.allFree
  rw [List.filter_map]
  refine congrArg _ (List.filter_congr fun l _ => ?_)
  rw [Function.comp_apply, l.onlyFree_freed, l.freed_same.1]
  rfl

/-- A request finds there what it finds among the blocks a waiting grant is tested against (R103). -/
theorem Device.chooseBlock_allFree (d : Device) (taken : List BlockAddr) (r : BlockRequest) (previous : Option Bank) :
    d.allFree.chooseBlock onlyFree taken r previous = d.chooseBlock freeStaleErasing taken r previous := by
  have picks (b : Bank) : (pickLine r.tail (d.allFree.offered onlyFree taken r.owner b)).map (·.addr)
      = (pickLine r.tail (d.offered freeStaleErasing taken r.owner b)).map (·.addr) := by
    rw [Device.offered_allFree, pickLine_map _ _ fun x y => ?_, Option.map_map]
    · exact congrArg (Option.map · _) (funext fun l => l.freed_same.1)
    · unfold BlockLine.before
      rw [x.freed_same.1, x.freed_same.2, y.freed_same.1, y.freed_same.2]
  have counts (b : Bank) : (d.allFree.offered onlyFree taken r.owner b).length
      = (d.offered freeStaleErasing taken r.owner b).length := by
    rw [Device.offered_allFree, List.length_map]
  have empties (b : Bank) : (d.allFree.offered onlyFree taken r.owner b).isEmpty
      = (d.offered freeStaleErasing taken r.owner b).isEmpty := by
    rw [Device.offered_allFree, List.isEmpty_map]
  have banks : d.allFree.remains onlyFree taken r previous = d.remains freeStaleErasing taken r previous := by
    unfold Device.remains Device.mayTake
    rw [funext fun b => congrArg (fun x => decide (some b ≠ r.avoid.resolved previous) && !x) (empties b)]
    rfl
  rw [Device.chooseBlock_eq, Device.chooseBlock_eq, banks, funext picks, funext counts]

/-- A waiting grant may wait just when it could be made there (R103, log 21). -/
theorem Device.resolveGrant_allFree (d : Device) (rs : List BlockRequest) (taken : List BlockAddr)
    (previous : Option Bank) :
    d.allFree.resolveGrant onlyFree rs taken previous = d.resolveGrant freeStaleErasing rs taken previous := by
  induction rs generalizing taken previous with
  | nil => rfl
  | cons r rest ih =>
    rw [Device.resolveGrant, Device.resolveGrant, d.chooseBlock_allFree]
    cases d.chooseBlock freeStaleErasing taken r previous with
    | none => rfl
    | some a => dsimp only; rw [ih]

/-! ### What a bank offers -/

/-- Whether a line is on offer to a request that takes FREE blocks only (R101, R102). -/
def Device.offers (d : Device) (taken : List BlockAddr) (o : Owner) (l : BlockLine) : Bool :=
  decide (l.entry.state = .free) && decide (l.addr ∉ taken) && d.placed o l.addr

/-- The lines a bank offers (R101, R102). -/
theorem Device.offered_onlyFree (d : Device) (taken : List BlockAddr) (o : Owner) (b : Bank) :
    d.offered onlyFree taken o b
      = d.pool.table.filter fun l => decide (l.addr.bank = b) && d.offers taken o l := by
  refine List.filter_congr fun l _ => ?_
  unfold Device.offers onlyFree
  rw [Bool.and_assoc, Bool.and_assoc, Bool.and_assoc]
  simp

/-- Their number. -/
theorem Device.offered_length (d : Device) (taken : List BlockAddr) (o : Owner) (b : Bank) :
    (d.offered onlyFree taken o b).length
      = d.pool.table.countP fun l => decide (l.addr.bank = b) && d.offers taken o l := by
  rw [Device.offered_onlyFree, List.countP_eq_length_filter]

/-- The lines a bank offers, one by one. -/
theorem Device.mem_offered {d : Device} {taken : List BlockAddr} {o : Owner} {b : Bank} {l : BlockLine} :
    l ∈ d.offered onlyFree taken o b ↔ l ∈ d.pool.table ∧ l.addr.bank = b ∧ d.offers taken o l = true := by
  rw [Device.offered_onlyFree, List.mem_filter, Bool.and_eq_true, decide_eq_true_eq]

end Sys2Proof.Machine

/-!
Demand erases, the schedules of the Block Pool Manager's two examinations, and the blocks that join the scrub queue in
one step (R103 to R106). Lemmas for O30.
-/

namespace Sys2Proof.Machine

/-! ### The lowest bank -/

/-- A search through the banks finds what the lowest bank that has anything gives. -/
theorem lowestBank_some {α : Type} {f : Bank → Option α} {x : α}
    (h : ([0, 1, 2, 3] : List Bank).findSome? f = some x) : ∃ b, f b = some x ∧ ∀ c, c < b → f c = none := by
  obtain ⟨before, b, after, banks, found, none_⟩ := List.findSome?_eq_some_iff.mp h
  refine ⟨b, found, fun c lower => none_ c ?_⟩
  have ascending : (before ++ b :: after).Pairwise (· < ·) := by
    rw [← banks]
    decide
  have mem : c ∈ before ++ b :: after := banks ▸ mem_allBanks c
  rcases List.mem_append.mp mem with first | later
  · exact first
  · obtain ⟨_, tail, _⟩ := List.pairwise_append.mp ascending
    rcases List.mem_cons.mp later with rfl | later
    · exact absurd lower (Fin.lt_irrefl _)
    · exact absurd lower (Fin.not_lt.mpr (Fin.le_of_lt ((List.pairwise_cons.mp tail).1 c later)))

/-- It finds nothing when no bank has anything. -/
theorem lowestBank_none {α : Type} {f : Bank → Option α} :
    ([0, 1, 2, 3] : List Bank).findSome? f = none ↔ ∀ b, f b = none := by
  rw [List.findSome?_eq_none_iff]
  exact ⟨fun h b => h b (mem_allBanks b), fun h b _ => h b⟩

/-! ### The unmet requests -/

section
variable {d : Device} {taken : List BlockAddr} {r : BlockRequest} {previous : Option Bank}

/-- A request that finds no FREE block is unmet, and the one behind it avoids no bank yet (R104). -/
theorem Device.unmet_none (h : d.chooseBlock onlyFree taken r previous = none) (rest : List BlockRequest) :
    d.unmet (r :: rest) taken previous = (r.owner, r.avoid.resolved previous) :: d.unmet rest taken none := by
  rw [Device.unmet, h]

/-- A request that finds one is met (R104). -/
theorem Device.unmet_some {a : BlockAddr} (h : d.chooseBlock onlyFree taken r previous = some a)
    (rest : List BlockRequest) : d.unmet (r :: rest) taken previous = d.unmet rest (a :: taken) (some a.bank) := by
  rw [Device.unmet, h]

end

/-! ### Demand erases -/

section
variable {d : Device} {g : Grant} {b : Bank}

/-- An erase job of a scrub-queue block is out in a bank (R104). -/
theorem Device.eraseJobOut_iff : d.eraseJobOut b = true ↔ ∃ l ∈ d.pool.table, l.addr.bank = b
    ∧ l.entry.state = .erasing ∧ ∃ w, l.entry.erase = some w ∧ w.eraser ≠ .purge ∧ w.stamp = false := by
  unfold Device.eraseJobOut
  rw [List.any_eq_true]
  refine exists_congr fun l => and_congr_right fun _ => ?_
  rw [Bool.and_eq_true, Bool.and_eq_true, decide_eq_true_eq, decide_eq_true_eq, Option.any_eq_true, and_assoc]
  simp

/-- A block that a demand erase may take for a grant in a bank (R104). -/
def Device.DemandTakes (d : Device) (g : Grant) (b : Bank) (a : BlockAddr) : Prop :=
  a.bank = b ∧ d.pinsOf a = 0 ∧ ∃ x ∈ d.unmet g.requests [] none, x.2 ≠ some b ∧ d.placed x.1 a = true

/-- The search for the block of a demand erase takes it so (R104). -/
theorem Device.demandTakes_iff (a : BlockAddr) :
    (decide (a.bank = b) && decide (d.pinsOf a = 0)
        && ((d.unmet g.requests [] none).filter fun w => decide (w.2 ≠ some b)).any fun w => d.placed w.1 a) = true
      ↔ d.DemandTakes g b a := by
  unfold Device.DemandTakes
  rw [Bool.and_eq_true, Bool.and_eq_true, decide_eq_true_eq, decide_eq_true_eq, and_assoc, List.any_eq_true]
  refine and_congr_right fun _ => and_congr_right fun _ => exists_congr fun x => ?_
  rw [List.mem_filter, decide_eq_true_eq, and_assoc]

/-- A bank has no block for a demand erase while one is out there, or when no block of the queue will do (R104). -/
theorem Device.demandIn_none : d.demandIn g b = none
    ↔ d.eraseJobOut b = true ∨ ∀ a ∈ d.pool.scrub, ¬d.DemandTakes g b a := by
  unfold Device.demandIn
  by_cases out : d.eraseJobOut b = true
  · rw [if_pos out]
    exact iff_of_true rfl (.inl out)
  · rw [if_neg out, or_iff_right out]
    dsimp only
    rw [List.find?_eq_none]
    exact forall₂_congr fun a _ => not_congr (d.demandTakes_iff a)

/-- The block of a bank for a demand erase is the oldest that will do (R104). -/
theorem Device.demandIn_some {a : BlockAddr} (h : d.demandIn g b = some a) :
    ∃ front back, d.pool.scrub = front ++ a :: back ∧ d.DemandTakes g b a ∧ ∀ x ∈ front, ¬d.DemandTakes g b x := by
  unfold Device.demandIn at h
  by_cases out : d.eraseJobOut b = true
  · rw [if_pos out] at h
    cases h
  · rw [if_neg out] at h
    obtain ⟨takes, front, back, queue, before⟩ := List.find?_eq_some_iff_append.mp h
    refine ⟨front, back, queue, (d.demandTakes_iff a).mp takes, fun x hx wanted => ?_⟩
    have passed := (Bool.not_eq_true' _).mp (before x hx)
    exact Bool.false_ne_true (passed.symm.trans ((d.demandTakes_iff x).mpr wanted))

/-- It lies in the bank. -/
theorem Device.demandIn_bank {a : BlockAddr} (h : d.demandIn g b = some a) : a.bank = b := by
  obtain ⟨front, back, queue, ⟨bank, _⟩, before⟩ := Device.demandIn_some h
  exact bank

variable {rest : List Grant}

/-- With a head on the wait list the next demand erase is the first that a bank has for it (R104). -/
theorem Device.nextDemand_head (waits : d.pool.waits = g :: rest) :
    d.nextDemand = ([0, 1, 2, 3] : List Bank).findSome? fun b => d.demandIn g b := by
  unfold Device.nextDemand
  rw [waits]

/-- No bank has one just when there is none (R104). -/
theorem Device.nextDemand_none (waits : d.pool.waits = g :: rest) :
    d.nextDemand = none ↔ ∀ b, d.demandIn g b = none := by
  rw [Device.nextDemand_head waits, lowestBank_none]

/-- The next demand erase is that of the lowest bank that has one (R104). -/
theorem Device.nextDemand_some {a : BlockAddr} (waits : d.pool.waits = g :: rest) (h : d.nextDemand = some a) :
    (∀ b, b < a.bank → d.demandIn g b = none) ∧ d.demandIn g a.bank = some a := by
  rw [Device.nextDemand_head waits] at h
  obtain ⟨b, found, lower⟩ := lowestBank_some h
  have own := Device.demandIn_bank found
  subst own
  exact ⟨lower, found⟩

/-- The Block Pool Manager examines for demand erases on a call, or when another grant than at the last step's end heads
the wait list (R104, log 56). -/
theorem Device.examines_iff (waits : d.pool.waits = g :: rest) :
    d.pool.examines = true ↔ d.pool.examine = true ∨ ∀ h, d.pool.head = some h → h.named ≠ g.named := by
  unfold Pool.examines
  rw [Bool.or_eq_true, decide_eq_true_eq, waits]
  refine or_congr_right ?_
  cases d.pool.head with
  | none => simp
  | some h => simp [eq_comm]

/-- A demand erase is one of an examination (R104). -/
theorem Device.demandStep_none (h : ¬d.pool.examines = true ∨ d.nextDemand = none) : d.demandStep = none := by
  unfold Device.demandStep
  split
  next examines =>
    rw [h.resolve_left fun no => no examines]
    rfl
  next => rfl

/-- A demand erase takes the block it found off the scrub queue and has it erased (R104). -/
theorem Device.demandStep_some {a : BlockAddr} (examines : d.pool.examines = true) (h : d.nextDemand = some a) :
    d.demandStep = some (d.beginScrubErase a .demand) := by
  unfold Device.demandStep
  rw [if_pos examines, h]
  rfl

end

/-! ### The two schedules -/

/-- The end of a reading request calls for an examination when a STALE block has lost its last pin (R104). -/
theorem Device.unpin_examine (d : Device) (as : List BlockAddr) :
    (d.unpin as).pool.examine = true
      ↔ d.pool.examine = true ∨ ∃ a ∈ as, (d.unpin as).blockState a = some .stale ∧ (d.unpin as).pinsOf a = 0 := by
  obtain ⟨table, h⟩ := Device.foldModBlock_fields id (fun _ e => { e with pins := e.pins - 1 }) as d
  dsimp only [id] at h
  unfold Device.unpin
  rw [h]
  dsimp only
  split
  next calls =>
    obtain ⟨a, ha, stale⟩ := List.any_eq_true.mp calls
    rw [Bool.and_eq_true, decide_eq_true_eq, decide_eq_true_eq] at stale
    exact iff_of_true rfl (.inr ⟨a, ha, stale⟩)
  next calm =>
    refine (or_iff_left ?_).symm
    rintro ⟨a, ha, stale, free⟩
    refine calm (List.any_eq_true.mpr ⟨a, ha, ?_⟩)
    rw [Bool.and_eq_true, decide_eq_true_eq, decide_eq_true_eq]
    exact ⟨stale, free⟩

/-- The examination of the wait list is called for when a block goes BAD (R103, log 59). -/
theorem Device.makeBad_recheck {d : Device} {a : BlockAddr} {e : BlockEntry} (he : d.pool.block? a = some e)
    (cause : BadCause) (page seg : Nat) :
    (d.makeBad a cause page seg).pool.recheck = true
      ↔ d.pool.recheck = true ∨ (e.state ≠ .bad ∧ e.state ≠ .descriptor) := by
  by_cases stays : e.state = .bad ∨ e.state = .descriptor
  · rw [Device.makeBad_stays he stays, or_iff_left]
    rintro ⟨bad, descriptor⟩
    exact stays.elim bad descriptor
  · have queued (d : Device) : (d.queueGrownBad a cause page seg).pool.recheck = d.pool.recheck := by
      unfold Device.queueGrownBad
      dsimp only
      split <;> rfl
    rw [Device.makeBad_eq he stays, queued]
    exact iff_of_true rfl (.inr (not_or.mp stays))

/-- And when one goes FREE (R103, R106, log 59). -/
theorem Device.blockFreed_recheck (d : Device) (a : BlockAddr) : (d.blockFreed a).pool.recheck = true := by
  unfold Device.blockFreed
  dsimp only
  split <;> rfl

/-! ### The scrub queue -/

/-- A block goes to its place in ascending order. -/
theorem insertBlock_ordered (a : BlockAddr) {as : List BlockAddr}
    (ordered : (as.map (·.num)).Pairwise (· ≤ ·)) : ((insertBlock a as).map (·.num)).Pairwise (· ≤ ·) := by
  have members (as : List BlockAddr) (x : BlockAddr) (hx : x ∈ insertBlock a as) : x = a ∨ x ∈ as := by
    induction as with
    | nil => exact .inl (List.mem_singleton.mp hx)
    | cons y rest ih =>
      unfold insertBlock at hx
      split at hx
      · exact List.mem_cons.mp hx
      · rcases List.mem_cons.mp hx with rfl | hx
        · exact .inr List.mem_cons_self
        · exact (ih hx).imp_right (List.mem_cons_of_mem y)
  induction as with
  | nil => exact List.pairwise_singleton _ _
  | cons y rest ih =>
    obtain ⟨first, later⟩ := List.pairwise_cons.mp ordered
    unfold insertBlock
    split
    next low =>
      refine List.pairwise_cons.mpr ⟨fun n hn => ?_, ordered⟩
      rcases List.mem_cons.mp hn with rfl | hn
      · exact low
      · exact Nat.le_trans low (first n hn)
    next high =>
      refine List.pairwise_cons.mpr ⟨fun n hn => ?_, ih later⟩
      obtain ⟨x, hx, rfl⟩ := List.mem_map.mp hn
      rcases members rest x hx with rfl | hx
      · exact Nat.le_of_not_le high
      · exact first _ (List.mem_map_of_mem hx)

/-- Blocks are sorted in ascending order. -/
theorem sortBlocks_ordered (as : List BlockAddr) : ((sortBlocks as).map (·.num)).Pairwise (· ≤ ·) := by
  induction as with
  | nil => exact List.Pairwise.nil
  | cons a as ih => exact insertBlock_ordered a ih

/-- The blocks that become STALE among those reported (R8, R105). -/
def Device.goings (d : Device) (as : List BlockAddr) : List BlockAddr :=
  sortBlocks (as.filter fun a => decide (d.blockState a = some .allocated))

/-- They are the ALLOCATED ones. -/
theorem Device.mem_goings {d : Device} {as : List BlockAddr} {a : BlockAddr} :
    a ∈ d.goings as ↔ a ∈ as ∧ d.blockState a = some .allocated := by
  unfold Device.goings
  rw [mem_sortBlocks, List.mem_filter, decide_eq_true_eq]

/-- The scrub queue once blocks are reported (R105, log 39). -/
theorem Device.toStale_queue (d : Device) (as : List BlockAddr) :
    (d.toStale as).pool.scrub = (d.pool.joinScrub (d.goings as)).scrub
      ∧ (d.toStale as).pool.joined = (d.pool.joinScrub (d.goings as)).joined := by
  obtain ⟨table, h⟩ := Device.foldModBlock_fields id (fun _ e => { e with state := .stale }) (d.goings as) d
  dsimp only [id] at h
  unfold Device.toStale
  dsimp only
  rw [show sortBlocks (as.filter fun a => decide (d.blockState a = some .allocated)) = d.goings as from rfl, h]
  exact ⟨rfl, rfl⟩

/-- The first blocks that join the scrub queue in a step stand at its end (R105). -/
theorem Pool.joinScrub_first {p : Pool} (none_ : p.joined = []) (going : List BlockAddr) :
    (p.joinScrub going).scrub = p.scrub ++ sortBlocks going ∧ (p.joinScrub going).joined = going := by
  unfold Pool.joinScrub
  rw [none_]
  exact ⟨congrArg (· ++ _) (List.filter_eq_self.mpr fun _ _ => rfl), rfl⟩

/-- Those that join it later in the step are sorted in among them (R105, log 39). -/
theorem Pool.joinScrub_later {p : Pool} {queue : List BlockAddr} (was : p.scrub = queue ++ sortBlocks p.joined)
    (apart : ∀ a ∈ queue, a ∉ p.joined) (going : List BlockAddr) :
    (p.joinScrub going).scrub = queue ++ sortBlocks (p.joined ++ going) := by
  have inside (a : BlockAddr) (ha : a ∈ p.joined) : p.scrub.contains a = true := by
    rw [List.contains_iff_mem, was]
    exact List.mem_append_right queue ((mem_sortBlocks _ a).mpr ha)
  unfold Pool.joinScrub
  dsimp only
  rw [List.filter_eq_self.mpr inside, was, List.filter_append, List.filter_eq_self.mpr, List.filter_eq_nil_iff.mpr,
    List.append_nil]
  · intro a ha
    simp [(mem_sortBlocks _ a).mp ha]
  · intro a ha
    simp [apart a ha]

/-- Blocks that become STALE in one step, by two reports, stand at the queue's end in ascending order (R105, log 39). -/
theorem Device.toStale_twice {d : Device} (none_ : d.pool.joined = [])
    (queued : ∀ a ∈ d.pool.scrub, d.blockState a ≠ some .allocated) (as bs : List BlockAddr) :
    (∀ a, ((d.toStale as).toStale bs).blockState a
      = if a ∈ as ++ bs ∧ d.blockState a = some .allocated then some .stale else d.blockState a)
    ∧ ∃ going, ((d.toStale as).toStale bs).pool.scrub = d.pool.scrub ++ going
        ∧ (going.map (·.num)).Pairwise (· ≤ ·)
        ∧ ∀ a, a ∈ going ↔ a ∈ as ++ bs ∧ d.blockState a = some .allocated := by
  have stays (a : BlockAddr) : (d.toStale as).blockState a = some .allocated
      ↔ a ∉ as ∧ d.blockState a = some .allocated := by
    rw [Device.blockState_toStale]
    split
    next gone => exact iff_of_false (fun h => by cases h) fun h => h.1 gone.1
    next kept => exact ⟨fun h => ⟨fun mem => kept ⟨mem, h⟩, h⟩, And.right⟩
  constructor
  · intro a
    rw [Device.blockState_toStale, if_congr (and_congr_right fun _ => stays a) rfl rfl, Device.blockState_toStale,
      if_congr (and_congr_left' List.mem_append) rfl rfl]
    by_cases first : a ∈ as ∧ d.blockState a = some .allocated
    · rw [if_neg fun h => h.2.1 first.1, if_pos first, if_pos ⟨.inl first.1, first.2⟩]
    · rw [if_neg first]
      refine if_congr ⟨fun h => ⟨.inr h.1, h.2.2⟩, fun h => ?_⟩ rfl rfl
      have out : a ∉ as := fun mem => first ⟨mem, h.2⟩
      exact ⟨h.1.resolve_left out, out, h.2⟩
  · obtain ⟨scrub, joined⟩ := d.toStale_queue as
    obtain ⟨queue, going⟩ := Pool.joinScrub_first none_ (d.goings as)
    rw [going] at joined
    rw [queue] at scrub
    refine ⟨sortBlocks (d.goings as ++ (d.toStale as).goings bs), ?_, sortBlocks_ordered _, fun a => ?_⟩
    · rw [((d.toStale as).toStale_queue bs).1, Pool.joinScrub_later (scrub.trans (by rw [joined])), joined]
      intro a ha
      rw [joined, Device.mem_goings]
      exact fun h => queued a ha h.2
    · rw [mem_sortBlocks, List.mem_append, Device.mem_goings, Device.mem_goings, stays, List.mem_append]
      by_cases mem : a ∈ as <;> simp [mem]

end Sys2Proof.Machine

/-!
Draws and grants in turn (R101 to R103, R107): what a step does to the head of the wait list and to the oldest draw,
what a grant that is made queues, what one that is refused ends, and the settling of O30.
-/

namespace Sys2Proof.Machine

/-! ### The head of the wait list -/

section
variable {d : Device} {g : Grant} {rest : List Grant}

/-- The device without the head of its wait list. -/
def Device.behind (d : Device) (rest : List Grant) : Device := { d with pool := { d.pool with waits := rest } }

/-- Without a cause the wait list is not examined (R103, log 59). -/
theorem Device.waitStep_calm (calm : d.pool.recheck = false) : d.waitStep = none := by
  unfold Device.waitStep
  rw [calm]
  rfl

/-- The head is made when it can be (R101, R103). -/
theorem Device.waitStep_made {as : List BlockAddr} (examined : d.pool.recheck = true) (waits : d.pool.waits = g :: rest)
    (now : d.resolveGrant onlyFree g.requests [] none = some as) :
    d.waitStep = some (((d.behind rest).allocate g.requests as).grantMade g as) := by
  have made : d.grantNow g = some as := now
  unfold Device.waitStep
  rw [if_pos examined, waits]
  dsimp only
  rw [made]
  rfl

/-- A head that cannot be made, but could be with every STALE and ERASING block FREE, waits (R103). -/
theorem Device.waitStep_waits (examined : d.pool.recheck = true) (waits : d.pool.waits = g :: rest)
    (now : d.resolveGrant onlyFree g.requests [] none = none)
    (later : d.allFree.resolveGrant onlyFree g.requests [] none ≠ none) :
    d.waitStep = some { d with pool := { d.pool with recheck := false } } := by
  rw [Device.resolveGrant_allFree] at later
  have unmade : d.grantNow g = none := now
  have may : d.grantMayWait g = true := Option.isSome_iff_ne_none.mpr later
  unfold Device.waitStep
  rw [if_pos examined, waits]
  dsimp only
  rw [unmade, if_pos may, waits]

/-- A head that could not be made even so is refused (R103). -/
theorem Device.waitStep_refused (examined : d.pool.recheck = true) (waits : d.pool.waits = g :: rest)
    (now : d.resolveGrant onlyFree g.requests [] none = none)
    (later : d.allFree.resolveGrant onlyFree g.requests [] none = none) :
    d.waitStep = some ((d.behind rest).grantRefused g) := by
  rw [Device.resolveGrant_allFree] at later
  have unmade : d.grantNow g = none := now
  have may : ¬d.grantMayWait g = true := fun h => Option.isSome_iff_ne_none.mp h later
  unfold Device.waitStep
  rw [if_pos examined, waits]
  dsimp only
  rw [unmade, if_neg may]
  rfl

/-- Without a grant that waits there is no examination and no demand erase (R103, R104). -/
theorem Device.steps_none (none_ : d.pool.waits = []) : d.waitStep = none ∧ d.demandStep = none := by
  constructor
  · unfold Device.waitStep
    rw [none_]
    exact ite_self none
  · refine Device.demandStep_none (.inr ?_)
    unfold Device.nextDemand
    rw [none_]

/-! ### A grant refused -/

/-- The put of a refused grant ends NO_SPACE (R31, R34, log 11). -/
theorem Device.grantRefused_put {id : Nat} {again : Option Copy} {w : PutWork} (asker : g.asker = .put id again)
    (work : d.work? id = some (.put w)) : d.grantRefused g = d.putEnd id { w with ending := some .noSpace } := by
  unfold Device.grantRefused
  rw [asker]
  dsimp only
  unfold Device.putRefused
  rw [work]

/-- A second commit attempt whose grant is refused fails (R39, log 12). -/
theorem Device.grantRefused_commit {i : SlotIndex} (asker : g.asker = .commit i) :
    d.grantRefused g = d.commitFailed i := by
  unfold Device.grantRefused
  rw [asker]
  rfl

/-- The relocation of a refused grant ends NO_SPACE (R69, R143). -/
theorem Device.grantRefused_reloc {id : RelocId} {again : Option Copy} {r : Reloc} (asker : g.asker = .reloc id again)
    (work : d.reloc? id = some r) : d.grantRefused g = d.endReloc id (r.releasePlace again) .noSpace := by
  unfold Device.grantRefused
  rw [asker]
  dsimp only
  unfold Device.relocRefused
  rw [work]

end

/-- The relocation that releases the place of a refused block (R108). -/
theorem Reloc.releasePlace_eq (r : Reloc) (again : Option Copy) :
    r.releasePlace again = { r with secured := if (match again with
      | none => false | some copy => (r.blocks[r.place r.chunk copy]?).any (·.flagged)) = true
        then r.secured - 1 else r.secured } := by
  unfold Reloc.releasePlace
  cases again with
  | none => rfl
  | some copy =>
    dsimp only
    split <;> rfl

/-! ### A grant made -/

section
variable {d : Device} {g : Grant}

/-- Without a repeat grant that waits there is none whose bank to avoid changes (R34). -/
theorem Device.reavoidPut_none {id : Nat} (none_ : ∀ x ∈ d.pool.waits, ∀ copy, x.asker ≠ .put id (some copy))
    (r : ChunkRecord) : d.reavoidPut id r = d := by
  unfold Device.reavoidPut
  rw [List.map_congr_left (g := fun x => x), List.map_id']
  intro x hx
  split
  next f copy asker =>
    refine if_neg fun own => none_ x hx copy ?_
    rw [asker, own]
  next => rfl

/-- Nor one of a relocation (R101). -/
theorem Device.reavoidReloc_none {id : RelocId} (none_ : ∀ x ∈ d.pool.waits, ∀ copy, x.asker ≠ .reloc id (some copy))
    (r : Reloc) : d.reavoidReloc id r = d := by
  unfold Device.reavoidReloc
  dsimp only
  rw [List.map_congr_left (g := fun x => x), List.map_id']
  intro x hx
  split
  next f copy asker =>
    refine if_neg fun own => none_ x hx copy ?_
    rw [asker, own]
  next => rfl

/-- The context that records a granted block (R31, R33). -/
def Ctx.takes (c : Ctx) (k : Nat) (copy : Copy) (a : BlockAddr) : Ctx :=
  { c.modChunk k fun x => x.setBlock copy (some a) with reserved := c.reserved - 1 }

/-- The header job of a copy of a put (R32). -/
def Ctx.headerJob (c : Ctx) (id k : Nat) (copy : Copy) (a : BlockAddr) : Job :=
  segmentJob a.block 0 1 (headerRecord (c.header k copy)) (.put id copy)

section
variable {id : Nat} {w : PutWork} {c : Ctx}

/-- One copy of a put takes its block and queues its header (R31, R32). -/
theorem Device.placeCopy_eq {copy : Copy} {x : CopyRun} (ctx : d.ctx? w.slot = some c) (run : w.run copy = some x)
    (none_ : ∀ x ∈ d.pool.waits, ∀ copy, x.asker ≠ .put id (some copy)) (a : BlockAddr) :
    d.placeCopy id w copy a
      = ((d.setCtx w.slot (c.takes w.chunk copy a)).queueJob a.bank (c.headerJob id w.chunk copy a),
         w.setRun copy (x.into a)) := by
  unfold Device.placeCopy
  rw [ctx, run]
  dsimp only
  rw [Device.reavoidPut_none (d := d.setCtx w.slot _) none_]
  rfl

/-- A repeat grant of a put (R34). -/
theorem Device.grantMade_put_again {copy : Copy} {x : CopyRun} (asker : g.asker = .put id (some copy))
    (work : d.work? id = some (.put w)) (ctx : d.ctx? w.slot = some c) (run : w.run copy = some x)
    (none_ : ∀ x ∈ d.pool.waits, ∀ copy, x.asker ≠ .put id (some copy)) (a : BlockAddr) :
    d.grantMade g [a]
      = ((d.setCtx w.slot (c.takes w.chunk copy a)).queueJob a.bank (c.headerJob id w.chunk copy a)).setWork id
          (.put (w.setRun copy (x.into a))) := by
  unfold Device.grantMade
  rw [asker]
  dsimp only
  unfold Device.putGranted
  rw [work]
  dsimp only [List.head?]
  rw [Device.placeCopy_eq ctx run none_]

/-- The first grant of an unmirrored put (R31). -/
theorem Device.grantMade_put_alone (asker : g.asker = .put id none)
    (work : d.work? id = some (.put w)) (ctx : d.ctx? w.slot = some c)
    (none_ : ∀ x ∈ d.pool.waits, ∀ copy, x.asker ≠ .put id (some copy)) (a : BlockAddr) :
    d.grantMade g [a]
      = ((d.setCtx w.slot (c.takes w.chunk .primary a)).queueJob a.bank (c.headerJob id w.chunk .primary a)).setWork id
          (.put { w with primary := w.primary.into a }) := by
  unfold Device.grantMade
  rw [asker]
  dsimp only
  unfold Device.putGranted
  rw [work]
  dsimp only [List.head?, List.tail]
  rw [Device.placeCopy_eq ctx rfl none_]
  rfl

/-- The context that records the two blocks of a mirrored put (R31, R33). -/
theorem Ctx.takes_both (c : Ctx) (k : Nat) (a b : BlockAddr) :
    (c.takes k .primary a).takes k .mirror b
      = { c.modChunk k fun x => { x with primary := some a, mirror := some b } with reserved := c.reserved - 2 } := by
  unfold Ctx.takes Ctx.modChunk
  dsimp only
  rw [List.modify_modify_eq]
  rfl

/-- The first grant of a mirrored put (R31). -/
theorem Device.grantMade_put_both {m : CopyRun} (asker : g.asker = .put id none)
    (work : d.work? id = some (.put w)) (ctx : d.ctx? w.slot = some c) (mirror : w.mirror = some m)
    (none_ : ∀ x ∈ d.pool.waits, ∀ copy, x.asker ≠ .put id (some copy)) (a b : BlockAddr) :
    d.grantMade g [a, b]
      = (((d.setCtx w.slot ((c.takes w.chunk .primary a).takes w.chunk .mirror b)).queueJob a.bank
            (c.headerJob id w.chunk .primary a)).queueJob b.bank (c.headerJob id w.chunk .mirror b)).setWork id
          (.put { w with primary := w.primary.into a, mirror := some (m.into b) }) := by
  unfold Device.grantMade
  rw [asker]
  dsimp only
  unfold Device.putGranted
  rw [work]
  dsimp only [List.head?, List.tail]
  rw [Device.placeCopy_eq ctx rfl none_]
  have second := Device.placeCopy_eq (copy := .mirror)
    (d := (d.setCtx w.slot (c.takes w.chunk .primary a)).queueJob a.bank (c.headerJob id w.chunk .primary a))
    (w := w.setRun .primary (w.primary.into a)) (Device.ctx?_setCtx_self d w.slot _) mirror none_ b
  dsimp only
  rw [second, ← Device.setCtx_setCtx d w.slot (c.takes w.chunk .primary a) ((c.takes w.chunk .primary a).takes _ _ _)]
  rfl

end

/-- The grant of a second commit attempt: page 0 of the failed block is read (R39, log 13). -/
theorem Device.grantMade_commit {i : SlotIndex} {c : Ctx} {x : CommitCopy} (asker : g.asker = .commit i)
    (ctx : d.ctx? i = some c) (copying : c.copying = some x) (a : BlockAddr) :
    d.grantMade g [a]
      = (d.setCtx i { c.modChunk 0 fun r => { r with primary := some a } with
          copying := some { x with page := 0, secured := 0 } }).queueJob x.failed.bank
          (readJob x.failed.block 0 (.commitCopyRead i .primary)) := by
  unfold Device.grantMade
  rw [asker]
  dsimp only
  unfold Device.commitGranted
  rw [ctx]
  dsimp only
  rw [copying]
  rfl

/-- One copy of a chunk of a relocation takes its block and queues its header (R69, R141). -/
theorem Device.relocCopyInto_eq {id : RelocId} {copy : Copy} {r : Reloc} {x : CopyRun} (run : r.run copy = some x)
    (d : Device) (a : BlockAddr) :
    Device.relocCopyInto id (d, r) copy a
      = (d.queueJob a.bank (r.headerJob id copy a), { r.setRun copy (x.into a) with jobs := r.jobs + 1 }) := by
  unfold Device.relocCopyInto
  dsimp only
  rw [run]
  rfl

/-- Setting a relocation leaves the wait list alone. -/
theorem Device.setReloc_waits (d : Device) (id : RelocId) (r : Reloc) :
    (d.setReloc id r).pool.waits = d.pool.waits := by
  unfold Device.setReloc
  split
  · rfl
  · split <;> rfl

/-- The relocation whose repeat grant is made (R69, R108). -/
def Reloc.refilled (r : Reloc) (copy : Copy) (a : BlockAddr) (flagged : Bool) : Reloc :=
  { r with
    blocks := r.blocks.set (r.place r.chunk copy) { addr := a, flagged := flagged }
    secured := if flagged = true then r.secured - 1 else r.secured
    excess := if flagged = true then r.excess else r.excess - 1 }

/-- A repeat grant of a relocation (R69, R141). -/
theorem Device.grantMade_reloc_again {id : RelocId} {copy : Copy} {r : Reloc} {x : CopyRun} {flagged : Bool}
    (asker : g.asker = .reloc id (some copy)) (work : d.reloc? id = some r) (run : r.run copy = some x)
    (none_ : ∀ y ∈ d.pool.waits, ∀ c, y.asker ≠ .reloc id (some c))
    (was : (r.blocks[r.place r.chunk copy]?).any (·.flagged) = flagged) (a : BlockAddr) :
    d.grantMade g [a]
      = (d.queueJob a.bank ((r.refilled copy a flagged).headerJob id copy a)).setReloc id
          { (r.refilled copy a flagged).setRun copy (x.into a) with jobs := r.jobs + 1 } := by
  unfold Device.grantMade
  rw [asker]
  dsimp only
  unfold Device.relocGranted
  rw [work]
  dsimp only
  rw [was]
  have refill : (if flagged = true
      then { r with blocks := r.blocks.set (r.place r.chunk copy) { addr := a, flagged := flagged }
                    secured := r.secured - 1 }
      else { r with blocks := r.blocks.set (r.place r.chunk copy) { addr := a, flagged := flagged }
                    excess := r.excess - 1 } : Reloc) = r.refilled copy a flagged := by
    cases flagged <;> rfl
  have run' : (r.refilled copy a flagged).run copy = some x := by
    cases copy <;> exact run
  rw [refill, Device.relocCopyInto_eq run', Device.reavoidReloc_none]
  · rfl
  · rw [Device.setReloc_waits]
    exact none_

/-- The reads of the first chunk of a relocation (R69, log 14). -/
theorem Device.relocChunk_first {id : RelocId} {r : Reloc} {x : ChunkRef} (first : r.chunk = 0)
    (block : r.source.chunkAt 0 = some x) :
    d.relocChunk id r
      = ([1, 2, 3, 4, 5, 6, 7, 8, 9, 10, 11, 12, 13, 15].foldl
          (fun d p => d.queueRead x.addr p (.relocRead id 0 p .primary)) d).setReloc id
        { r with got := [], jobs := r.jobs + 14, primary := .start
                 mirror := if r.copies = 2 then some .start else none } := by
  have pages : r.pages = [1, 2, 3, 4, 5, 6, 7, 8, 9, 10, 11, 12, 13, 15] := by
    unfold Reloc.pages
    rw [if_pos first]
    rfl
  unfold Device.relocChunk
  rw [first, block]
  dsimp only
  rw [pages]
  rfl

/-- The blocks of a relocation's grant (R68, R140). -/
theorem grantedBlocks_eq (as : List BlockAddr) (n : Nat) :
    (((List.range as.length).zip as).map fun x => ({ addr := x.2, flagged := decide (x.1 < n) } : NewBlock))
      = as.zipIdx.map fun y => { addr := y.1, flagged := decide (y.2 < n) } := by
  refine List.ext_getElem (by simp) fun i _ _ => ?_
  simp

end

/-! ### The oldest draw -/

section
variable {d : Device} {x : Draw} {rest : List Draw}

/-- Without a draw none is granted (R107). -/
theorem Device.drawStep_none (none_ : d.pool.draws = []) : d.drawStep = none := by
  unfold Device.drawStep
  rw [none_]

/-- A draw that does not fit waits (R107). -/
theorem Device.drawStep_full (draws : d.pool.draws = x :: rest) (full : 16 < d.placesInUse + x.places) :
    d.drawStep = none := by
  unfold Device.drawStep
  rw [draws]
  exact if_neg (Nat.not_le.mpr full)

/-- A draw that fits is granted (R107). -/
theorem Device.drawStep_fits (draws : d.pool.draws = x :: rest) (fits : d.placesInUse + x.places ≤ 16) :
    d.drawStep = some (({ d with pool := { d.pool with draws := rest } } : Device).drawGranted x.drawer) := by
  unfold Device.drawStep
  rw [draws]
  exact if_pos fits

/-- The draw of a second commit attempt asks for its block (R39, R107). -/
theorem Device.drawGranted_commit {i : SlotIndex} {c : Ctx} (drawer : x.drawer = .commit i) (ctx : d.ctx? i = some c) :
    d.drawGranted x.drawer
      = (d.setCtx i { c with copying := c.copying.map fun y => { y with secured := 1 } }).askGrant (.commit i)
          [{ owner := c.owns 0 .primary, allowance := true, tail := false
             avoid := avoidBank (c.chunkAt 0).mirror }] := by
  rw [drawer]
  unfold Device.drawGranted Device.commitDrawn
  dsimp only
  rw [ctx]

/-- The draw of a relocation asks for all its blocks (R68, R107, R140). -/
theorem Device.drawGranted_reloc {id : RelocId} {r : Reloc} (drawer : x.drawer = .reloc id)
    (work : d.reloc? id = some r) :
    d.drawGranted x.drawer = (d.setReloc id { r with secured := r.fromAllowance, stage := .grant }).askGrant
      (.reloc id none) r.requests := by
  rw [drawer]
  unfold Device.drawGranted Device.relocDrawn
  dsimp only
  rw [work]

end

/-- The request for one block of a relocation (R68, R140). -/
def Reloc.requestAt (r : Reloc) (i chunk : Nat) (copy : Copy) (avoid : Avoid) : BlockRequest :=
  { owner := r.owns chunk copy, allowance := decide (i < r.fromAllowance), tail := r.kind.tail, avoid := avoid }

/-- An unmirrored relocation asks for one block for each chunk (R68, R140). -/
theorem Reloc.requests_single {r : Reloc} (single : r.copies = 1) :
    r.requests = (List.range r.source.chunks.length).map fun k => r.requestAt k k .primary .nothing := by
  unfold Reloc.requests Reloc.needed
  rw [single, Nat.mul_one]
  refine List.map_congr_left fun k _ => ?_
  rw [Nat.div_one]
  rfl

/-- The numbers below twice a number, two by two. -/
theorem map_range_double {α : Type} (f : Nat → α) (n : Nat) :
    (List.range (n * 2)).map f = (List.range n).flatMap fun k => [f (2 * k), f (2 * k + 1)] := by
  induction n with
  | zero => rfl
  | succ n ih =>
    rw [Nat.succ_mul, List.range_succ, List.range_succ, List.map_append, List.map_append, ih, List.range_succ,
      List.flatMap_append, Nat.mul_comm n 2, List.append_assoc]
    rfl

/-- A mirrored relocation asks for two blocks for each chunk, the MIRROR's in another bank (R68, R140). -/
theorem Reloc.requests_mirrored {r : Reloc} (two : r.copies = 2) :
    r.requests = (List.range r.source.chunks.length).flatMap fun k =>
      [r.requestAt (2 * k) k .primary .nothing, r.requestAt (2 * k + 1) k .mirror .previous] := by
  unfold Reloc.requests Reloc.needed
  rw [two, map_range_double]
  refine congrArg (List.flatMap · _) (funext fun k => ?_)
  have even : 2 * k % 2 = 0 := Nat.mul_mod_right 2 k
  have odd : (2 * k + 1) % 2 = 1 := by omega
  have half : 2 * k / 2 = k := by omega
  have half' : (2 * k + 1) / 2 = k := by omega
  dsimp only
  rw [even, odd, half, half']
  rfl

/-! ### The obligation -/

/-- The placement of a block, with the bank that a copy of the early namespace takes (R102). -/
theorem Device.placed_eq (d : Device) (o : Owner) (a : BlockAddr) :
    d.placed o a = (match d.earlyNs with
      | none => true
      | some n => if o.name.ns = n
          then decide (a.bank.val ≤ 1) && decide (a.block.val ≤ 63)
            && decide (a.bank = if o.copy = .primary then 0 else 1)
          else !(decide (a.bank.val ≤ 1) && decide (a.block.val ≤ 63))) := by
  unfold Device.placed inEarlyRange
  cases d.earlyNs with
  | none => rfl
  | some n => cases o.copy <;> rfl

/-- Settles O30: each part of a grant's way is one of the lemmas above, said with the statement's own words. -/
theorem grantsAndDrawsAreMadeInTurn : Obligations.GrantsAndDrawsAreMadeInTurn := by
  unfold Obligations.GrantsAndDrawsAreMadeInTurn
  intro places offer count avoided key
  have placed (d : Device) (o : Owner) (a : BlockAddr) : d.placed o a = places d o a := d.placed_eq o a
  have offers (d : Device) (taken : List BlockAddr) (r : BlockRequest) (l : BlockLine) :
      d.offers taken r.owner l = offer d taken r l := by
    unfold Device.offers
    rw [placed]
  have counts (d : Device) (taken : List BlockAddr) (r : BlockRequest) (b : Bank) :
      (d.offered onlyFree taken r.owner b).length = count d taken r b := by
    rw [d.offered_length, funext fun l => congrArg _ (offers d taken r l)]
  refine ⟨fun d taken r previous => ?_, fun d avail r rest taken previous => ?_, fun d g rest waits => ?_,
    fun d none_ => Device.steps_none none_, fun d j as => ?_, fun d a cause page seg e he => ?_,
    fun d r rest taken previous => ?_, fun d g as => ?_, fun _ _ _ => rfl, fun _ _ _ => rfl,
    fun d none_ => Device.drawStep_none none_, fun d x rest draws => ?_, fun d as bs none_ queued => ?_⟩
  · intro candidate short
    have may (b : Bank) : b ∈ d.mayTake onlyFree taken r previous ↔ candidate b := by
      rw [Device.mem_mayTake, counts]
    refine ⟨Device.chooseBlock_none.trans (forall_congr' fun b => not_congr (may b)), fun a chosen => ?_⟩
    obtain ⟨remains, best, l, offered, rfl, order⟩ := Device.chooseBlock_some chosen
    obtain ⟨mem, preferred⟩ := Device.mem_remains.mp remains
    have shorts : (∃ b, candidate b ∧ short b) → short l.addr.bank := by
      rintro ⟨b, takes, below⟩
      exact preferred ⟨b, (may b).mpr takes, below⟩
    refine ⟨(may _).mp mem, shorts, fun b takes below => ?_, l, ?_⟩
    · have stays : b ∈ d.remains onlyFree taken r previous :=
        Device.mem_remains.mpr ⟨(may b).mpr takes, fun ⟨c, hc, some_⟩ => below (preferred ⟨c, hc, some_⟩)⟩
      have most := best b stays
      rw [counts, counts] at most
      exact most
    · obtain ⟨line, _, free⟩ := Device.mem_offered.mp offered
      refine ⟨line, rfl, (offers d taken r l).symm.trans free, fun x hx bank taking => ?_⟩
      exact order x (Device.mem_offered.mpr ⟨hx, bank, (offers d taken r x).trans taking⟩)
  · exact ⟨rfl, fun h => Device.resolveGrant_none h rest, fun a h => Device.resolveGrant_some h rest⟩
  · intro now allFree later without
    refine ⟨Device.waitStep_calm, fun as examined made => Device.waitStep_made examined waits made,
      fun examined unmade may => Device.waitStep_waits examined waits unmade may,
      fun examined unmade never => Device.waitStep_refused examined waits unmade never,
      fun id again w asker work => Device.grantRefused_put asker work, fun i c asker ctx state => ?_,
      fun id again r asker work => ?_, ?_, fun b => ?_⟩
    · exact (Device.grantRefused_commit asker).trans (Device.commitFailed_committing (d := without) ctx state)
    · intro held r' cut freed
      have refused : without.grantRefused g = cut.relocWait id r' := by
        rw [Device.grantRefused_reloc (d := without) asker work, Reloc.releasePlace_eq]
        rfl
      rw [refused, Device.relocWait_ending (r := r') rfl]
      refine ⟨fun out => if_neg out, fun idle maint => (if_pos idle).trans ?_,
        fun f idle mark => (if_pos idle).trans ?_⟩
      · subst maint
        rfl
      · subst mark
        rfl
    · intro named examined
      refine ⟨fun b a found none_ => ?_, fun h => Device.demandStep_none ?_, fun a next => ?_⟩
      · rw [(Device.nextDemand_none waits).mp none_ b] at found
        cases found
      · exact h.imp_left fun no yes => no ((Device.examines_iff waits).mp yes)
      · obtain ⟨lower, own⟩ := Device.nextDemand_some waits next
        exact ⟨lower, own, fun calls => Device.demandStep_some ((Device.examines_iff waits).mpr calls) next⟩
    · intro out takes
      have taking (a : BlockAddr) : d.DemandTakes g b a ↔ takes a := by
        unfold Device.DemandTakes
        simp only [placed]
        exact Iff.rfl
      refine ⟨Device.demandIn_none.trans (or_congr Device.eraseJobOut_iff ?_), fun a found => ?_⟩
      · exact forall₂_congr fun a _ => not_congr (taking a)
      · obtain ⟨front, back, queue, own, before⟩ := Device.demandIn_some found
        exact ⟨front, back, queue, (taking a).mp own, fun x hx wanted => before x hx ((taking x).mpr wanted)⟩
  · exact ⟨rfl, d.unpin_examine as, rfl, rfl, rfl⟩
  · exact ⟨d.blockFreed_recheck a, Device.makeBad_recheck he cause page seg⟩
  · refine ⟨rfl, fun h => (Device.unmet_none h rest).trans ?_, fun a h => Device.unmet_some h rest⟩
    cases r.avoid <;> rfl
  · intro run
    refine ⟨fun id w c a work ctx none_ => ?_, fun i c x a asker ctx copying one => ?_,
      fun id copy r x a asker work running one none_ => ?_, fun id r x asker work block => ?_⟩
    · intro headerJob
      refine ⟨fun copy x asker running one => ?_, fun asker alone one => ?_, fun m b asker mirror two => ?_⟩
      · rw [one]
        exact Device.grantMade_put_again asker work ctx running none_ a
      · rw [one]
        exact Device.grantMade_put_alone asker work ctx none_ a
      · rw [two, Device.grantMade_put_both asker work ctx mirror none_ a b, Ctx.takes_both]
        rfl
    · rw [one]
      exact Device.grantMade_commit asker ctx copying a
    · intro flagged
      rw [one, Device.grantMade_reloc_again asker work running none_ rfl a]
      cases copy <;> rfl
    · unfold Device.grantMade
      rw [asker]
      dsimp only
      unfold Device.relocGranted
      rw [work]
      dsimp only
      rw [grantedBlocks_eq]
      exact Device.relocChunk_first rfl block
  · intro used without
    refine ⟨Device.drawStep_full draws, fun fits => ⟨fun i c drawer ctx => ?_, fun id r drawer work => ?_⟩⟩
    · rw [Device.drawStep_fits draws fits]
      refine congrArg some ((Device.drawGranted_commit (d := without) drawer ctx).trans ?_)
      cases (c.chunkAt 0).mirror <;> rfl
    · have granted := (Device.drawStep_fits draws fits).trans
        (congrArg some (Device.drawGranted_reloc (d := without) drawer work))
      have tail : r.kind.tail = decide (r.kind = .wear) := by cases r.kind <;> rfl
      intro needed owner request asked
      have requested (i chunk : Nat) (copy : Copy) (avoid : Avoid) :
          r.requestAt i chunk copy avoid = request i chunk copy avoid := by
        unfold Reloc.requestAt
        rw [tail]
        rfl
      refine ⟨fun single => granted.trans ?_, fun two => granted.trans ?_⟩
      · rw [Reloc.requests_single single, funext fun k => requested k k .primary .nothing]
        rfl
      · rw [Reloc.requests_mirrored two, funext fun k => congrArg₂ (fun x y => [x, y])
          (requested (2 * k) k .primary .nothing) (requested (2 * k + 1) k .mirror .previous)]
        rfl
  · exact Device.toStale_twice none_ queued as bs

end Sys2Proof.Machine

/-!
The jobs of a purge (R76 to R79, R125): the erase set and its members, which of them a purge takes next, the marks and
the end of a record, and the settling of O51.
-/

namespace Sys2Proof.Machine

/-! ### The rows -/

section
variable {s : State} {b : Bank} {j : Job}

/-- A PURGE mark goes to the purge (R76). -/
theorem State.execPurgeMarkDone_working (h : s.Working b j) (hby : j.by_ = .purgeMark) (o : OkFail) :
    exec (.purgeMarkDone b o) s = .next (s.afterWork b j o (s.purgeMarkDone b j o)) := by
  refine congrArg Host.Outcome.next (State.programDone_working h o ?_)
  unfold Device.onPurgeMark
  exact if_pos hby

/-- The erase of a purge goes to it (R78). -/
theorem State.execPurgeEraseDone_working (h : s.Working b j) (hby : j.by_ = .purgeErase) (o : OkFail) :
    exec (.purgeEraseDone b o) s
      = .next (s.afterWork b j o (s.purgeErased { bank := b, block := j.block } o)) := by
  refine congrArg Host.Outcome.next (State.programDone_working h o ?_)
  unfold Device.onPurgeErase
  exact if_pos hby

/-- The verify of a purge goes to it (R78). -/
theorem State.execPurgeVerifyDone_working (h : s.Working b j) (hby : j.by_ = .purgeVerify) (o : OkFail) :
    exec (.purgeVerifyDone b o) s = .next (s.afterWork b j o
      (s.purgeVerifyDone b j (s.verifyPasses { bank := b, block := j.block } j.target.1 o))) := by
  refine congrArg Host.Outcome.next (State.verifyDone_working h o ?_)
  unfold Device.onPurgeVerify
  exact if_pos hby

/-- A page of an overwrite goes to the purge, whatever its outcome (R78, R125). -/
theorem State.execPurgeOverwriteDone_working (h : s.Working b j) (hby : j.by_ = .purgeOverwrite) (o : OkFail) :
    exec (.purgeOverwriteDone b o) s = .next (s.afterWork b j o (s.purgeOverwriteDone b j)) := by
  refine congrArg Host.Outcome.next (State.programDone_working h o ?_)
  unfold Device.onPurgeOverwrite
  exact if_pos hby

end

/-! ### The members of the erase set -/

section
variable {d : Device} {w : PurgeWork} {set : List PurgeMember} {m : PurgeMember} {a : BlockAddr}

/-- The purge that has a block in its erase set (R77). -/
theorem Device.member?_eq (purge : d.purge = some w) (step : w.step = .erase set)
    (found : (set.find? fun m => decide (m.addr = a)) = some m) : d.member? a = some (w, set, m) := by
  unfold Device.member?
  rw [purge]
  dsimp only
  rw [step]
  dsimp only
  rw [found]
  rfl

/-- A member of the set takes a step (R77, R78). -/
theorem Device.memberTo_eq (member : d.member? a = some (w, set, m)) (x : MemberStep) :
    d.memberTo a x = { d with purge := some (w.withSet (stepMember set a x)) } := by
  unfold Device.memberTo
  rw [member]

/-- A member leaves the set (R77, R78). -/
theorem Device.memberGone_eq (member : d.member? a = some (w, set, m)) :
    d.memberGone a = { d with purge := some (w.withSet (dropMember set a)) } := by
  unfold Device.memberGone
  rw [member]

/-- Only the purge says which blocks it has. -/
theorem Device.member?_congr {d' : Device} (same : d'.purge = d.purge) (a : BlockAddr) :
    d'.member? a = d.member? a := by
  unfold Device.member?
  rw [same]

/-- A block that goes BAD leaves the purge alone. -/
theorem Device.makeBad_purge (d : Device) (a : BlockAddr) (cause : BadCause) (page seg : Nat) :
    (d.makeBad a cause page seg).purge = d.purge := by
  obtain ⟨pool, engines, made⟩ := d.makeBad_fields a cause page seg
  rw [made]

/-- Nor does one that becomes FREE. -/
theorem Device.blockFreed_purge (d : Device) (a : BlockAddr) : (d.blockFreed a).purge = d.purge := by
  unfold Device.blockFreed
  dsimp only
  split <;> rfl

end

/-! ### What a completion does to a member -/

section
variable {d : Device} {b : Bank} {j : Job} {x : PurgeWork × List PurgeMember × PurgeMember}

/-- A scrub erase of a member is handed over to the purge (R77). -/
theorem Device.scrubEraseDone_purged (member : d.member? { bank := b, block := j.block } = some x) (o : OkFail) :
    d.scrubEraseDone b j o = d.purgeErased { bank := b, block := j.block } o := by
  unfold Device.scrubEraseDone
  dsimp only
  rw [member]
  rfl

/-- A wear stamp of a member is handed over to the purge (R77). -/
theorem Device.wearStampDone_purged (member : d.member? { bank := b, block := j.block } = some x) :
    d.wearStampDone b j .ok = (d.modBlock { bank := b, block := j.block } fun e =>
      { e with erase := some { eraser := .purge, stamp := false } }).memberTo { bank := b, block := j.block }
        (.toVerify 1) := by
  unfold Device.wearStampDone
  dsimp only
  rw [member]
  rfl

variable (d b)

/-- A whole block found clean has been erased (R78, R106). -/
theorem Device.purgeVerifyDone_whole (whole : j.target.1 = 0) :
    d.purgeVerifyDone b j true
      = (d.eraseCounted { bank := b, block := j.block }).memberGone { bank := b, block := j.block } := by
  unfold Device.purgeVerifyDone
  exact if_pos whole

/-- A block found clean behind its stamp is FREE (R78). -/
theorem Device.purgeVerifyDone_half (half : j.target.1 ≠ 0) :
    d.purgeVerifyDone b j true
      = (d.blockFreed { bank := b, block := j.block }).memberGone { bank := b, block := j.block } := by
  unfold Device.purgeVerifyDone
  exact if_neg half

/-- An overwrite goes on to the next page (R78, R125). -/
theorem Device.purgeOverwriteDone_more (more : j.target.1 < 15) :
    d.purgeOverwriteDone b j
      = (d.memberTo { bank := b, block := j.block } (.overwriting (j.target.1 + 1))).queueOverwrite
          { bank := b, block := j.block } (j.target.1 + 1) := by
  unfold Device.purgeOverwriteDone
  exact if_pos more

/-- An overwritten block is BAD, without an owner, and counted (R78). -/
theorem Device.purgeOverwriteDone_last (last : 15 ≤ j.target.1) :
    d.purgeOverwriteDone b j
      = (fun d : Device => { d with purge := d.purge.map fun w => { w with overwritten := w.overwritten + 1 } })
          (((d.makeBad { bank := b, block := j.block } .erase 0 0).modBlock { bank := b, block := j.block } fun e =>
            { e with owner := none }).memberGone { bank := b, block := j.block }) := by
  unfold Device.purgeOverwriteDone
  exact if_neg (Nat.not_lt.mpr last)

end

/-! ### The erase step -/

/-- The members of an erase set, line by line (R77). -/
theorem Device.eraseSet_eq (d : Device) (e : Entry) :
    d.eraseSet e = d.pool.table.filterMap fun l => l.entry.owner.bind fun o =>
      if o.name = e.name ∧ l.entry.state.purged = true then
        some { addr := l.addr, rank := e.rankOf l.addr, step := .waiting } else none := by
  unfold Device.eraseSet
  refine congrArg (List.filterMap · d.pool.table) (funext fun l => ?_)
  cases l.entry.owner <;> rfl

/-- The states that an erase set takes its blocks from (R77). -/
theorem BlockState.purged_eq (x : BlockState) : x.purged = (decide (x ≠ .descriptor) && decide (x ≠ .free)) := by
  cases x <;> rfl

section
variable {d : Device} {w : PurgeWork} {e : Entry}

/-- The erase step begins with the set of the record (R77). -/
theorem Device.beginErase_eq (entry : d.entry? w.current = some e) :
    d.beginErase w = { d with purge := some (w.withSet (d.eraseSet e)) } := by
  unfold Device.beginErase
  rw [entry]

/-- Without a MIRROR chunk 0, or with a BAD one, there is no second mark (R76). -/
theorem Device.purgeMirrorMark_none (entry : d.entry? w.current = some e) (none_ : e.version.mirrorAt 0 = none) :
    d.purgeMirrorMark w = d.beginErase w := by
  unfold Device.purgeMirrorMark
  rw [entry, Option.bind_some, none_]
  rfl

/-- A MIRROR chunk 0 that is BAD takes no mark (R76). -/
theorem Device.purgeMirrorMark_bad {m : BlockAddr} (entry : d.entry? w.current = some e)
    (some_ : e.version.mirrorAt 0 = some m) (bad : d.blockState m = some .bad) :
    d.purgeMirrorMark w = d.beginErase w := by
  unfold Device.purgeMirrorMark
  rw [entry, Option.bind_some, some_]
  exact if_pos bad

/-- A MIRROR chunk 0 takes the second mark (R76). -/
theorem Device.purgeMirrorMark_good {m : BlockAddr} (entry : d.entry? w.current = some e)
    (some_ : e.version.mirrorAt 0 = some m) (good : d.blockState m ≠ some .bad) :
    d.purgeMirrorMark w = ({ d with purge := some { w with step := .mark .mirror } } : Device).queueJob m.bank
      (segmentJob m.block 14 12 (markRecord .purge 4 e.version.generation) .purgeMark) := by
  unfold Device.purgeMirrorMark
  rw [entry, Option.bind_some, some_]
  exact if_neg good

/-- A resumed purge begins with the erase step (R162). -/
theorem Device.beginPurgeRecord_resumed (resumed : w.flight = none) : d.beginPurgeRecord w = d.beginErase w := by
  unfold Device.beginPurgeRecord
  rw [resumed]

/-- A purge of a record whose PRIMARY chunk 0 is there and good begins with its mark (R76). -/
theorem Device.beginPurgeRecord_marks {id : Nat} {x : ChunkRef} (asked : w.flight = some id)
    (entry : d.entry? w.current = some e) (zero : e.version.chunkAt 0 = some x)
    (good : d.blockState x.addr ≠ some .bad) :
    d.beginPurgeRecord w = ({ d with purge := some { w with step := .mark .primary } } : Device).queueJob x.addr.bank
      (segmentJob x.addr.block 14 12 (markRecord .purge 4 e.version.generation) .purgeMark) := by
  unfold Device.beginPurgeRecord
  rw [asked]
  dsimp only
  rw [entry, Option.bind_some, zero]
  exact if_neg good

/-- One whose PRIMARY chunk 0 is BAD goes to the second mark (R76). -/
theorem Device.beginPurgeRecord_bad {id : Nat} {x : ChunkRef} (asked : w.flight = some id)
    (entry : d.entry? w.current = some e) (zero : e.version.chunkAt 0 = some x)
    (bad : d.blockState x.addr = some .bad) : d.beginPurgeRecord w = d.purgeMirrorMark w := by
  unfold Device.beginPurgeRecord
  rw [asked]
  dsimp only
  rw [entry, Option.bind_some, zero]
  exact if_pos bad

/-- So does one whose PRIMARY chunk 0 is MISSING (R76). -/
theorem Device.beginPurgeRecord_missing {id : Nat} (asked : w.flight = some id)
    (entry : d.entry? w.current = some e) (zero : e.version.chunkAt 0 = none) :
    d.beginPurgeRecord w = d.purgeMirrorMark w := by
  unfold Device.beginPurgeRecord
  rw [asked]
  dsimp only
  rw [entry, Option.bind_some, zero]
  rfl

/-! ### The end of a record -/

/-- The part once a record is purged: no block keeps its name, and the record is gone (R79). -/
def Device.purgedRecord (d : Device) (r : RecordName) : Device :=
  ({ d with pool := { d.pool with table := d.pool.table.map (BlockLine.disown r) } } : Device).removeRecord r

/-- A purged record is in the directory and in the refresh set no more, and the others stay (R79). -/
theorem Device.entry?_purgedRecord (d : Device) (r : RecordName) :
    (d.purgedRecord r).entry? r = none ∧ (∀ q, q ≠ r → (d.purgedRecord r).entry? q = d.entry? q)
      ∧ r ∉ (d.purgedRecord r).pool.refresh := by
  refine ⟨Device.entry?_removeRecord_self _ r, fun q other => ?_, ?_⟩
  · exact (Device.entry?_removeRecord_other _ other).trans (Device.entry?_congr rfl q)
  · unfold Device.purgedRecord Device.removeRecord
    simp

/-- No block names a purged record as its owner, and nothing else of a block changes (R79, log 16). -/
theorem Device.block?_purgedRecord (d : Device) (r : RecordName) (a : BlockAddr) :
    (d.purgedRecord r).pool.block? a = (d.pool.block? a).map fun e =>
      if (e.owner.any fun o => decide (o.name = r)) then { e with owner := none } else e := by
  have line (l : BlockLine) : (l.disown r).addr = l.addr ∧ (l.disown r).entry
      = if (l.entry.owner.any fun o => decide (o.name = r)) then { l.entry with owner := none } else l.entry := by
    unfold BlockLine.disown
    split <;> exact ⟨rfl, rfl⟩
  unfold Pool.block?
  split
  · rfl
  · unfold Device.purgedRecord Device.removeRecord
    dsimp only
    rw [List.find?_map, Option.map_map, Option.map_map]
    rw [show ((fun l => decide (l.addr = a)) ∘ BlockLine.disown r) = fun l : BlockLine => decide (l.addr = a) from
      funext fun l => congrArg (fun x => decide (x = a)) (line l).1]
    exact congrArg (Option.map · _) (funext fun l => (line l).2)

/-- With the erase set empty the record finishes (R79). -/
theorem Device.purgeStep_empty (purge : d.purge = some w) (step : w.step = .erase []) :
    d.purgeStep = some (d.finishPurgeRecord w) := by
  unfold Device.purgeStep
  rw [purge]
  dsimp only
  rw [step]

end

/-! ### The next member -/

section
variable {d : Device} {set : List PurgeMember} {b : Bank}

/-- The order of R77 has reached a block of a rank (log 17). -/
def RankReached (set : List PurgeMember) (r : MemberRank) : Prop :=
  match r with
  | .ordinary => True
  | .mirrorZero => ∀ x ∈ set, x.rank ≠ .ordinary
  | .primaryZero => ∀ x ∈ set, x.rank = .primaryZero

/-- The set says so by its ranks. -/
theorem rankReached_iff (r : MemberRank) : rankReached set r = true ↔ RankReached set r := by
  unfold rankReached RankReached
  cases r with
  | ordinary => exact iff_of_true rfl trivial
  | mirrorZero => simp
  | primaryZero => simp

/-- A purge can go on with a member of its set now (R62, R77). -/
def Device.MemberReady (d : Device) (set : List PurgeMember) (m : PurgeMember) : Prop :=
  match m.step with
  | .waiting => RankReached set m.rank ∧ d.pinsOf m.addr = 0 ∧ (d.blockState m.addr = some .allocated
      ∨ d.blockState m.addr = some .stale ∨ d.blockState m.addr = some .bad)
  | .toVerify _ => True
  | .toOverwrite => True
  | _ => False

/-- The purge asks so. -/
theorem Device.memberReady_iff (m : PurgeMember) : d.memberReady set m = true ↔ d.MemberReady set m := by
  unfold Device.memberReady Device.MemberReady
  cases m.step with
  | waiting =>
    dsimp only
    rw [Bool.and_eq_true, Bool.and_eq_true, Bool.or_eq_true, Bool.or_eq_true, rankReached_iff, decide_eq_true_eq,
      decide_eq_true_eq, decide_eq_true_eq, decide_eq_true_eq, and_assoc, or_assoc]
  | erasing => exact iff_of_false Bool.false_ne_true id
  | toVerify f => exact iff_of_true rfl trivial
  | verifying f => exact iff_of_false Bool.false_ne_true id
  | toOverwrite => exact iff_of_true rfl trivial
  | overwriting p => exact iff_of_false Bool.false_ne_true id

/-- A bank has a job of the purge in hand (R77). -/
def PurgeBusy (set : List PurgeMember) (b : Bank) : Prop :=
  ∃ x ∈ set, x.addr.bank = b ∧ (x.step = .erasing ∨ (∃ f, x.step = .verifying f) ∨ ∃ p, x.step = .overwriting p)

/-- The set says so by its steps. -/
theorem purgeBusy_iff : (set.any fun m => decide (m.addr.bank = b) && m.step.inHand) = true ↔ PurgeBusy set b := by
  unfold PurgeBusy
  rw [List.any_eq_true]
  refine exists_congr fun x => and_congr_right fun _ => ?_
  rw [Bool.and_eq_true, decide_eq_true_eq]
  refine and_congr_right fun _ => ?_
  unfold MemberStep.inHand
  cases x.step <;> simp

/-- The members of a bank that a purge can go on with, of those with their first step behind them or of all (R77). -/
theorem Device.nextMember_idle (idle : ¬PurgeBusy set b) :
    d.nextMember set b
      = (set.find? fun m => decide (m.addr.bank = b) && (decide (m.step ≠ .waiting) && d.memberReady set m)).or
          (set.find? fun m => decide (m.addr.bank = b) && d.memberReady set m) := by
  unfold Device.nextMember
  rw [if_neg fun h => idle (purgeBusy_iff.mp h)]
  dsimp only
  rw [List.find?_filter, List.find?_filter]
  simp only [Bool.decide_and, Bool.decide_eq_true]
  cases set.find? fun m => decide (m.addr.bank = b) && (decide (m.step ≠ .waiting) && d.memberReady set m) <;> rfl

/-- A busy bank gives no member (R77). -/
theorem Device.nextMember_busy (busy : PurgeBusy set b) : d.nextMember set b = none := by
  unfold Device.nextMember
  exact if_pos (purgeBusy_iff.mpr busy)

/-- What the search for any member asks. -/
theorem Device.seeks_iff (m : PurgeMember) :
    (decide (m.addr.bank = b) && d.memberReady set m) = true ↔ m.addr.bank = b ∧ d.MemberReady set m := by
  rw [Bool.and_eq_true, decide_eq_true_eq, Device.memberReady_iff]

/-- What the search for a member handed over asks (log 53). -/
theorem Device.seeksHanded_iff (m : PurgeMember) :
    (decide (m.addr.bank = b) && (decide (m.step ≠ .waiting) && d.memberReady set m)) = true
      ↔ m.addr.bank = b ∧ m.step ≠ .waiting ∧ d.MemberReady set m := by
  rw [Bool.and_eq_true, Bool.and_eq_true, decide_eq_true_eq, decide_eq_true_eq, Device.memberReady_iff]

/-- A bank gives no member when it is busy with one or none there is ready (R77). -/
theorem Device.nextMember_none :
    d.nextMember set b = none ↔ ∀ m ∈ set, m.addr.bank = b → d.MemberReady set m → PurgeBusy set b := by
  by_cases busy : PurgeBusy set b
  · exact iff_of_true (Device.nextMember_busy busy) fun _ _ _ _ => busy
  · rw [Device.nextMember_idle busy, Option.or_eq_none_iff, List.find?_eq_none, List.find?_eq_none]
    constructor
    · rintro ⟨_, none_⟩ m hm bank ready
      exact absurd (Device.seeks_iff m |>.mpr ⟨bank, ready⟩) (none_ m hm)
    · intro none_
      refine ⟨fun m hm h => ?_, fun m hm h => ?_⟩
      · obtain ⟨bank, _, ready⟩ := (Device.seeksHanded_iff m).mp h
        exact busy (none_ m hm bank ready)
      · obtain ⟨bank, ready⟩ := (Device.seeks_iff m).mp h
        exact busy (none_ m hm bank ready)

/-- The member of a bank that a purge goes on with: one handed over before a waiting one, and otherwise the first of the
order (R77, log 53). -/
theorem Device.nextMember_some {m : PurgeMember} (h : d.nextMember set b = some m) :
    ¬PurgeBusy set b ∧ m.addr.bank = b ∧ d.MemberReady set m
      ∧ (m.step = .waiting → ∀ x ∈ set, x.addr.bank = b → d.MemberReady set x → x.step = .waiting)
      ∧ ∃ front back, set = front ++ m :: back
        ∧ ∀ x ∈ front, x.addr.bank = b → d.MemberReady set x → m.step ≠ .waiting ∧ x.step = .waiting := by
  have idle : ¬PurgeBusy set b := fun busy => by
    rw [Device.nextMember_busy busy] at h
    cases h
  rw [Device.nextMember_idle idle, Option.or_eq_some_iff] at h
  refine ⟨idle, ?_⟩
  rcases h with handed | ⟨none_, found⟩
  · obtain ⟨sought, front, back, split, before⟩ := List.find?_eq_some_iff_append.mp handed
    obtain ⟨bank, step, ready⟩ := (Device.seeksHanded_iff m).mp sought
    refine ⟨bank, ready, fun waits => absurd waits step, front, back, split, fun x hx own able => ⟨step, ?_⟩⟩
    by_contra other
    have passed := (Bool.not_eq_true' _).mp (before x hx)
    exact Bool.false_ne_true (passed.symm.trans ((Device.seeksHanded_iff x).mpr ⟨own, other, able⟩))
  · obtain ⟨sought, front, back, split, before⟩ := List.find?_eq_some_iff_append.mp found
    obtain ⟨bank, ready⟩ := (Device.seeks_iff m).mp sought
    refine ⟨bank, ready, fun _ x hx own able => ?_, front, back, split, fun x hx own able => ?_⟩
    · by_contra other
      exact List.find?_eq_none.mp none_ x hx ((Device.seeksHanded_iff x).mpr ⟨own, other, able⟩)
    · have passed := (Bool.not_eq_true' _).mp (before x hx)
      exact absurd (passed.symm.trans ((Device.seeks_iff x).mpr ⟨own, able⟩)) Bool.false_ne_true

variable {w : PurgeWork}

/-- A purge with members left takes the next one of the lowest bank that has one (R77). -/
theorem Device.purgeStep_members (purge : d.purge = some w) (step : w.step = .erase set) (some_ : set ≠ []) :
    d.purgeStep = (([0, 1, 2, 3] : List Bank).findSome? (d.nextMember set)).map (d.workMember w set) := by
  unfold Device.purgeStep
  rw [purge]
  dsimp only
  rw [step]
  cases set with
  | nil => exact absurd rfl some_
  | cons m rest => rfl

/-- No bank gives a member. -/
theorem Device.members_none :
    ([0, 1, 2, 3] : List Bank).findSome? (d.nextMember set) = none
      ↔ ∀ m ∈ set, d.MemberReady set m → PurgeBusy set m.addr.bank := by
  rw [lowestBank_none]
  constructor
  · exact fun h m hm ready => Device.nextMember_none.mp (h m.addr.bank) m hm rfl ready
  · refine fun h b => Device.nextMember_none.mpr fun m hm bank ready => ?_
    rw [← bank]
    exact h m hm ready

/-- The lowest bank that gives a member. -/
theorem Device.members_some {m : PurgeMember}
    (h : ([0, 1, 2, 3] : List Bank).findSome? (d.nextMember set) = some m) :
    d.nextMember set m.addr.bank = some m ∧ ∀ b, b < m.addr.bank → d.nextMember set b = none := by
  obtain ⟨b, found, lower⟩ := lowestBank_some h
  obtain ⟨_, rfl, _⟩ := Device.nextMember_some found
  exact ⟨found, lower⟩

end

/-! ### The obligation -/

/-- The second mark, or the erase set, once the first mark is over (R76). -/
def Device.afterFirstMark (d : Device) (w : PurgeWork) (e : Entry) : Device :=
  match e.version.mirrorAt 0 with
  | none => { d with purge := some (w.withSet (d.eraseSet e)) }
  | some m =>
    if d.blockState m = some .bad then { d with purge := some (w.withSet (d.eraseSet e)) }
    else ({ d with purge := some { w with step := .mark .mirror } } : Device).queueJob m.bank
      (segmentJob m.block 14 12 (markRecord .purge 4 e.version.generation) .purgeMark)

/-- That is where a purge goes on (R76). -/
theorem Device.purgeMirrorMark_eq {d : Device} {w : PurgeWork} {e : Entry} (entry : d.entry? w.current = some e) :
    d.purgeMirrorMark w = d.afterFirstMark w e := by
  unfold Device.afterFirstMark
  cases mirror : e.version.mirrorAt 0 with
  | none => rw [Device.purgeMirrorMark_none entry mirror, Device.beginErase_eq entry]
  | some m =>
    by_cases bad : d.blockState m = some .bad
    · rw [Device.purgeMirrorMark_bad entry mirror bad, Device.beginErase_eq entry]
      exact (if_pos bad).symm
    · rw [Device.purgeMirrorMark_good entry mirror bad]
      exact (if_neg bad).symm

/-- A purge takes a member, by its step (R77, R78). -/
theorem Device.workMember_eq (d : Device) (w : PurgeWork) (set : List PurgeMember) (m : PurgeMember) :
    let stepTo (d : Device) (x : MemberStep) : Device :=
      { d with purge := some (w.withSet (stepMember set m.addr x)) }
    let overwrites : Device := (stepTo d (.overwriting 0)).queueJob m.addr.bank
      (pageJob m.addr.block 0 (List.replicate 256 0) .purgeOverwrite)
    (∀ f, m.step = .toVerify f → d.workMember w set m = (stepTo d (.verifying f)).queueJob m.addr.bank
      { block := m.addr.block, op := .eraseVerify f, cls := .erase, by_ := .purgeVerify })
    ∧ (m.step = .toOverwrite → d.workMember w set m = overwrites)
    ∧ (m.step = .waiting → d.blockState m.addr = some .bad → d.workMember w set m = overwrites)
    ∧ (m.step = .waiting → d.blockState m.addr ≠ some .bad → d.workMember w set m = (stepTo
        (({ d with pool := { d.pool with scrub := d.pool.scrub.filter fun x => decide (x ≠ m.addr) } } :
          Device).modBlock m.addr fun e =>
            { e with state := .erasing, erase := some { eraser := .purge, stamp := false } }) .erasing).queueJob
        m.addr.bank { block := m.addr.block, op := .blockErase, cls := .erase, by_ := .purgeErase }) := by
  intro stepTo overwrites
  unfold Device.workMember
  refine ⟨fun f step => ?_, fun step => ?_, fun step bad => ?_, fun step good => ?_⟩
  · rw [step]
  · rw [step]
    rfl
  · rw [step]
    exact if_pos bad
  · rw [step]
    exact if_neg good

/-- Settles O51: the marks, the jobs of one member, the choice of the next, and the two ends of a record. -/
theorem purgeJobsEraseAndVerify : Obligations.PurgeJobsEraseAndVerify := by
  unfold Obligations.PurgeJobsEraseAndVerify
  intro taken rank erases mirrorMark
  have erasesSo (d : Device) (w : PurgeWork) (e : Entry) :
      ({ d with purge := some (w.withSet (d.eraseSet e)) } : Device) = erases d w e := by
    have states (x : BlockState) : x.purged = taken x := x.purged_eq
    rw [Device.eraseSet_eq]
    simp only [states]
    rfl
  have beginErase (d : Device) (w : PurgeWork) (e : Entry) (entry : d.entry? w.current = some e) :
      d.beginErase w = erases d w e := (Device.beginErase_eq entry).trans (erasesSo d w e)
  have marks (d : Device) (w : PurgeWork) (e : Entry) (entry : d.entry? w.current = some e) :
      d.purgeMirrorMark w = mirrorMark d w e := by
    rw [Device.purgeMirrorMark_eq entry]
    unfold Device.afterFirstMark
    rw [erasesSo] <;> rfl
  refine ⟨fun s b j w e h hby purge entry => ⟨fun step => ?_, fun step => ?_⟩, fun s b j w set m h => ?_,
    fun d w set purge step some_ => ?_, fun d w e entry => ⟨fun resumed => ?_, fun id x asked zero good => ?_,
      fun id x asked zero bad => ?_, fun id asked zero => ?_⟩, fun d w purge step => ?_⟩
  · have kept : (s.programFailed b j).entry? w.current = some e := by rw [Device.programFailed_entry?, entry]
    have marked : (s.modEntry w.current fun e => { e with marks := 4 }).entry? w.current
        = some { e with marks := 4 } := Device.entry?_modEntry_some entry rfl
    constructor
    · rw [State.execPurgeMarkDone_working h hby]
      unfold Device.purgeMarkDone
      rw [purge]
      dsimp only
      rw [step]
      dsimp only
      rw [marks _ w _ marked]
    · rw [State.execPurgeMarkDone_working h hby]
      unfold Device.purgeMarkDone
      rw [purge]
      dsimp only
      rw [step]
      dsimp only
      rw [marks _ w _ kept]
  · constructor
    · rw [State.execPurgeMarkDone_working h hby]
      unfold Device.purgeMarkDone
      rw [purge]
      dsimp only
      rw [step]
      dsimp only
      rw [beginErase _ w _ entry]
    · intro lost
      have kept : (s.programFailed b j).entry? w.current = some e := by rw [Device.programFailed_entry?, entry]
      have missing : ((s.programFailed b j).loseMirrorZero w.current).entry? w.current = some (lost e) :=
        (Device.entry?_congr rfl _).trans (Device.entry?_modEntry_some (f := lost) kept rfl)
      rw [State.execPurgeMarkDone_working h hby]
      unfold Device.purgeMarkDone
      rw [purge]
      dsimp only
      rw [step]
      dsimp only
      rw [beginErase _ w _ missing]
      rfl
  · intro a purge step found stepTo gone own
    have member : s.member? a = some (w, set, m) := Device.member?_eq purge step found
    have ownMember : own.member? a = some (w, set, m) := member
    have erased (o : OkFail) : s.purgeErased a o
        = stepTo own (match o with | .ok => .toVerify 0 | .fail => .toOverwrite) := by
      unfold Device.purgeErased
      exact Device.memberTo_eq ownMember _
    refine ⟨fun hby => ⟨?_, ?_⟩, fun hby => ⟨?_, ?_⟩, fun hby => ⟨?_, ?_⟩, fun hby o e block general => ?_,
      fun hby o => ⟨fun more => ?_, fun last => ?_⟩⟩
    · rw [State.execPurgeEraseDone_working h hby]
      exact congrArg (fun d => Host.Outcome.next (s.afterWork b j .ok d)) (erased .ok)
    · rw [State.execPurgeEraseDone_working h hby]
      exact congrArg (fun d => Host.Outcome.next (s.afterWork b j .fail d)) (erased .fail)
    · rw [State.execScrubEraseDone_working h hby, Device.scrubEraseDone_purged member]
      exact congrArg (fun d => Host.Outcome.next (s.afterWork b j .ok d)) (erased .ok)
    · rw [State.execScrubEraseDone_working h hby, Device.scrubEraseDone_purged member]
      exact congrArg (fun d => Host.Outcome.next (s.afterWork b j .fail d)) (erased .fail)
    · rw [State.execWearStampDone_working h hby, Device.wearStampDone_purged member]
      exact congrArg (fun d => Host.Outcome.next (s.afterWork b j .ok d)) (Device.memberTo_eq ownMember _)
    · rw [State.execWearStampDone_working h hby]
      refine congrArg (fun d => Host.Outcome.next (s.afterWork b j .fail d)) (Device.memberGone_eq (m := m) ?_)
      rw [Device.member?_congr (Device.programFailed_purge _ b j), member]
    · intro counted
      rw [State.execPurgeVerifyDone_working h hby]
      refine ⟨fun clean whole => ⟨fun worn => ?_, fun good => ?_⟩, fun clean half => ⟨s.blockFreed a, ?_, ?_⟩,
        fun dirty => ?_⟩
      · rw [clean, Device.purgeVerifyDone_whole s.toDevice b whole, Device.eraseCounted_worn block worn,
          Device.memberGone_eq (w := w) (set := set) (m := m)]
        · rfl
        · rw [Device.member?_congr (Device.makeBad_purge _ a .wear 0 0)]
          exact member
      · rw [clean, Device.purgeVerifyDone_whole s.toDevice b whole, Device.eraseCounted_stamped block good,
          Device.memberGone_eq (w := w) (set := set) (m := m)]
        · rfl
        · exact member
      · rw [clean, Device.purgeVerifyDone_half s.toDevice b half, Device.memberGone_eq (w := w) (set := set) (m := m)]
        · rfl
        · rw [Device.member?_congr (Device.blockFreed_purge _ a)]
          exact member
      · exact Device.block?_blockFreed general block
      · rw [dirty]
        exact congrArg (fun d => Host.Outcome.next (s.afterWork b j o d)) (Device.memberTo_eq member _)
    · rw [State.execPurgeOverwriteDone_working h hby, Device.purgeOverwriteDone_more s.toDevice b more,
        Device.memberTo_eq member]
      rfl
    · intro d
      rw [State.execPurgeOverwriteDone_working h hby, Device.purgeOverwriteDone_last s.toDevice b last,
        Device.memberGone_eq (w := w) (set := set) (m := m)]
      · rfl
      · refine (Device.member?_congr (d := s.toDevice) ?_ a).trans member
        exact Device.makeBad_purge s.toDevice a .erase 0 0
  · intro reached ready busy
    have step' := Device.purgeStep_members purge step some_
    constructor
    · rw [step', Option.map_eq_none_iff]
      exact Device.members_none
    · intro d' taken'
      rw [step'] at taken'
      obtain ⟨m, next, rfl⟩ := Option.map_eq_some_iff.mp taken'
      obtain ⟨own, lower⟩ := Device.members_some next
      obtain ⟨idle, _, able, waits, front, back, split, before⟩ := Device.nextMember_some own
      refine ⟨front, m, back, split, able, idle, fun x hx below => ?_, waits, before, d.workMember_eq w set m⟩
      exact Device.nextMember_none.mp (lower x.addr.bank below) x hx rfl
  · exact (Device.beginPurgeRecord_resumed resumed).trans (beginErase d w e entry)
  · exact Device.beginPurgeRecord_marks asked entry zero good
  · exact (Device.beginPurgeRecord_bad asked entry zero bad).trans (marks d w e entry)
  · exact (Device.beginPurgeRecord_missing asked entry zero).trans (marks d w e entry)
  · obtain ⟨gone, others, refresh⟩ := d.entry?_purgedRecord w.current
    refine ⟨d.purgedRecord w.current, ⟨gone, others, refresh, d.block?_purgedRecord w.current⟩,
      fun id none_ asked => ?_, fun none_ resumed => ?_, fun r rest more => ?_⟩
    all_goals
      rw [Device.purgeStep_empty purge step]
      unfold Device.finishPurgeRecord
    · rw [none_, asked]
      rfl
    · rw [none_, resumed]
      rfl
    · rw [more]
      rfl

end Sys2Proof.Machine

/-!
The scanner's reads and stages (R152 to R162): what each page read brings, the selection of the layout, how a bank and
the scan go on, and the settling of O53.
-/

namespace Sys2Proof.Machine

/-! ### The rows -/

section
variable {s : State} {b : Bank} {j : Job}

/-- A page read of the scanner goes to it (R152 to R161). -/
theorem State.execScanReadDone_working (h : s.Working b j) (hby : j.by_ = .scanRead) (o : ReadOutcome) :
    exec (.scanReadDone b o) s = .next (s.afterRead b (s.scanReadDone b j o (s.readBytes b j))) := by
  refine congrArg Host.Outcome.next (State.readDone_working h ?_)
  unfold Device.onScanRead
  exact if_pos hby

/-- An erase verify of the scanner goes to it (R155). -/
theorem State.execScanVerifyDone_working (h : s.Working b j) (hby : j.by_ = .scanVerify) (o : OkFail) :
    exec (.scanVerifyDone b o) s = .next (s.afterWork b j o
      (s.scanVerifyDone b j (s.verifyPasses { bank := b, block := j.block } j.target.1 o))) := by
  refine congrArg Host.Outcome.next (State.verifyDone_working h o ?_)
  unfold Device.onScanVerify
  exact if_pos hby

end

/-! ### Page reads -/

section
variable {d : Device} {b : Bank} {j : Job} {data : List Byte} {page : Nat}

/-- A verify of the scanner gives its block a line (R155, log 58). -/
theorem Device.verifyRead_eq {a : BlockAddr} {v : PendingVerify}
    (found : (d.scan.verifies.find? fun v => decide (v.addr = a)) = some v) (clean : Bool) :
    d.verifyRead a clean = ({ d with scan := { d.scan with
        verifies := d.scan.verifies.filter fun v => decide (v.addr ≠ a) } } : Device).setBlock a
      (scannedBlock (if clean = true then .free else .stale) v.stamp 0 none) := by
  unfold Device.verifyRead
  rw [found]

/-- What a page read of the scanner brings, by the page (R152 to R157). -/
def Device.pageRead (d : Device) (b : Bank) (j : Job) (o : ReadOutcome) (data : List Byte) : Device :=
  if j.block = 0 then
    if j.target.1 = 0 then d.identityRead b o data
    else if j.target.1 ≤ 4 then d.grownBadRead b o data
    else d.layoutRead b j.target.1 o data
  else if j.target.1 = 0 then d.classify { bank := b, block := j.block } o data
  else if 14 ≤ j.target.1 then d.foundPage { bank := b, block := j.block } j.target.1 o data
  else d.bodyRead { bank := b, block := j.block } j.target.1 o data

/-- A page read ends the bank's job, brings what it brings, and the scan goes on (R152). -/
theorem Device.scanReadDone_eq (d : Device) (b : Bank) (j : Job) (o : ReadOutcome) (data : List Byte) :
    d.scanReadDone b j o data = ((d.scanJobOver b).pageRead b j o data).scanOn b := rfl

/-- The identity page of a descriptor (R152). -/
theorem Device.pageRead_identity (descriptor : j.block = 0) (page : j.target.1 = 0) (o : ReadOutcome) :
    d.pageRead b j o data = d.identityRead b o data :=
  (if_pos descriptor).trans (if_pos page)

/-- A page of a grown-bad list (R153). -/
theorem Device.pageRead_grownBad (descriptor : j.block = 0) (low : 1 ≤ j.target.1) (high : j.target.1 ≤ 4)
    (o : ReadOutcome) : d.pageRead b j o data = d.grownBadRead b o data :=
  (if_pos descriptor).trans ((if_neg (Nat.pos_iff_ne_zero.mp low)).trans (if_pos high))

/-- A layout page (R152). -/
theorem Device.pageRead_layout (descriptor : j.block = 0) (low : 5 ≤ j.target.1) (o : ReadOutcome) :
    d.pageRead b j o data = d.layoutRead b j.target.1 o data :=
  (if_pos descriptor).trans ((if_neg (by omega)).trans (if_neg (by omega)))

/-- The first page of a general block (R154). -/
theorem Device.pageRead_first (general : j.block ≠ 0) (page : j.target.1 = 0) (o : ReadOutcome) :
    d.pageRead b j o data = d.classify { bank := b, block := j.block } o data :=
  (if_neg general).trans (if_pos page)

/-- The mark page or the commit page of a chunk 0 block (R156). -/
theorem Device.pageRead_last (general : j.block ≠ 0) (high : 14 ≤ j.target.1) (o : ReadOutcome) :
    d.pageRead b j o data = d.foundPage { bank := b, block := j.block } j.target.1 o data :=
  (if_neg general).trans ((if_neg (by omega)).trans (if_pos high))

/-- A body page (R157). -/
theorem Device.pageRead_body (general : j.block ≠ 0) (low : 1 ≤ j.target.1) (high : j.target.1 < 14) (o : ReadOutcome) :
    d.pageRead b j o data = d.bodyRead { bank := b, block := j.block } j.target.1 o data :=
  (if_neg general).trans ((if_neg (by omega)).trans (if_neg (by omega)))

/-- An identity page that is valid is taken (R152). -/
theorem Device.identityRead_valid {i : Identity} (valid : readIdentity data = some i) (n : Fin 9) :
    d.identityRead b (.corrected n) data
      = { d with identity := i, scan := { d.scan with stage := .descriptors, todo := descriptorTodo } } := by
  unfold Device.identityRead
  dsimp only
  rw [valid]

/-- Without a usable identity page in the last bank the part halts (R152). -/
theorem Device.identityRead_last {o : ReadOutcome} (unusable : o = .uncorrectable ∨ readIdentity data = none) :
    d.identityRead 3 o data = { d with phase := .halted, scan := { d.scan with stage := .finished } } := by
  unfold Device.identityRead
  cases o with
  | uncorrectable => rfl
  | corrected n =>
    dsimp only
    rw [unusable.resolve_left (by nofun)]
    rfl

/-- Without one in another bank the next bank's is read (R152). -/
theorem Device.identityRead_next {o : ReadOutcome} (unusable : o = .uncorrectable ∨ readIdentity data = none)
    (more : b ≠ 3) :
    d.identityRead b o data
      = { d with scan := { d.scan.setTodo (b + 1) (pageTasks 0 [0]) with stage := .identity (b + 1) } } := by
  unfold Device.identityRead
  cases o with
  | uncorrectable => exact if_neg more
  | corrected n =>
    dsimp only
    rw [unusable.resolve_left (by nofun)]
    exact if_neg more

/-- The used slots of a page of a grown-bad list (R153). -/
def usedSlots (data : List Byte) : List (List Byte) := ((List.range 16).map (segment data)).filter fun x => !allOnes x

/-- The slots of a page are those used, each with the entry it holds, if valid (R153). -/
theorem grownBadPage_eq (b : Bank) (data : List Byte) :
    grownBadPage b data = (usedSlots data).map (readGrownBad b) := by
  unfold grownBadPage usedSlots
  generalize (List.range 16).map (segment data) = slots
  induction slots with
  | nil => rfl
  | cons x slots ih =>
    cases erased : allOnes x <;> simp [erased, ih]

/-- The part once slots of a bank's grown-bad list count as used and entries name their blocks (R153). -/
def Device.namedBad (d : Device) (b : Bank) (n : Nat) (entries : List GrownBad) : Device :=
  entries.foldl (fun d g => d.setBlock g.addr (.plain .bad 0)) { d with
    pool := { d.pool with slots := d.pool.slots.set b (d.pool.slots[b] + n) }
    scan := { d.scan with grownBad := d.scan.grownBad ++ entries } }

/-- A page of a grown-bad list names the blocks of its valid entries (R153). -/
theorem Device.grownBadRead_eq (n : Fin 9) :
    d.grownBadRead b (.corrected n) data
      = d.namedBad b (usedSlots data).length ((usedSlots data).filterMap (readGrownBad b)) := by
  unfold Device.grownBadRead
  dsimp only
  rw [grownBadPage_eq, List.length_map, List.filterMap_map]
  rfl

/-- A page of a grown-bad list that cannot be read counts as full (R153). -/
theorem Device.grownBadRead_lost : d.grownBadRead b .uncorrectable data = d.namedBad b 16 [] := rfl

/-- A layout page that cannot be read counts as programmed (R152). -/
theorem Device.layoutRead_lost :
    d.layoutRead b page .uncorrectable data
      = { d with scan := { d.scan with topPage := max d.scan.topPage page } } := by
  unfold Device.layoutRead
  dsimp only
  rw [Option.toList_none, List.map_nil, List.append_nil]
  rfl

end

/-! ### The layout -/

/-- A layout found is as good as another: of a higher version, or of the same in no higher bank (R152). -/
def FoundLayout.AtLeast (l x : FoundLayout) : Prop := x.version < l.version ∨ (x.version = l.version ∧ l.bank ≤ x.bank)

/-- The layout selected is as good as every other (R152). -/
theorem selectLayout_spec (ls : List FoundLayout) :
    (ls = [] → selectLayout ls = none)
      ∧ (ls ≠ [] → ∃ l ∈ ls, selectLayout ls = some l ∧ ∀ x ∈ ls, l.AtLeast x) := by
  refine ⟨fun empty => by rw [empty]; rfl, fun some_ => ?_⟩
  cases ls with
  | nil => exact absurd rfl some_
  | cons y rest =>
    have run (rest : List FoundLayout) (y : FoundLayout) :
        rest.foldl (fun best l => match best with
          | none => some l
          | some x =>
            if x.version < l.version ∨ (x.version = l.version ∧ l.bank.val < x.bank.val) then some l else best)
          (some y)
        = some (rest.foldl (fun x l =>
            if x.version < l.version ∨ (x.version = l.version ∧ l.bank.val < x.bank.val) then l else x) y) := by
      induction rest generalizing y with
      | nil => rfl
      | cons l rest ih =>
        rw [List.foldl_cons, List.foldl_cons, ← ih]
        dsimp only
        split <;> rfl
    have choice (x l : FoundLayout) :
        ((x.version < l.version ∨ (x.version = l.version ∧ l.bank.val < x.bank.val)) → l.AtLeast x)
          ∧ (¬(x.version < l.version ∨ (x.version = l.version ∧ l.bank.val < x.bank.val)) → x.AtLeast l) := by
      refine ⟨fun better => better.imp_right fun ⟨same, lower⟩ => ⟨same, Fin.le_of_lt lower⟩, fun worse => ?_⟩
      obtain ⟨low, tie⟩ := not_or.mp worse
      rcases Nat.lt_or_eq_of_le (Nat.not_lt.mp low) with less | same
      · exact .inl less
      · exact .inr ⟨same, Fin.not_lt.mp fun lower => tie ⟨same.symm, lower⟩⟩
    have trans (x y z : FoundLayout) (hxy : x.AtLeast y) (hyz : y.AtLeast z) : x.AtLeast z := by
      rcases hxy with more | ⟨same, before⟩ <;> rcases hyz with more' | ⟨same', before'⟩
      · exact .inl (Nat.lt_trans more' more)
      · exact .inl (same' ▸ more)
      · exact .inl (same ▸ more')
      · exact .inr ⟨same'.trans same, Fin.le_trans before before'⟩
    obtain ⟨mem, best⟩ := foldl_keeps_best (fun x : FoundLayout => .inr ⟨rfl, Fin.le_refl _⟩) trans rest y
      (List.pairwise_of_forall choice)
    exact ⟨_, mem, run rest y, best⟩

/-- The part with a layout active (R152, R164). -/
def Device.withLayout (d : Device) (l : Layout) (version : Nat) : Device :=
  { d with layout :=
    { active := some l, version := version, staged := l, pending := false, nextPage := d.scan.topPage + 1 } }

/-- The layout pages have come in and none is selected yet (R152, log 26). -/
def Device.selectsLayout (d : Device) : Prop :=
  d.layout.active = none ∧ d.scan.stage = .descriptors
    ∧ d.scan.todo[(0 : Bank)].length + (if d.scan.out[(0 : Bank)] = true then 1 else 0) ≤ 4
    ∧ d.scan.todo[(1 : Bank)].length + (if d.scan.out[(1 : Bank)] = true then 1 else 0) ≤ 4

/-- The Layout Store asks so. -/
theorem Device.selectsLayout_iff (d : Device) :
    (d.layout.active.isNone = true ∧ d.scan.stage = .descriptors ∧ d.scan.layoutsIn 0 = true
      ∧ d.scan.layoutsIn 1 = true) ↔ d.selectsLayout := by
  unfold Device.selectsLayout Scan.layoutsIn
  rw [Option.isNone_iff_eq_none, decide_eq_true_eq, decide_eq_true_eq]

section
variable {d : Device}

/-- Before all layout pages are in, and once a layout is active, none is selected (R152). -/
theorem Device.layoutSelected_waits (h : ¬d.selectsLayout) : d.layoutSelected = d := by
  unfold Device.layoutSelected
  exact if_neg fun yes => h (d.selectsLayout_iff.mp yes)

/-- With all layout pages in the layout found, or the default, becomes active (R152, R164). -/
theorem Device.layoutSelected_eq (h : d.selectsLayout) :
    d.layoutSelected = d.withLayout (((selectLayout d.scan.layouts).map (·.layout)).getD .default)
      (((selectLayout d.scan.layouts).map (·.version)).getD 0) := by
  unfold Device.layoutSelected
  exact if_pos (d.selectsLayout_iff.mpr h)

end

end Sys2Proof.Machine

/-!
How the scanner goes on (R155, R160 to R162): from a bank's list to its next, from stage to stage, to the next jobs, and
to the purges it resumes, with the settling of O53.
-/

namespace Sys2Proof.Machine

/-! ### A bank's list -/

section
variable {d : Device} {b : Bank}

/-- A bank is at the end of its list (R155, R160, R161). -/
def Device.bankAtEnd (d : Device) (b : Bank) : Prop := d.scan.out[b] = false ∧ d.scan.todo[b] = []

/-- A bank that is not is left alone. -/
theorem Device.scanBank_waits (h : ¬d.bankAtEnd b) : d.scanBank b = d := by
  unfold Device.scanBank
  refine if_pos ?_
  by_cases out : d.scan.out[b] = true
  · exact .inl out
  · exact .inr fun empty => h ⟨Bool.eq_false_iff.mpr out, empty⟩

/-- One that is goes on by the stage. -/
theorem Device.scanBank_goesOn (h : d.bankAtEnd b) : ¬(d.scan.out[b] = true ∨ d.scan.todo[b] ≠ []) := by
  rintro (out | some_)
  · exact Bool.false_ne_true (h.1.symm.trans out)
  · exact some_ h.2

/-- A bank's next list (R155, R156, R160). -/
def Device.bankList (d : Device) (b : Bank) (ts : List ScanTask) : Device :=
  { d with scan := { d.scan with todo := d.scan.todo.set b ts, detail := d.scan.detail.set b true } }

/-- Only the early range and the full scan have second lists (R160, R161). -/
theorem Device.scanBank_other (stage : d.scan.stage ≠ .early ∧ d.scan.stage ≠ .full) : d.scanBank b = d := by
  unfold Device.scanBank
  split
  · rfl
  · split
    next early => exact absurd early stage.1
    next full => exact absurd full stage.2
    next => rfl

/-- In the early range a bank goes on to the chunk 0 pages of the early namespace's blocks (R156, R160). -/
theorem Device.scanBank_early (h : d.bankAtEnd b) (stage : d.scan.stage = .early) :
    d.scanBank b = if d.scan.detail[b] = true then d else d.bankList b (markTasks d.earlyFound b) := by
  unfold Device.scanBank
  rw [if_neg (Device.scanBank_goesOn h), stage]
  rfl

/-- In the full scan a bank whose details are read is at its end (R155). -/
theorem Device.scanBank_over (h : d.bankAtEnd b) (stage : d.scan.stage = .full) (detail : d.scan.detail[b] = true) :
    d.scanBank b = d.setEstimates b := by
  unfold Device.scanBank
  rw [if_neg (Device.scanBank_goesOn h), stage]
  dsimp only
  rw [if_pos detail]
  exact if_pos h.2

/-- In the full scan a bank goes on to its chunk 0 pages and its verifies, and without any to its end (R155, R156). -/
theorem Device.scanBank_details (h : d.bankAtEnd b) (stage : d.scan.stage = .full) (first : d.scan.detail[b] = false)
    {ts : List ScanTask} (tasks : markTasks d.scan.found b ++ verifyTasks d.scan.verifies b = ts) :
    d.scanBank b = if ts = [] then (d.bankList b ts).setEstimates b else d.bankList b ts := by
  have listed : (d.bankList b ts).scan.todo[b] = ts := by
    unfold Device.bankList
    simp
  have list : (if d.scan.detail[b] = true then d
      else { d with scan := { d.scan.setTodo b (markTasks d.scan.found b ++ verifyTasks d.scan.verifies b) with
          detail := d.scan.detail.set b true } }) = d.bankList b ts := by
    rw [if_neg (fun read => Bool.false_ne_true (first.symm.trans read)), tasks]
    rfl
  unfold Device.scanBank
  rw [if_neg (Device.scanBank_goesOn h), stage]
  dsimp only
  rw [list]
  exact if_congr (congrArg (· = []) listed).to_iff rfl rfl

end

/-! ### The stages -/

section
variable {d : Device}

/-- Every bank is at the end of its list. -/
theorem Scan.allDone_iff (s : Scan) : s.allDone = true ↔ ∀ b : Bank, s.out[b] = false ∧ s.todo[b] = [] := by
  unfold Scan.allDone
  rw [Bool.and_eq_true, List.all_eq_true, List.all_eq_true]
  constructor
  · rintro ⟨out, todo⟩ b
    refine ⟨?_, List.isEmpty_iff.mp (todo _ (Vector.mem_toList_iff.mpr (Vector.getElem_mem b.isLt)))⟩
    exact (Bool.not_eq_true' _).mp (out _ (Vector.mem_toList_iff.mpr (Vector.getElem_mem b.isLt)))
  · intro all
    refine ⟨fun x hx => ?_, fun x hx => ?_⟩
    · obtain ⟨i, hi, rfl⟩ := Vector.mem_iff_getElem.mp (Vector.mem_toList_iff.mp hx)
      exact (Bool.not_eq_true' _).mpr (all ⟨i, hi⟩).1
    · obtain ⟨i, hi, rfl⟩ := Vector.mem_iff_getElem.mp (Vector.mem_toList_iff.mp hx)
      exact List.isEmpty_iff.mpr (all ⟨i, hi⟩).2

/-- A stage is over when every bank is at its end (R160, R161). -/
def Device.stageDone (d : Device) : Prop := ∀ b : Bank, d.bankAtEnd b

/-- Until then the scan stays at its stage. -/
theorem Device.scanStage_waits (h : ¬d.stageDone) : d.scanStage = d := by
  unfold Device.scanStage
  exact if_neg fun all => h (d.scan.allDone_iff.mp all)

/-- How the scan goes on once a stage is over (R160, R161). -/
def Device.stageOver (d : Device) : ScanStage → Device
  | .identity _ => d
  | .descriptors =>
    if d.earlyNs.isSome then
      { d with scan := { d.scan with stage := .early, todo := earlyTodo, detail := #v[false, false, true, true] } }
    else d.beginFull
  | .early =>
    match bodyBlocks d.scan.grownBad d.earlyFound with
    | [] => d.finishEarly
    | a :: as => { d with scan := { d.scan with stage := .earlyBodies, todo := bodyTodo (a :: as) } }
  | .earlyBodies => d.finishEarly
  | .full =>
    match bodyBlocks d.scan.grownBad d.fullFound with
    | [] => d.handOver
    | a :: as => { d with scan := { d.scan with stage := .fullBodies, todo := bodyTodo (a :: as) } }
  | .fullBodies => d.handOver
  | .finished => d

/-- Then it goes on by the stage. -/
theorem Device.scanStage_done (h : d.stageDone) {stage : ScanStage} (at_ : d.scan.stage = stage) :
    d.scanStage = d.stageOver stage := by
  have all : d.scanStage = d.stageOver d.scan.stage := if_pos (d.scan.allDone_iff.mpr h)
  rw [all, at_]

/-- The lists of body pages, for blocks (R157). -/
def Device.readsBodies (d : Device) (as : List BlockAddr) (stage : ScanStage) : Device :=
  { d with scan := { d.scan with stage := stage, todo := bodyTodo as } }

/-- An early range with duplicates has their bodies read (R157, R160). -/
theorem Device.stageOver_early {as : List BlockAddr} (doubled : bodyBlocks d.scan.grownBad d.earlyFound = as) :
    d.stageOver .early = if as = [] then d.finishEarly else d.readsBodies as .earlyBodies := by
  unfold Device.stageOver
  dsimp only
  rw [doubled]
  cases as <;> rfl

/-- A full scan with duplicates has their bodies read (R157, R161). -/
theorem Device.stageOver_full {as : List BlockAddr} (doubled : bodyBlocks d.scan.grownBad d.fullFound = as) :
    d.stageOver .full = if as = [] then d.handOver else d.readsBodies as .fullBodies := by
  unfold Device.stageOver
  dsimp only
  rw [doubled]
  cases as <;> rfl

/-- The early namespace is resolved, and the full scan begins with the other blocks found (R160). -/
theorem Device.finishEarly_eq (d : Device) :
    d.finishEarly = ({ d.resolveAll d.earlyFound with scan := { (d.resolveAll d.earlyFound).scan with
      found := (d.resolveAll d.earlyFound).fullFound } } : Device).beginFull := rfl

end

/-- The retire orders are given in turn to the RETIRED entries (R74). -/
theorem numberRetired_eq (es : List Entry) (n : Nat) :
    numberRetired es n = es.zipIdx.map fun x =>
      if x.1.state = .retired then
        { x.1 with
          retireOrder := some (BitVec.ofNat 64 (n + (es.take x.2).countP fun e => decide (e.state = .retired))) }
      else x.1 := by
  induction es generalizing n with
  | nil => rfl
  | cons e rest ih =>
    rw [List.zipIdx_cons, List.map_cons, Nat.zero_add, List.zipIdx_succ, List.map_map]
    unfold numberRetired
    by_cases retired : e.state = .retired
    · rw [if_pos retired, if_pos retired, ih]
      refine congrArg₂ List.cons rfl (List.map_congr_left fun x _ => ?_)
      simp [retired, Nat.add_assoc, Nat.add_comm 1]
    · rw [if_neg retired, if_neg retired, ih]
      refine congrArg₂ List.cons rfl (List.map_congr_left fun x _ => ?_)
      simp [retired]

/-- The scanner hands the next job of each bank over (R152). -/
theorem Device.scanPumpBank_eq (d : Device) (b : Bank) :
    d.scanPumpBank b = match d.scan.todo[b] with
      | [] => d
      | t :: rest =>
        if d.scan.out[b] = true then d
        else
          ({ d with scan := { d.scan with todo := d.scan.todo.set b rest, out := d.scan.out.set b true } } :
            Device).queueJob b t.job := by
  unfold Device.scanPumpBank
  cases d.scan.todo[b] with
  | nil => exact ite_self d
  | cons t rest => rfl

/-- In RESUMING the purges of the PURGING entries are resumed one after another (R162, R163). -/
theorem Device.resumeStep_eq (d : Device) :
    (d.phase ≠ .resuming ∨ d.purge ≠ none → d.resumeStep = none)
      ∧ (d.phase = .resuming → d.purge = none →
        ((d.dir.filter fun e => decide (e.state = .purging)).map (·.name) = [] → d.resumeStep = some d.endResuming)
        ∧ ∀ r rest, (d.dir.filter fun e => decide (e.state = .purging)).map (·.name) = r :: rest →
          d.resumeStep = some (d.beginPurgeRecord { flight := none, current := r, step := .erase [], rest := rest
                                                    purged := 0, overwritten := 0, skipped := 0 })) := by
  unfold Device.resumeStep
  refine ⟨fun h => if_neg fun ⟨phase, purge⟩ => h.elim (absurd phase) (absurd purge), fun phase purge => ?_⟩
  rw [if_pos ⟨phase, purge⟩]
  refine ⟨fun none_ => ?_, fun r rest some_ => ?_⟩
  · rw [none_]
  · rw [some_]

/-- Settles O53: each read, each bank and each stage goes on as the lemmas above say. -/
theorem scanReadsGoOnToTheLayout : Obligations.ScanReadsGoOnToTheLayout := by
  unfold Obligations.ScanReadsGoOnToTheLayout
  intro reads zeros
  refine ⟨fun s b j h => ?_, fun d b => rfl, fun d => ?_, fun d b => ?_, fun d => ?_, numberRetired_eq, fun d => ?_,
    Device.resumeStep_eq⟩
  · intro a page data base
    refine ⟨fun hby o v found => ?_, fun hby o => ?_⟩
    · intro clean
      rw [State.execScanVerifyDone_working h hby]
      refine congrArg (fun d : Device => Host.Outcome.next (s.afterWork b j o (d.scanOn b))) ?_
      exact Device.verifyRead_eq (d := base) found clean
    · intro goesOn
      have goes {d : Device} (brought : base.pageRead b j o data = d) : goesOn d := by
        refine (State.execScanReadDone_working h hby o).trans ?_
        exact congrArg (fun d : Device => Host.Outcome.next (s.afterRead b (d.scanOn b))) brought
      refine ⟨fun descriptor first => ⟨fun n i read valid => ?_, fun unusable => ⟨fun last => ?_, fun more => ?_⟩⟩,
        fun descriptor low high => ?_, fun descriptor low => ?_, fun general first => ?_, fun general high => ?_,
        fun general low high => ?_⟩
      · subst read
        exact goes ((Device.pageRead_identity descriptor first _).trans (Device.identityRead_valid valid n))
      · subst last
        exact goes ((Device.pageRead_identity descriptor first _).trans (Device.identityRead_last unusable))
      · exact goes ((Device.pageRead_identity descriptor first _).trans (Device.identityRead_next unusable more))
      · intro used named
        refine ⟨fun n read => ?_, fun lost => ?_⟩
        · subst read
          exact goes ((Device.pageRead_grownBad descriptor low high _).trans (Device.grownBadRead_eq n))
        · subst lost
          exact goes ((Device.pageRead_grownBad descriptor low high _).trans Device.grownBadRead_lost)
      · intro top
        refine ⟨fun n read => ?_, fun lost => ?_⟩
        · subst read
          exact goes (Device.pageRead_layout descriptor low _)
        · subst lost
          exact goes ((Device.pageRead_layout descriptor low _).trans Device.layoutRead_lost)
      · exact goes (Device.pageRead_first general first o)
      · intro keeps
        refine ⟨fun n read => ?_, fun lost => ?_⟩
        · subst read
          exact goes (Device.pageRead_last general high _)
        · subst lost
          exact goes (Device.pageRead_last general high _)
      · intro keeps
        refine ⟨fun n read => ?_, fun lost => ?_⟩
        · subst read
          exact goes (Device.pageRead_body general low high _)
        · subst lost
          exact goes (Device.pageRead_body general low high _)
  · intro layoutsIn ready takes
    obtain ⟨empty, best⟩ := selectLayout_spec d.scan.layouts
    refine ⟨Device.layoutSelected_waits, fun selects none_ => ?_, fun selects some_ => ?_⟩
    · rw [Device.layoutSelected_eq selects, empty none_]
      rfl
    · obtain ⟨l, mem, chosen, least⟩ := best some_
      refine ⟨l, mem, ?_, least⟩
      rw [Device.layoutSelected_eq selects, chosen]
      rfl
  · intro marks early verifies goesOn estimated atEnd
    refine ⟨fun waits => ?_, fun ended stage => Device.scanBank_early ended stage, fun ended stage first => ⟨?_, ?_⟩,
      fun ended stage detail => Device.scanBank_over ended stage detail⟩
    · exact waits.elim Device.scanBank_waits Device.scanBank_other
    · exact fun some_ => (Device.scanBank_details ended stage first rfl).trans (if_neg some_)
    · exact fun none_ => (Device.scanBank_details ended stage first none_).trans (if_pos rfl)
  · intro done early rest doubled bodies readsBodies full earlyOver handsOver
    have fullSo (d : Device) : d.beginFull = full d := by
      have low : (if d.earlyNs.isSome then 64 else 1) = if d.earlyNs = none then 1 else 64 := by
        cases d.earlyNs <;> rfl
      unfold Device.beginFull Device.fullTodo
      dsimp only
      rw [low]
      rfl
    have earlySo : d.finishEarly = earlyOver := by
      exact (Device.finishEarly_eq d).trans (fullSo _)
    have doubledSo (fs : List FoundBlock) : bodyBlocks d.scan.grownBad fs = doubled fs := by
      refine congrArg (List.flatMap · (foundNames fs)) (funext fun r => ?_)
      unfold foundOf
      dsimp only
      cases winnerOf d.scan.grownBad (fs.filter fun f => decide (f.header.name = r)) <;> rfl
    refine ⟨Device.scanStage_waits, fun ended => ⟨fun b stage => Device.scanStage_done ended stage,
      fun stage => Device.scanStage_done ended stage, fun stage none_ => ?_, fun stage some_ => ?_,
      fun stage some_ => ?_, fun stage none_ => ?_, fun stage => ?_, fun stage some_ => ?_, fun stage none_ => ?_,
      fun stage => Device.scanStage_done ended stage⟩⟩
    · rw [Device.scanStage_done ended stage, ← fullSo]
      exact if_neg (by rw [none_]; exact Bool.false_ne_true)
    · rw [Device.scanStage_done ended stage]
      exact if_pos (Option.isSome_iff_ne_none.mpr some_)
    · rw [Device.scanStage_done ended stage, Device.stageOver_early (doubledSo early), if_neg some_]
      rfl
    · rw [Device.scanStage_done ended stage, Device.stageOver_early (doubledSo early), if_pos none_, earlySo]
    · rw [Device.scanStage_done ended stage, ← earlySo]
      rfl
    · rw [Device.scanStage_done ended stage, Device.stageOver_full (doubledSo (rest d)), if_neg some_]
      rfl
    · rw [Device.scanStage_done ended stage, Device.stageOver_full (doubledSo (rest d)), if_pos none_]
      rfl
  · refine congrArg (fun f => allBanks.foldl f d) (funext fun d => funext fun b => (d.scanPumpBank_eq b).trans ?_)
    cases d.scan.todo[b] with
    | nil => rfl
    | cons t rest => cases t <;> rfl

end Sys2Proof.Machine

/-!
How page 0 of a general block classifies it (R154 to R156): the line a block is given, the list of found blocks, and the
settling of O54.
-/

namespace Sys2Proof.Machine

/-! ### Lines and found blocks -/

/-- A line inserted is found under its block, and every other line as before. -/
theorem find?_insertLine (l : BlockLine) (ls : List BlockLine) (a : BlockAddr) :
    (insertLine l ls).find? (fun x => decide (x.addr = a))
      = if l.addr = a then some l else ls.find? fun x => decide (x.addr = a) := by
  induction ls with
  | nil =>
    unfold insertLine
    by_cases own : l.addr = a <;> simp [own]
  | cons x rest ih =>
    unfold insertLine
    split
    · by_cases own : l.addr = a <;> simp [own]
    · split
      next same =>
        rw [List.find?_cons, List.find?_cons, ← same]
        by_cases own : l.addr = a <;> simp [own]
      next other =>
        rw [List.find?_cons, List.find?_cons, ih]
        by_cases at_ : x.addr = a
        · have apart : ¬l.addr = a := fun own => other (own.trans at_.symm)
          simp [at_, apart]
        · simp [at_]

section
variable {d : Device} {a : BlockAddr}

/-- The line a block is given (R154). -/
theorem Device.block?_setBlock_self (general : a.block ≠ 0) (e : BlockEntry) :
    (d.setBlock a e).pool.block? a = some e := by
  unfold Device.setBlock Pool.block?
  rw [if_neg general, if_neg general]
  dsimp only
  rw [find?_insertLine, if_pos rfl]
  rfl

/-- The other blocks keep theirs. -/
theorem Device.block?_setBlock_other {x : BlockAddr} (other : x ≠ a) (e : BlockEntry) :
    (d.setBlock a e).pool.block? x = d.pool.block? x := by
  unfold Device.setBlock
  split
  · rfl
  · unfold Pool.block?
    dsimp only
    rw [find?_insertLine, if_neg (c := a = x) fun same => other same.symm]

end

/-- A found block joins the list, and every other stays (R156). -/
theorem mem_insertFound {f x : FoundBlock} {fs : List FoundBlock} : x ∈ insertFound f fs ↔ x ∈ fs ∨ x = f := by
  induction fs with
  | nil => simp [insertFound]
  | cons y rest ih =>
    unfold insertFound
    split
    · rw [List.mem_cons, or_comm]
    · rw [List.mem_cons, ih, List.mem_cons, or_assoc]

/-- A record is set aside by an entry of cause PROGRAM at its place (R156). -/
theorem setAside_iff {gb : List GrownBad} {a : BlockAddr} {page seg : Nat} : setAside gb a page seg = true
    ↔ ∃ g ∈ gb, g.addr = a ∧ g.cause = .program ∧ g.page = page ∧ g.segment = seg := by
  unfold setAside
  rw [List.any_eq_true]
  refine exists_congr fun g => and_congr_right fun _ => ?_
  rw [Bool.and_eq_true, Bool.and_eq_true, Bool.and_eq_true, decide_eq_true_eq, decide_eq_true_eq, decide_eq_true_eq,
    decide_eq_true_eq, and_assoc, and_assoc]

/-! ### A block that an entry names -/

section
variable {d : Device} {a : BlockAddr} {data : List Byte} {worst : Nat}

/-- A block that a grown-bad entry names is classified as BAD (R154). -/
theorem Device.classify_named (named : (d.scan.grownBad.any fun g => decide (g.addr = a)) = true) :
    d.classify a .uncorrectable data = d
      ∧ ∀ n : Fin 9, d.classify a (.corrected n) data = d.classifyBad a n.val data := by
  unfold Device.classify
  exact ⟨if_pos named, fun n => if_pos named⟩

/-- A BAD block whose header does not count changes nothing (R154, R156). -/
theorem Device.classifyBad_stays
    (none_ : setAside d.scan.grownBad a 0 1 = true ∨ readHeader (segments data 1 4) = none) :
    d.classifyBad a worst data = d := by
  unfold Device.classifyBad
  by_cases aside : setAside d.scan.grownBad a 0 1 = true
  · rw [if_pos aside]
  · rw [if_neg aside, none_.resolve_left aside]

/-- The BAD member of a version that a block holds (R156). -/
def badMember (a : BlockAddr) (h : Header) (data : List Byte) (worst : Nat) : FoundBlock :=
  { addr := a, header := h, bad := true, stamp := readStamp (segment data 0), worst := worst, page14 := .unread
    page15 := .unread }

/-- A BAD block with a valid header is a BAD member, and of chunk 0 it keeps its owner (R154, R156). -/
theorem Device.classifyBad_member {h : Header} (kept : ¬setAside d.scan.grownBad a 0 1 = true)
    (header : readHeader (segments data 1 4) = some h) :
    d.classifyBad a worst data
      = (if h.chunk = 0 then d.setBlock a { BlockEntry.plain .bad 0 with owner := some h.owner } else d).addFound
          (badMember a h data worst) := by
  unfold Device.classifyBad
  rw [if_neg kept, header]
  rfl

/-- Only the block itself may get another line. -/
theorem Device.block?_classifyBad_other {x : BlockAddr} (other : x ≠ a) :
    (d.classifyBad a worst data).pool.block? x = d.pool.block? x := by
  by_cases stays : setAside d.scan.grownBad a 0 1 = true ∨ readHeader (segments data 1 4) = none
  · rw [Device.classifyBad_stays stays]
  · obtain ⟨kept, some_⟩ := not_or.mp stays
    obtain ⟨h, header⟩ := Option.ne_none_iff_exists'.mp some_
    rw [Device.classifyBad_member kept header]
    by_cases zero : h.chunk = 0
    · rw [if_pos zero]
      exact Device.block?_setBlock_other other _
    · rw [if_neg zero]
      rfl

/-- A BAD block stays BAD (R154). -/
theorem Device.blockState_classifyBad (general : a.block ≠ 0) (bad : d.blockState a = some .bad) :
    (d.classifyBad a worst data).blockState a = some .bad := by
  by_cases stays : setAside d.scan.grownBad a 0 1 = true ∨ readHeader (segments data 1 4) = none
  · rw [Device.classifyBad_stays stays, bad]
  · obtain ⟨kept, some_⟩ := not_or.mp stays
    obtain ⟨h, header⟩ := Option.ne_none_iff_exists'.mp some_
    rw [Device.classifyBad_member kept header]
    by_cases zero : h.chunk = 0
    · rw [if_pos zero]
      exact congrArg (Option.map (·.state)) (Device.block?_setBlock_self general _)
    · rw [if_neg zero]
      exact bad

/-! ### A block that no entry names -/

/-- The line of a block whose erase count is its stamp's, or to be estimated (R155). -/
def scannedLine (x : BlockState) (stamp : Option Nat) : BlockEntry :=
  { BlockEntry.plain x (stamp.getD 0) with estimated := stamp.isNone }

/-- A block that no grown-bad entry names is classified by its page 0 (R154). -/
theorem Device.classify_unnamed (unnamed : (d.scan.grownBad.any fun g => decide (g.addr = a)) = false) :
    d.classify a .uncorrectable data = d.setBlock a (.plain .bad 0)
      ∧ ∀ n : Fin 9, d.classify a (.corrected n) data = d.classifyGood a n.val data := by
  have not_ : ¬(d.scan.grownBad.any fun g => decide (g.addr = a)) = true := fun named =>
    Bool.false_ne_true (unnamed.symm.trans named)
  unfold Device.classify
  exact ⟨if_neg not_, fun n => if_neg not_⟩

/-- A stamp that counts for the average changes no line and no list of blocks (R155). -/
theorem Device.countStamp_same (d : Device) (b : Bank) (stamp : Option Nat) :
    (d.countStamp b stamp).pool = d.pool ∧ (d.countStamp b stamp).scan.found = d.scan.found
      ∧ (d.countStamp b stamp).earlyNs = d.earlyNs := by
  cases stamp <;> exact ⟨rfl, rfl, rfl⟩

/-- A factory BAD block (R154). -/
theorem Device.classifyGood_factory (zero : allZero (segment data 15) = true) :
    d.classifyGood a worst data = d.setBlock a { BlockEntry.plain .bad 0 with factory := true } := if_pos zero

variable (good : allZero (segment data 15) = false)
include good

/-- A good block with a valid header is a member of a version (R154). -/
theorem Device.classifyGood_member {h : Header} (header : readHeader (segments data 1 4) = some h) :
    d.classifyGood a worst data
      = (d.countStamp a.bank (readStamp (segment data 0))).memberFound
          { addr := a, header := h, bad := false, stamp := readStamp (segment data 0), worst := worst
            page14 := .unread, page15 := .unread } := by
  unfold Device.classifyGood
  rw [if_neg (good ▸ Bool.false_ne_true), header]

variable (headless : readHeader (segments data 1 4) = none)
include headless

/-- A good block without a header, by its patterns (R154, log 25). -/
theorem Device.classifyGood_headless :
    d.classifyGood a worst data
      = if allOnes (segments data 1 15) = true then
          if (readStamp (segment data 0)).isSome = true then
            (d.countStamp a.bank (readStamp (segment data 0))).awaitVerify a 1 (readStamp (segment data 0))
          else if allOnes (segment data 0) = true then
            (d.countStamp a.bank (readStamp (segment data 0))).awaitVerify a 0 none
          else (d.countStamp a.bank (readStamp (segment data 0))).setBlock a (scannedLine .stale none)
        else (d.countStamp a.bank (readStamp (segment data 0))).setBlock a
          (scannedLine .stale (readStamp (segment data 0))) := by
  unfold Device.classifyGood
  rw [if_neg (good ▸ Bool.false_ne_true), headless]
  rfl

end

/-! ### The member of a version -/

section
variable {d : Device} {f : FoundBlock}

/-- A member is among the found blocks (R156). -/
theorem Device.mem_memberFound : f ∈ (d.memberFound f).scan.found := by
  unfold Device.memberFound Device.addFound
  exact mem_insertFound.mpr (.inr rfl)

/-- A member of the early namespace outside the early range is STALE with its owner (R160). -/
theorem Device.block?_memberFound_outside (general : f.addr.block ≠ 0)
    (outside : some f.header.name.ns = d.earlyNs ∧ inEarlyRange f.addr = false) :
    (d.memberFound f).pool.block? f.addr = some (scannedBlock .stale f.stamp 0 (some f.header.owner)) := by
  unfold Device.memberFound
  rw [if_pos outside]
  exact Device.block?_setBlock_self general _

/-- Any other member has no line until its version is resolved (log 54). -/
theorem Device.memberFound_inside (inside : ¬(some f.header.name.ns = d.earlyNs ∧ inEarlyRange f.addr = false)) :
    (d.memberFound f).pool = d.pool := by
  unfold Device.memberFound
  rw [if_neg inside]
  rfl

end

/-- Settles O54: row by row of the table of R154. -/
theorem generalBlocksAreClassifiedByTheirFirstPage : Obligations.GeneralBlocksAreClassifiedByTheirFirstPage := by
  unfold Obligations.GeneralBlocksAreClassifiedByTheirFirstPage
  refine ⟨fun d a data n general named => ?_, fun d a data general unnamed => ⟨?_, fun n => ?_⟩⟩
  · intro d' aside
    have listed : (d.scan.grownBad.any fun g => decide (g.addr = a)) = true := by
      obtain ⟨g, hg, own⟩ := named
      exact List.any_eq_true.mpr ⟨g, hg, decide_eq_true own⟩
    obtain ⟨lost, bad⟩ := Device.classify_named (data := data) listed
    have made : d' = d.classifyBad a n.val data := bad n
    rw [made]
    refine ⟨lost, Device.blockState_classifyBad general, fun x other => Device.block?_classifyBad_other other,
      fun stays => Device.classifyBad_stays (stays.imp_left setAside_iff.mpr), fun h kept header => ?_⟩
    rw [Device.classifyBad_member (fun set => kept (setAside_iff.mp set)) header]
    refine ⟨fun f => ?_, fun zero => ?_, fun later => ?_⟩
    · have found : (if h.chunk = 0 then d.setBlock a { BlockEntry.plain .bad 0 with owner := some h.owner }
          else d).scan.found = d.scan.found := by
        split
        · rw [Device.setBlock_scan]
        · rfl
      unfold Device.addFound
      dsimp only
      rw [found]
      exact mem_insertFound
    · rw [if_pos zero]
      exact Device.block?_setBlock_self general _
    · rw [if_neg later]
      rfl
  · rw [(Device.classify_unnamed unnamed).1]
    exact Device.block?_setBlock_self general _
  · intro d' stamp
    have made : d' = d.classifyGood a n.val data := (Device.classify_unnamed unnamed).2 n
    obtain ⟨pool, found, early⟩ := d.countStamp_same a.bank stamp
    have none_ (unstamped : stamp = none) : ¬(readStamp (segment data 0)).isSome = true := fun some_ =>
      Option.isSome_iff_ne_none.mp some_ unstamped
    rw [made]
    refine ⟨fun zero => ?_, fun good => ⟨fun h header => ?_, fun headless erased stamped => ?_,
      fun headless erased unstamped => ⟨fun blank => ?_, fun written => ?_⟩, fun headless written => ?_⟩⟩
    · rw [Device.classifyGood_factory zero]
      exact Device.block?_setBlock_self general _
    · rw [Device.classifyGood_member good header]
      refine ⟨Device.mem_memberFound, fun outside => ?_, fun inside => ?_⟩
      · rw [← early] at outside
        exact Device.block?_memberFound_outside (d := d.countStamp a.bank stamp) general outside
      · rw [← early] at inside
        rw [Device.memberFound_inside inside, pool]
    · rw [Device.classifyGood_headless good headless, if_pos erased, if_pos stamped]
      exact ⟨List.mem_append_right _ (List.mem_singleton_self _), congrArg (Pool.block? · a) pool⟩
    · rw [Device.classifyGood_headless good headless, if_pos erased, if_neg (none_ unstamped), if_pos blank]
      exact ⟨List.mem_append_right _ (List.mem_singleton_self _), congrArg (Pool.block? · a) pool⟩
    · rw [Device.classifyGood_headless good headless, if_pos erased, if_neg (none_ unstamped),
        if_neg (written ▸ Bool.false_ne_true)]
      exact Device.block?_setBlock_self general _
    · rw [Device.classifyGood_headless good headless, if_neg (written ▸ Bool.false_ne_true)]
      exact Device.block?_setBlock_self general _

end Sys2Proof.Machine

/-!
The winner of a key and its candidates, and the choice among duplicates (R156, R157). Lemmas for O55.
-/

namespace Sys2Proof.Machine

/-! ### Commit records -/

section
variable {gb : List GrownBad} {f : FoundBlock} {c : CommitRecord}

/-- A found block holds a commit record for its version (R156). -/
def FoundBlock.Holds (gb : List GrownBad) (f : FoundBlock) (c : CommitRecord) : Prop :=
  f.header.chunk = 0 ∧ ¬setAside gb f.addr 15 0 = true ∧ (∃ bytes, f.page15 = .data bytes ∧ readCommit bytes = some c)
    ∧ c.generation = f.header.generation ∧ c.count = f.header.count ∧ c.bodyLength = f.header.bodyLength

/-- The scanner asks so. -/
theorem FoundBlock.commit?_iff : f.commit? gb = some c ↔ f.Holds gb c := by
  unfold FoundBlock.commit? FoundBlock.Holds
  by_cases out : f.header.chunk ≠ 0 ∨ setAside gb f.addr 15 0 = true
  · rw [if_pos out]
    refine iff_of_false nofun ?_
    rintro ⟨zero, kept, _⟩
    exact out.elim (fun later => later zero) kept
  · obtain ⟨zero, kept⟩ := not_or.mp out
    rw [if_neg out, and_iff_right (not_not.mp zero), and_iff_right kept]
    cases f.page15 with
    | unread => simp
    | unreadable => simp
    | data bytes =>
      dsimp only
      rw [Option.bind_eq_some_iff]
      constructor
      · rintro ⟨x, read, fits⟩
        split at fits
        next same =>
          cases fits
          exact ⟨⟨bytes, rfl, read⟩, same⟩
        next => cases fits
      · rintro ⟨⟨_, page, read⟩, same⟩
        cases page
        exact ⟨c, read, if_pos same⟩

/-- A block holds none just when the scanner finds none. -/
theorem FoundBlock.commit?_none : f.commit? gb = none ↔ ∀ c, ¬f.Holds gb c := by
  rw [Option.eq_none_iff_forall_ne_some]
  exact forall_congr' fun c => not_congr FoundBlock.commit?_iff

/-- It holds one just when the scanner finds one. -/
theorem FoundBlock.commit?_isSome : (f.commit? gb).isSome = true ↔ ∃ c, f.Holds gb c := by
  rw [Option.isSome_iff_exists]
  exact exists_congr fun c => FoundBlock.commit?_iff

/-- A commit record counts one chunk or more (R130). -/
theorem readCommit_count {bytes : List Byte} (h : readCommit bytes = some c) : 1 ≤ c.count := by
  unfold readCommit at h
  dsimp only at h
  split at h
  next valid =>
    obtain rfl := Option.some.inj h
    rw [Bool.and_eq_true, decide_eq_true_eq] at valid
    obtain ⟨_, _, _, count, _⟩ := valid
    exact count
  next => cases h

/-- So does one that a block holds. -/
theorem FoundBlock.Holds.count (h : f.Holds gb c) : 1 ≤ c.count := by
  obtain ⟨_, _, ⟨bytes, _, read⟩, _⟩ := h
  exact readCommit_count read

end

/-! ### The winner -/

/-- The winner so far, with one more record seen (R156, R158). -/
def laterRecord (best : Option CommitRecord) (c : CommitRecord) : Option CommitRecord :=
  match best with
  | none => some c
  | some x => if x.generation < c.generation then some c else best

/-- A record is the first of the highest generation along a list of found blocks (R156). -/
def FirstHighest (gb : List GrownBad) (fs : List FoundBlock) (c : CommitRecord) : Prop :=
  ∃ front f back, fs = front ++ f :: back ∧ f.Holds gb c
    ∧ (∀ g ∈ front, ∀ x, g.Holds gb x → x.generation < c.generation)
    ∧ ∀ g ∈ back, ∀ x, g.Holds gb x → x.generation ≤ c.generation

section
variable {gb : List GrownBad}

/-- A run along found blocks keeps the record it began with, or takes the first of the highest generation. -/
theorem winner_run (fs : List FoundBlock) (x : CommitRecord) :
    ∃ c, (fs.filterMap (FoundBlock.commit? gb)).foldl laterRecord (some x) = some c
      ∧ ((c = x ∧ ∀ g ∈ fs, ∀ y, g.Holds gb y → y.generation ≤ x.generation)
        ∨ (x.generation < c.generation ∧ FirstHighest gb fs c)) := by
  induction fs generalizing x with
  | nil => exact ⟨x, rfl, .inl ⟨rfl, nofun⟩⟩
  | cons g rest ih =>
    cases held : g.commit? gb with
    | none =>
      have empty := FoundBlock.commit?_none.mp held
      obtain ⟨c, run, cases_⟩ := ih x
      refine ⟨c, by rw [List.filterMap_cons_none held]; exact run, ?_⟩
      rcases cases_ with ⟨same, low⟩ | ⟨higher, front, f, back, split, holds, before, after⟩
      · refine .inl ⟨same, fun h hh y hy => ?_⟩
        rcases List.mem_cons.mp hh with rfl | hh
        · exact absurd hy (empty y)
        · exact low h hh y hy
      · refine .inr ⟨higher, g :: front, f, back, congrArg (g :: ·) split, holds, fun h hh y hy => ?_, after⟩
        rcases List.mem_cons.mp hh with rfl | hh
        · exact absurd hy (empty y)
        · exact before h hh y hy
    | some y =>
      have holds := FoundBlock.commit?_iff.mp held
      have only (z : CommitRecord) (hz : g.Holds gb z) : z = y :=
        Option.some.inj ((FoundBlock.commit?_iff.mpr hz).symm.trans held)
      by_cases later : x.generation < y.generation
      · obtain ⟨c, run, cases_⟩ := ih y
        have step : laterRecord (some x) y = some y := if_pos later
        refine ⟨c, by rw [List.filterMap_cons_some held, List.foldl_cons, step]; exact run, .inr ?_⟩
        rcases cases_ with ⟨rfl, low⟩ | ⟨higher, front, f, back, split, holds', before, after⟩
        · exact ⟨later, [], g, rest, rfl, holds, nofun, low⟩
        · refine ⟨Nat.lt_trans later higher, g :: front, f, back, congrArg (g :: ·) split, holds', fun h hh z hz => ?_,
            after⟩
          rcases List.mem_cons.mp hh with rfl | hh
          · exact (only z hz) ▸ higher
          · exact before h hh z hz
      · obtain ⟨c, run, cases_⟩ := ih x
        have step : laterRecord (some x) y = some x := if_neg later
        refine ⟨c, by rw [List.filterMap_cons_some held, List.foldl_cons, step]; exact run, ?_⟩
        rcases cases_ with ⟨same, low⟩ | ⟨higher, front, f, back, split, holds', before, after⟩
        · refine .inl ⟨same, fun h hh z hz => ?_⟩
          rcases List.mem_cons.mp hh with rfl | hh
          · exact (only z hz) ▸ Nat.not_lt.mp later
          · exact low h hh z hz
        · refine .inr ⟨higher, g :: front, f, back, congrArg (g :: ·) split, holds', fun h hh z hz => ?_, after⟩
          rcases List.mem_cons.mp hh with rfl | hh
          · exact (only z hz) ▸ Nat.lt_of_le_of_lt (Nat.not_lt.mp later) higher
          · exact before h hh z hz

/-- A run along found blocks finds none where none holds a record, and else the first of the highest generation. -/
theorem winner_from_none (fs : List FoundBlock) :
    (fs.filterMap (FoundBlock.commit? gb)).foldl laterRecord none = none ∧ (∀ f ∈ fs, ∀ c, ¬f.Holds gb c)
      ∨ ∃ c, (fs.filterMap (FoundBlock.commit? gb)).foldl laterRecord none = some c ∧ FirstHighest gb fs c := by
  induction fs with
  | nil => exact .inl ⟨rfl, nofun⟩
  | cons g rest ih =>
    cases held : g.commit? gb with
    | none =>
      have empty := FoundBlock.commit?_none.mp held
      rw [List.filterMap_cons_none held]
      refine ih.imp (fun ⟨run, none_⟩ => ⟨run, fun f hf => ?_⟩)
        fun ⟨c, run, front, f, back, split, holds, before, after⟩ =>
          ⟨c, run, g :: front, f, back, congrArg (g :: ·) split, holds, fun h hh y hy => ?_, after⟩
      · rcases List.mem_cons.mp hf with rfl | hf
        · exact empty
        · exact none_ f hf
      · rcases List.mem_cons.mp hh with rfl | hh
        · exact absurd hy (empty y)
        · exact before h hh y hy
    | some y =>
      obtain ⟨c, run, cases_⟩ := winner_run (gb := gb) rest y
      refine .inr ⟨c, by rw [List.filterMap_cons_some held, List.foldl_cons]; exact run, ?_⟩
      have holds := FoundBlock.commit?_iff.mp held
      have only (z : CommitRecord) (hz : g.Holds gb z) : z = y :=
        Option.some.inj ((FoundBlock.commit?_iff.mpr hz).symm.trans held)
      rcases cases_ with ⟨rfl, low⟩ | ⟨higher, front, f, back, split, holds', before, after⟩
      · exact ⟨[], g, rest, rfl, holds, nofun, low⟩
      · refine ⟨g :: front, f, back, congrArg (g :: ·) split, holds', fun h hh z hz => ?_, after⟩
        rcases List.mem_cons.mp hh with rfl | hh
        · exact (only z hz) ▸ higher
        · exact before h hh z hz

/-- The found blocks of a key with the PRIMARY ones first (log 37). -/
def primariesFirst (fs : List FoundBlock) : List FoundBlock :=
  fs.filter (fun f => decide (f.header.copy = .primary)) ++ fs.filter (fun f => decide (f.header.copy = .mirror))

/-- They are the same blocks. -/
theorem mem_primariesFirst {fs : List FoundBlock} {f : FoundBlock} : f ∈ primariesFirst fs ↔ f ∈ fs := by
  unfold primariesFirst
  rw [List.mem_append, List.mem_filter, List.mem_filter, decide_eq_true_eq, decide_eq_true_eq, ← and_or_left]
  refine and_iff_left ?_
  cases f.header.copy
  · exact .inl rfl
  · exact .inr rfl

/-- The winner is found along the blocks with the PRIMARY ones first (R156, log 37). -/
theorem winnerOf_eq (gb : List GrownBad) (fs : List FoundBlock) :
    winnerOf gb fs = ((primariesFirst fs).filterMap (FoundBlock.commit? gb)).foldl laterRecord none := rfl

/-- No block of the key holds a record. -/
theorem winnerOf_none {fs : List FoundBlock} : winnerOf gb fs = none ↔ ∀ f ∈ fs, ∀ c, ¬f.Holds gb c := by
  rw [winnerOf_eq]
  rcases winner_from_none (gb := gb) (primariesFirst fs) with ⟨run, none_⟩ | ⟨c, run, front, f, back, split, holds, _⟩
  · exact iff_of_true run fun f hf => none_ f (mem_primariesFirst.mpr hf)
  · refine iff_of_false (by rw [run]; nofun) fun none_ => none_ f (mem_primariesFirst.mp ?_) c holds
    rw [split]
    exact List.mem_append_right front List.mem_cons_self

/-- The winner is the first record of the highest generation (R156, log 37, log 52). -/
theorem winnerOf_some {fs : List FoundBlock} {c : CommitRecord} (h : winnerOf gb fs = some c) :
    FirstHighest gb (primariesFirst fs) c := by
  rw [winnerOf_eq] at h
  rcases winner_from_none (gb := gb) (primariesFirst fs) with ⟨run, _⟩ | ⟨x, run, first⟩
  · cases run.symm.trans h
  · cases run.symm.trans h
    exact first

/-- The block of the winner: none holds a record of a higher generation, and of those of its own generation it is a
PRIMARY where there is one, and of its copy the first (R156, log 37, log 52). -/
theorem winnerOf_block {fs : List FoundBlock} {c : CommitRecord} (h : winnerOf gb fs = some c) :
    ∃ f ∈ fs, f.Holds gb c ∧ ∀ g ∈ fs, ∀ x, g.Holds gb x → x.generation ≤ c.generation
      ∧ (x.generation = c.generation → (g.header.copy = .primary → f.header.copy = .primary)
        ∧ ((fs.map (·.addr.num)).Pairwise (· < ·) → g.header.copy = f.header.copy → f.addr.num ≤ g.addr.num)) := by
  obtain ⟨front, f, back, split, holds, before, after⟩ := winnerOf_some h
  have mem : f ∈ fs := mem_primariesFirst.mp (by rw [split]; exact List.mem_append_right front List.mem_cons_self)
  refine ⟨f, mem, holds, fun g hg x hx => ?_⟩
  have placed : g ∈ front ++ f :: back := by
    rw [← split]
    exact mem_primariesFirst.mpr hg
  have order : (primariesFirst fs).Pairwise fun g g' => g'.header.copy = .primary → g.header.copy = .primary := by
    unfold primariesFirst
    refine List.pairwise_append.mpr ⟨?_, ?_, fun g hg g' _ _ => of_decide_eq_true (List.mem_filter.mp hg).2⟩
    · exact List.pairwise_of_forall_mem_list fun g hg _ _ _ => of_decide_eq_true (List.mem_filter.mp hg).2
    · refine List.pairwise_of_forall_mem_list fun _ _ g' hg' primary => ?_
      cases primary.symm.trans (of_decide_eq_true (List.mem_filter.mp hg').2)
  rcases List.mem_append.mp placed with first | later
  · have low := before g first x hx
    exact ⟨Nat.le_of_lt low, fun same => absurd same (Nat.ne_of_lt low)⟩
  · rcases List.mem_cons.mp later with rfl | later
    · obtain rfl : x = c := Option.some.inj
        ((FoundBlock.commit?_iff.mpr hx).symm.trans (FoundBlock.commit?_iff.mpr holds))
      exact ⟨Nat.le_refl _, fun _ => ⟨id, fun _ _ => Nat.le_refl _⟩⟩
    · refine ⟨after g later x hx, fun _ => ⟨?_, fun sorted same => ?_⟩⟩
      · rw [split] at order
        exact (List.pairwise_cons.mp (List.pairwise_append.mp order).2.1).1 g later
      · have ascending : (primariesFirst fs).Pairwise fun g g' =>
            g'.header.copy = g.header.copy → g.addr.num < g'.addr.num := by
          have own : fs.Pairwise fun g g' => g'.header.copy = g.header.copy → g.addr.num < g'.addr.num := by
            rw [List.pairwise_map] at sorted
            refine sorted.imp ?_
            exact fun less _ => less
          unfold primariesFirst
          refine List.pairwise_append.mpr ⟨own.filter _, own.filter _, fun g hg g' hg' equal => ?_⟩
          rw [of_decide_eq_true (List.mem_filter.mp hg).2, of_decide_eq_true (List.mem_filter.mp hg').2] at equal
          cases equal
        rw [split] at ascending
        exact Nat.le_of_lt ((List.pairwise_cons.mp (List.pairwise_append.mp ascending).2.1).1 g later same)

end

/-! ### The candidates -/

section
variable {gb : List GrownBad} {fs : List FoundBlock} {c : CommitRecord} {copy : Copy} {i : Nat} {f : FoundBlock}

/-- A found block fits a copy of a chunk of a committed version (R156). -/
def Fits (gb : List GrownBad) (fs : List FoundBlock) (c : CommitRecord) (copy : Copy) (i : Nat) (f : FoundBlock) :
    Prop :=
  f ∈ fs ∧ f.header.generation = c.generation ∧ f.header.chunk = i ∧ f.header.copy = copy ∧ f.header.count = c.count
    ∧ f.header.bodyLength = c.bodyLength ∧ (i = 0 → ∃ x, f.Holds gb x)

/-- The blocks that fit, in their order. -/
def fitting (gb : List GrownBad) (fs : List FoundBlock) (c : CommitRecord) (copy : Copy) (i : Nat) : List FoundBlock :=
  fs.filter fun f =>
    decide (f.header.generation = c.generation) && decide (f.header.chunk = i) && decide (f.header.copy = copy)
      && decide (f.header.count = c.count) && decide (f.header.bodyLength = c.bodyLength)
      && (decide (i ≠ 0) || (f.commit? gb).isSome)

/-- They are those that fit. -/
theorem mem_fitting : f ∈ fitting gb fs c copy i ↔ Fits gb fs c copy i f := by
  unfold fitting Fits
  rw [List.mem_filter, Bool.and_eq_true, Bool.and_eq_true, Bool.and_eq_true, Bool.and_eq_true, Bool.and_eq_true,
    Bool.or_eq_true, FoundBlock.commit?_isSome, decide_eq_true_eq, decide_eq_true_eq, decide_eq_true_eq,
    decide_eq_true_eq, decide_eq_true_eq, decide_eq_true_eq, and_assoc, and_assoc, and_assoc, and_assoc,
    ← imp_iff_not_or]

/-- The candidates are those that fit, and a BAD one only where no other does (R156). -/
theorem candidatesOf_eq (gb : List GrownBad) (fs : List FoundBlock) (c : CommitRecord) (copy : Copy) (i : Nat) :
    candidatesOf gb fs c copy i = if ((fitting gb fs c copy i).filter fun f => !f.bad).isEmpty
      then fitting gb fs c copy i else (fitting gb fs c copy i).filter fun f => !f.bad := rfl

/-- They stand in the order of the found blocks. -/
theorem candidatesOf_sublist : (candidatesOf gb fs c copy i).Sublist fs := by
  have fits : (fitting gb fs c copy i).Sublist fs := List.filter_sublist
  rw [candidatesOf_eq]
  split
  · exact fits
  · exact List.filter_sublist.trans fits

/-- The candidates, one by one (R156). -/
theorem mem_candidatesOf : f ∈ candidatesOf gb fs c copy i
    ↔ Fits gb fs c copy i f ∧ (f.bad = true → ∀ g, Fits gb fs c copy i g → g.bad = true) := by
  rw [candidatesOf_eq]
  split
  next allBad =>
    rw [mem_fitting]
    refine (and_iff_left fun _ g hg => ?_).symm
    have bad := List.filter_eq_nil_iff.mp (List.isEmpty_iff.mp allBad) g (mem_fitting.mpr hg)
    simpa using bad
  next some_ =>
    obtain ⟨g, hg⟩ := List.exists_mem_of_ne_nil _ fun none_ => some_ (List.isEmpty_iff.mpr none_)
    obtain ⟨gfits, good⟩ := List.mem_filter.mp hg
    rw [List.mem_filter, mem_fitting]
    refine and_congr_right fun _ => ⟨fun fine bad => ?_, fun h => ?_⟩
    · rw [bad] at fine
      cases fine
    · by_contra bad
      have gbad := h (by simpa using bad) g (mem_fitting.mp gfits)
      rw [gbad] at good
      cases good

/-- Where a block fits there is a candidate. -/
theorem candidatesOf_ne_nil (fits : Fits gb fs c copy i f) : candidatesOf gb fs c copy i ≠ [] := by
  rw [candidatesOf_eq]
  split
  · exact List.ne_nil_of_mem (mem_fitting.mpr fits)
  next some_ => exact fun none_ => some_ (List.isEmpty_iff.mpr none_)

end

end Sys2Proof.Machine

/-!
The choice among duplicates (R157): the first combination of candidates whose body has the commit record's CRC-32.
Lemmas for O55.
-/

namespace Sys2Proof.Machine

section
variable {bodies : List BodyPage} {c : CommitRecord}

/-- The combinations of candidates, one of each chunk, the last chunk varying fastest (R157). -/
def combinations (cs : List (List FoundBlock)) : List (List FoundBlock) :=
  cs.foldr (fun l rest => l.flatMap fun f => rest.map fun fs => f :: fs) [[]]

/-- The body pages that were read of a block (R157). -/
def pagesOf (bodies : List BodyPage) (f : FoundBlock) : List (Option (List Byte)) := (List.range 13).map fun p =>
  (bodies.find? fun x => decide (x.addr = f.addr) && decide (x.page = p + 1)).bind (·.data)

/-- Every body page of a block could be read (R157). -/
def readable (bodies : List BodyPage) (f : FoundBlock) : Bool := (pagesOf bodies f).all Option.isSome

/-- The share of the body that a block gives as chunk `k` (R157). -/
def shareOf (bodies : List BodyPage) (c : CommitRecord) (f : FoundBlock) (k : Nat) : List Byte :=
  ((pagesOf bodies f).flatMap fun y => y.getD []).take (chunkLengthOf c.bodyLength k)

/-- The CRC-32 of a chunk's share, when its pages could be read (R157). -/
theorem chunkCrc_eq (f : FoundBlock) (k : Nat) :
    chunkCrc bodies f.addr c.bodyLength k
      = if readable bodies f = true then some (crc32 (shareOf bodies c f k)) else none := rfl

/-- The share of a block whose pages are whole has the length of its chunk (R157). -/
theorem shareOf_length (whole : ∀ x ∈ bodies, ∀ bytes, x.data = some bytes → bytes.length = 256) {f : FoundBlock}
    (read : readable bodies f = true) (k : Nat) :
    (shareOf bodies c f k).length = chunkLengthOf c.bodyLength k := by
  have each : ∀ y ∈ pagesOf bodies f, (y.getD []).length = 256 := by
    intro y hy
    obtain ⟨p, _, rfl⟩ := List.mem_map.mp hy
    obtain ⟨bytes, found⟩ := Option.isSome_iff_exists.mp (List.all_eq_true.mp read _ hy)
    obtain ⟨x, hx, data⟩ := Option.bind_eq_some_iff.mp found
    rw [found]
    exact whole x (List.mem_of_find?_eq_some hx) bytes data
  have total : ((pagesOf bodies f).flatMap fun y => y.getD []).length = 13 * 256 := by
    rw [List.length_flatMap, List.map_congr_left each, List.map_const', List.sum_replicate]
    rfl
  unfold shareOf
  rw [List.length_take, total]
  exact Nat.min_eq_left (Nat.min_le_right _ _)

/-- The bytes of a combination whose first block is chunk `k` (R157). -/
def bodyFrom (bodies : List BodyPage) (c : CommitRecord) (fs : List FoundBlock) (k : Nat) : List Byte :=
  (fs.zipIdx k).flatMap fun x => shareOf bodies c x.1 x.2

/-- A combination matches, behind the bytes of the chunks before it (R157). -/
def matchesFrom (bodies : List BodyPage) (c : CommitRecord) (before : List Byte) (k : Nat) (fs : List FoundBlock) :
    Bool :=
  fs.all (readable bodies) && decide (crc32 (before ++ bodyFrom bodies c fs k) = c.crc)

/-- One more chunk in front. -/
theorem matchesFrom_cons (before : List Byte) (k : Nat) (f : FoundBlock) (fs : List FoundBlock) :
    matchesFrom bodies c before k (f :: fs)
      = (readable bodies f && matchesFrom bodies c (before ++ shareOf bodies c f k) (k + 1) fs) := by
  unfold matchesFrom bodyFrom
  rw [List.all_cons, List.zipIdx_cons, List.flatMap_cons, List.append_assoc, Bool.and_assoc]

/-- The search goes through the combinations in their order (R157). -/
theorem matchingCombination_eq (whole : ∀ x ∈ bodies, ∀ bytes, x.data = some bytes → bytes.length = 256)
    (cs : List (List FoundBlock)) (before : List Byte) (k : Nat) :
    matchingCombination (fun a k => chunkCrc bodies a c.bodyLength k) c cs k (crc32 before)
      = (combinations cs).find? (matchesFrom bodies c before k) := by
  induction cs generalizing before k with
  | nil =>
    have none_ : matchesFrom bodies c before k [] = decide (crc32 before = c.crc) := by
      unfold matchesFrom bodyFrom
      simp
    unfold matchingCombination combinations
    rw [List.foldr_nil, List.find?_cons, none_]
    by_cases same : crc32 before = c.crc <;> simp [same]
  | cons l rest ih =>
    have split : combinations (l :: rest) = l.flatMap fun f => (combinations rest).map (f :: ·) := rfl
    rw [split, List.find?_flatMap]
    unfold matchingCombination
    refine congrArg (List.findSome? · l) (funext fun f => ?_)
    rw [List.find?_map, chunkCrc_eq]
    by_cases read : readable bodies f = true
    · rw [if_pos read]
      dsimp only
      rw [← shareOf_length whole read k, crc32Join_eq, ih]
      refine congrArg (Option.map (f :: ·)) (congrArg (List.find? · (combinations rest)) (funext fun fs => ?_))
      rw [Function.comp_apply, matchesFrom_cons, read, Bool.true_and]
    · rw [if_neg read]
      dsimp only
      rw [List.find?_eq_none.mpr]
      · rfl
      · intro fs _
        rw [Function.comp_apply, matchesFrom_cons, Bool.eq_false_iff.mpr read, Bool.false_and]
        exact Bool.false_ne_true

/-- A chunk without a candidate leaves no combination. -/
theorem combinations_empty {cs : List (List FoundBlock)} (h : [] ∈ cs) : combinations cs = [] := by
  induction cs with
  | nil => cases h
  | cons l rest ih =>
    have split : combinations (l :: rest) = l.flatMap fun f => (combinations rest).map (f :: ·) := rfl
    rcases List.mem_cons.mp h with rfl | h
    · rfl
    · rw [split, ih h]
      exact List.flatMap_eq_nil_iff.mpr fun _ _ => rfl

/-- A combination found has a block for every chunk. -/
theorem matchingCombination_length {crcOf : BlockAddr → Nat → Option (BitVec 32)} {cs : List (List FoundBlock)}
    {k : Nat} {crc : BitVec 32} {fs : List FoundBlock} (h : matchingCombination crcOf c cs k crc = some fs) :
    fs.length = cs.length := by
  induction cs generalizing k crc fs with
  | nil =>
    unfold matchingCombination at h
    split at h
    · cases h
      rfl
    · cases h
  | cons l rest ih =>
    unfold matchingCombination at h
    obtain ⟨f, _, found⟩ := List.exists_of_findSome?_eq_some h
    split at found
    · cases found
    · obtain ⟨gs, hgs, rfl⟩ := Option.map_eq_some_iff.mp found
      rw [List.length_cons, List.length_cons, ih hgs]

/-- Whether a combination matches the commit record (R157). -/
def matchesRecord (bodies : List BodyPage) (c : CommitRecord) (fs : List FoundBlock) : Bool :=
  matchesFrom bodies c [] 0 fs

/-- The search among duplicates, with every chunk present or not (R157, log 34). -/
theorem duplicates_search (whole : ∀ x ∈ bodies, ∀ bytes, x.data = some bytes → bytes.length = 256)
    (cs : List (List FoundBlock)) :
    (if cs.all (fun l => !l.isEmpty) then
        matchingCombination (fun a k => chunkCrc bodies a c.bodyLength k) c cs 0 0 else none)
      = (combinations cs).find? (matchesRecord bodies c) := by
  by_cases present : cs.all (fun l => !l.isEmpty) = true
  · rw [if_pos present]
    exact matchingCombination_eq whole cs [] 0
  · rw [if_neg present, combinations_empty]
    · rfl
    · obtain ⟨l, hl, empty⟩ := List.all_eq_false.mp (Bool.eq_false_iff.mpr present)
      have nil : l = [] := by simpa using empty
      exact nil ▸ hl

/-- A copy without duplicates takes the one candidate of each chunk (R157). -/
theorem chooseCopy_single {cs : List (List FoundBlock)} (single : ∀ l ∈ cs, l.length ≤ 1) :
    chooseCopy bodies c cs = (cs.map List.head?, false) := by
  unfold chooseCopy hasDuplicate
  refine if_neg fun some_ => ?_
  obtain ⟨l, hl, two⟩ := List.any_eq_true.mp some_
  exact absurd (of_decide_eq_true two) (Nat.not_le.mpr (Nat.lt_succ_of_le (single l hl)))

/-- A copy with duplicates takes the first combination that matches, or else the first (R157, log 34). -/
theorem chooseCopy_duplicates (whole : ∀ x ∈ bodies, ∀ bytes, x.data = some bytes → bytes.length = 256)
    {cs : List (List FoundBlock)} {l : List FoundBlock} (hl : l ∈ cs) (two : 2 ≤ l.length) :
    (∀ fs, (combinations cs).find? (matchesRecord bodies c) = some fs → chooseCopy bodies c cs = (fs.map some, false))
      ∧ ((combinations cs).find? (matchesRecord bodies c) = none →
        chooseCopy bodies c cs = (cs.map List.head?, true)) := by
  have duplicate : hasDuplicate cs = true := List.any_eq_true.mpr ⟨l, hl, decide_eq_true two⟩
  unfold chooseCopy
  rw [if_pos duplicate, duplicates_search whole]
  refine ⟨fun fs found => ?_, fun none_ => ?_⟩
  · rw [found]
  · rw [none_]

/-- A copy's choice is either a combination with a block for every chunk, or the first candidate of each. -/
theorem chooseCopy_cases (bodies : List BodyPage) (c : CommitRecord) (cs : List (List FoundBlock)) :
    (∃ fs : List FoundBlock, fs.length = cs.length ∧ (chooseCopy bodies c cs).1 = fs.map some)
      ∨ (chooseCopy bodies c cs).1 = cs.map List.head? := by
  unfold chooseCopy
  split
  · split
    next fs found =>
      refine .inl ⟨fs, ?_, rfl⟩
      split at found
      · exact matchingCombination_length found
      · cases found
    next => exact .inr rfl
  · exact .inr rfl

/-- It says of every chunk which block it takes, if any. -/
theorem chooseCopy_length (bodies : List BodyPage) (c : CommitRecord) (cs : List (List FoundBlock)) :
    (chooseCopy bodies c cs).1.length = cs.length := by
  rcases chooseCopy_cases bodies c cs with ⟨fs, length, made⟩ | made
  · rw [made, List.length_map, length]
  · rw [made, List.length_map]

/-- A first chunk with a candidate takes one. -/
theorem chooseCopy_first {l : List FoundBlock} (some_ : l ≠ []) (rest : List (List FoundBlock)) :
    ∃ f, (chooseCopy bodies c (l :: rest)).1[0]? = some (some f) := by
  rcases chooseCopy_cases bodies c (l :: rest) with ⟨fs, length, made⟩ | made
  · cases fs with
    | nil => cases length
    | cons f fs => exact ⟨f, by rw [made]; rfl⟩
  · cases l with
    | nil => exact absurd rfl some_
    | cons f l => exact ⟨f, by rw [made]; rfl⟩

end

end Sys2Proof.Machine

/-!
Rebuilt entries (R158, R159): the blocks an entry names, its mark page, its state, hold and marks used, and whether it
joins the refresh set. Lemmas for O55.
-/

namespace Sys2Proof.Machine

/-! ### The blocks of the version -/

/-- The block chosen for a chunk, if any (R157, R158). -/
def chosenAt (p : List (Option FoundBlock)) (i : Nat) : Option FoundBlock := (p[i]?).join

/-- What two choices of equal length say together, chunk by chunk. -/
theorem map_zip_chosen {α : Type} (g : Option FoundBlock × Option FoundBlock → α) {p m : List (Option FoundBlock)}
    {n : Nat} (hp : p.length = n) (hm : m.length = n) :
    (p.zip m).map g = (List.range n).map fun i => g (chosenAt p i, chosenAt m i) := by
  refine List.ext_getElem (by simp [hp, hm]) fun i hi _ => ?_
  have inside : i < p.length ∧ i < m.length := by simpa using hi
  rw [List.getElem_map, List.getElem_map, List.getElem_zip, List.getElem_range]
  unfold chosenAt
  rw [List.getElem?_eq_getElem inside.1, List.getElem?_eq_getElem inside.2]
  rfl

/-- The version rebuilt from the blocks chosen (R158). -/
def rebuiltVersion (c : CommitRecord) (mirrored : Bool) (p m : List (Option FoundBlock)) (zero : FoundBlock) :
    Version :=
  { generation := c.generation, bodyLength := c.bodyLength, frozen := zero.header.frozen, retired := zero.header.retired
    chunks := (p.zip m).map fun x => chunkElement x.1 x.2
    mirrors := if mirrored then (p.zip m).map fun x => mirrorElement x.1 x.2 else [] }

section
variable {gb : List GrownBad} {bodies : List BodyPage} {fs : List FoundBlock} {c : CommitRecord}

/-- The choice of one copy of a key (R156, R157). -/
def chosen (gb : List GrownBad) (bodies : List BodyPage) (fs : List FoundBlock) (c : CommitRecord) (copy : Copy) :
    List (Option FoundBlock) × Bool := chooseCopy bodies c ((List.range c.count).map (candidatesOf gb fs c copy))

/-- It speaks of every chunk. -/
theorem chosen_length (gb : List GrownBad) (bodies : List BodyPage) (fs : List FoundBlock) (c : CommitRecord)
    (copy : Copy) : (chosen gb bodies fs c copy).1.length = c.count := by
  unfold chosen
  rw [chooseCopy_length, List.length_map, List.length_range]

/-- A key with a winner has a chunk 0 block of one copy or the other (R156). -/
theorem chosen_zero (won : winnerOf gb fs = some c) :
    ∃ copy f, chosenAt (chosen gb bodies fs c copy).1 0 = some f := by
  obtain ⟨f, mem, holds, _⟩ := winnerOf_block won
  have held := holds
  obtain ⟨zero, _, _, generation, count, length⟩ := holds
  have fits : Fits gb fs c f.header.copy 0 f :=
    ⟨mem, generation.symm, zero, rfl, count.symm, length.symm, fun _ => ⟨c, held⟩⟩
  obtain ⟨n, counted⟩ : ∃ n, c.count = n + 1 := ⟨c.count - 1, (Nat.sub_add_cancel held.count).symm⟩
  obtain ⟨g, first⟩ := chooseCopy_first (bodies := bodies) (c := c) (candidatesOf_ne_nil fits)
    ((List.range n).map fun i => candidatesOf gb fs c f.header.copy (i + 1))
  refine ⟨f.header.copy, g, ?_⟩
  unfold chosenAt chosen
  rw [counted, List.range_succ_eq_map, List.map_cons, List.map_map]
  exact congrArg Option.join first

/-- The first block of a rebuilt version: the PRIMARY's, or else the MIRROR's (R158). -/
def IsZero (p m : List (Option FoundBlock)) (zero : FoundBlock) : Prop :=
  chosenAt p 0 = some zero ∨ (chosenAt p 0 = none ∧ chosenAt m 0 = some zero)

/-- A rebuilt entry, from the blocks chosen (R158, R159). -/
def rebuiltFrom (gb : List GrownBad) (r : RecordName) (c : CommitRecord) (mirrored : Bool)
    (p m : List (Option FoundBlock)) (zero : FoundBlock) : Entry :=
  let v := rebuiltVersion c mirrored p m zero
  let s := rebuiltState gb zero (markPage zero (chosenAt m 0)) c.generation
  { name := r, state := s.1, version := v, hold := s.2.1, marks := s.2.2
    busy := if s.1 = .purging then .purge else .none
    damaged := (List.range c.count).filter fun i => (v.chunkAt i).isNone, retireOrder := none }

/-- A key with no winner gets no entry (R158). -/
theorem rebuiltEntry_none (none_ : winnerOf gb fs = none) (mirrored : Bool) (r : RecordName) :
    rebuiltEntry gb bodies mirrored r fs = none := by
  unfold rebuiltEntry
  rw [none_]

/-- A key with a winner gets one (R158, R159). -/
theorem rebuiltEntry_some (won : winnerOf gb fs = some c) (mirrored : Bool) (r : RecordName) :
    ∃ zero, IsZero (chosen gb bodies fs c .primary).1 (chosen gb bodies fs c .mirror).1 zero
      ∧ rebuiltEntry gb bodies mirrored r fs = some
        (rebuiltFrom gb r c mirrored (chosen gb bodies fs c .primary).1 (chosen gb bodies fs c .mirror).1 zero,
         rebuiltRefresh gb fs c
          (rebuiltVersion c mirrored (chosen gb bodies fs c .primary).1 (chosen gb bodies fs c .mirror).1 zero)
          ((chosen gb bodies fs c .primary).2 || (chosen gb bodies fs c .mirror).2)
          (markPage zero (chosenAt (chosen gb bodies fs c .mirror).1 0)).isNone) := by
  have head (p : List (Option FoundBlock)) : p.head?.join = chosenAt p 0 := by
    unfold chosenAt
    rw [List.head?_eq_getElem?]
  have made : ∃ zero, IsZero (chosen gb bodies fs c .primary).1 (chosen gb bodies fs c .mirror).1 zero
      ∧ ((chosen gb bodies fs c .primary).1.head?.join).orElse
          (fun _ => (chosen gb bodies fs c .mirror).1.head?.join) = some zero := by
    rw [head, head]
    cases first : chosenAt (chosen gb bodies fs c .primary).1 0 with
    | some zero => exact ⟨zero, .inl first, rfl⟩
    | none =>
      obtain ⟨copy, f, found⟩ := chosen_zero (bodies := bodies) won
      cases copy with
      | primary => cases first.symm.trans found
      | mirror => exact ⟨f, .inr ⟨first, found⟩, found⟩
  obtain ⟨zero, isZero, found⟩ := made
  refine ⟨zero, isZero, ?_⟩
  unfold rebuiltFrom
  rw [← head (chosen gb bodies fs c .mirror).1]
  unfold rebuiltEntry
  rw [won]
  unfold chosen at found
  unfold copyCandidates
  dsimp only
  rw [found]
  rfl

end

/-! ### Marks -/

section
variable {gb : List GrownBad} {page : Option (BlockAddr × List Byte)} {generation : Nat} {k : Nat} {x : Mark}

/-- The valid mark of a slot of the mark page (R159). -/
def markAt (gb : List GrownBad) (page : Option (BlockAddr × List Byte)) (generation k : Nat) : Option Mark :=
  page.bind fun y => validMark gb y.1 y.2 generation k

/-- A mark is valid in a slot of the mark page (R156, R159). -/
def ValidMark (gb : List GrownBad) (page : Option (BlockAddr × List Byte)) (generation k : Nat) (x : Mark) : Prop :=
  ∃ a bytes, page = some (a, bytes) ∧ readMark bytes k = some x ∧ x.generation = generation
    ∧ ¬setAside gb a 14 (4 * (k - 1)) = true

/-- It is the one of the slot. -/
theorem markAt_iff : markAt gb page generation k = some x ↔ ValidMark gb page generation k x := by
  unfold markAt ValidMark validMark
  rw [Option.bind_eq_some_iff]
  constructor
  · rintro ⟨⟨a, bytes⟩, named, valid⟩
    obtain ⟨read, kept⟩ := Option.filter_eq_some_iff.mp valid
    rw [Bool.and_eq_true, decide_eq_true_eq, Bool.not_eq_true'] at kept
    exact ⟨a, bytes, named, read, kept.1, fun aside => Bool.false_ne_true (kept.2.symm.trans aside)⟩
  · rintro ⟨a, bytes, named, read, same, kept⟩
    refine ⟨(a, bytes), named, Option.filter_eq_some_iff.mpr ⟨read, ?_⟩⟩
    rw [Bool.and_eq_true, decide_eq_true_eq, Bool.not_eq_true']
    exact ⟨same, Bool.eq_false_iff.mpr kept⟩

/-- The state marks are those of slots 1 to 3 (R159). -/
theorem stateMarks_eq : stateMarks gb page generation = [1, 2, 3].filterMap (markAt gb page generation) := by
  cases page <;> rfl

/-- A mark is the last of the state marks (R159). -/
def LastMark (gb : List GrownBad) (page : Option (BlockAddr × List Byte)) (generation : Nat) (x : Mark) : Prop :=
  ∃ k, 1 ≤ k ∧ k ≤ 3 ∧ ValidMark gb page generation k x
    ∧ ∀ n, k < n → n ≤ 3 → ∀ y, ¬ValidMark gb page generation n y

/-- The last of three slots that gives a mark. -/
theorem getLast?_slots {f : Nat → Option Mark} : ([1, 2, 3].filterMap f).getLast? = some x
    ↔ ∃ k, 1 ≤ k ∧ k ≤ 3 ∧ f k = some x ∧ ∀ n, k < n → n ≤ 3 → ∀ y, ¬f n = some y := by
  have slots : ([1, 2, 3].filterMap f).getLast? = (f 3).or ((f 2).or (f 1)) := by
    rw [List.filterMap_cons, List.filterMap_cons, List.filterMap_cons, List.filterMap_nil]
    cases f 1 <;> cases f 2 <;> cases f 3 <;> rfl
  rw [slots, Option.or_eq_some_iff, Option.or_eq_some_iff]
  constructor
  · rintro (third | ⟨no3, second | ⟨no2, first⟩⟩)
    · exact ⟨3, by omega, by omega, third, fun n low high => by omega⟩
    · refine ⟨2, by omega, by omega, second, fun n low high y h => ?_⟩
      obtain rfl : n = 3 := by omega
      cases no3.symm.trans h
    · refine ⟨1, by omega, by omega, first, fun n low high y h => ?_⟩
      obtain rfl | rfl : n = 2 ∨ n = 3 := by omega
      · cases no2.symm.trans h
      · cases no3.symm.trans h
  · rintro ⟨k, low, high, found, later⟩
    have none_ (n : Nat) (above : k < n) (top : n ≤ 3) : f n = none :=
      Option.eq_none_iff_forall_ne_some.mpr (later n above top)
    obtain rfl | rfl | rfl : k = 1 ∨ k = 2 ∨ k = 3 := by omega
    · exact .inr ⟨none_ 3 (by omega) (by omega), .inr ⟨none_ 2 (by omega) (by omega), found⟩⟩
    · exact .inr ⟨none_ 3 (by omega) (by omega), .inl found⟩
    · exact .inl found

/-- The last state mark (R159). -/
theorem lastMark_iff : (stateMarks gb page generation).getLast? = some x ↔ LastMark gb page generation x := by
  unfold LastMark
  rw [stateMarks_eq, getLast?_slots]
  simp only [markAt_iff]

/-- A rebuilt entry is RETIRED by its last mark, or without one by its header (R159). -/
def IsRetired (gb : List GrownBad) (zero : FoundBlock) (page : Option (BlockAddr × List Byte)) (generation : Nat) :
    Prop :=
  (∃ x, LastMark gb page generation x ∧ x.kind = .retire)
    ∨ ((∀ x, ¬LastMark gb page generation x) ∧ zero.header.retired = true)

/-- The scanner asks so. -/
theorem isRetired_iff {zero : FoundBlock} :
    (match (stateMarks gb page generation).getLast? with
      | some m => decide (m.kind = MarkKind.retire)
      | none => zero.header.retired) = true ↔ IsRetired gb zero page generation := by
  unfold IsRetired
  simp only [← lastMark_iff]
  cases (stateMarks gb page generation).getLast? with
  | none => simp
  | some m => simp

/-- A rebuilt entry is FROZEN by a mark or by its header (R159). -/
def IsFrozen (gb : List GrownBad) (zero : FoundBlock) (page : Option (BlockAddr × List Byte)) (generation : Nat) :
    Prop :=
  (∃ k x, 1 ≤ k ∧ k ≤ 3 ∧ ValidMark gb page generation k x ∧ x.kind = .freeze) ∨ zero.header.frozen = true

/-- The scanner asks so. -/
theorem isFrozen_iff {zero : FoundBlock} :
    ((stateMarks gb page generation).any (fun m => decide (m.kind = MarkKind.freeze)) || zero.header.frozen) = true
      ↔ IsFrozen gb zero page generation := by
  unfold IsFrozen
  rw [Bool.or_eq_true, List.any_eq_true, stateMarks_eq]
  refine or_congr_left ⟨?_, ?_⟩
  · rintro ⟨x, mem, kind⟩
    obtain ⟨k, hk, found⟩ := List.mem_filterMap.mp mem
    have slot : k = 1 ∨ k = 2 ∨ k = 3 := by simpa using hk
    exact ⟨k, x, by omega, by omega, markAt_iff.mp found, of_decide_eq_true kind⟩
  · rintro ⟨k, x, low, high, valid, kind⟩
    have slot : k = 1 ∨ k = 2 ∨ k = 3 := by omega
    exact ⟨x, List.mem_filterMap.mpr ⟨k, by simpa using slot, markAt_iff.mpr valid⟩, decide_eq_true kind⟩

/-- A mark slot of the mark page counts as used (R156, R159). -/
def SlotUsed (gb : List GrownBad) (page : Option (BlockAddr × List Byte)) (k : Nat) : Prop :=
  ∃ a bytes, page = some (a, bytes) ∧ (allOnes (markSlot bytes k) = false ∨ setAside gb a 14 (4 * (k - 1)) = true)

/-- The marks used of a readable mark page are the highest slot that counts as used (R159). -/
theorem slotsProgrammed_spec (some_ : page ≠ none) :
    slotsProgrammed gb page ≤ 3 ∧ (slotsProgrammed gb page ≠ 0 → SlotUsed gb page (slotsProgrammed gb page))
      ∧ ∀ k, 1 ≤ k → k ≤ 3 → SlotUsed gb page k → k ≤ slotsProgrammed gb page := by
  obtain ⟨⟨a, bytes⟩, rfl⟩ := Option.ne_none_iff_exists'.mp some_
  have used (k : Nat) : SlotUsed gb (some (a, bytes)) k ↔ slotUsed gb a bytes k = true := by
    unfold SlotUsed slotUsed
    rw [Bool.or_eq_true, Bool.not_eq_true']
    constructor
    · rintro ⟨_, _, same, h⟩
      cases same
      exact h
    · exact fun h => ⟨a, bytes, rfl, h⟩
  simp only [used]
  unfold slotsProgrammed
  dsimp only
  split
  next third => exact ⟨Nat.le_refl 3, fun _ => third, fun k _ high _ => high⟩
  next no3 =>
    split
    next second =>
      refine ⟨by omega, fun _ => second, fun k _ high h => ?_⟩
      rcases Nat.lt_or_eq_of_le high with less | rfl
      · omega
      · exact absurd h no3
    next no2 =>
      split
      next first =>
        refine ⟨by omega, fun _ => first, fun k _ high h => ?_⟩
        obtain rfl | rfl | rfl : k = 1 ∨ k = 2 ∨ k = 3 := by omega
        · exact Nat.le_refl 1
        · exact absurd h no2
        · exact absurd h no3
      next no1 =>
        refine ⟨by omega, fun h => absurd rfl h, fun k low high h => ?_⟩
        obtain rfl | rfl | rfl : k = 1 ∨ k = 2 ∨ k = 3 := by omega
        · exact absurd h no1
        · exact absurd h no2
        · exact absurd h no3

/-- An unreadable mark page counts as full (R159). -/
theorem slotsProgrammed_unreadable : slotsProgrammed gb none = 3 := rfl

/-- The marks used of a rebuilt entry that is not PURGING (R159, log 51). -/
def marksUsed (gb : List GrownBad) (zero : FoundBlock) (page : Option (BlockAddr × List Byte)) : Nat :=
  if zero.bad then 3 else slotsProgrammed gb page

/-- The state, hold and marks used of a rebuilt entry with a PURGE mark (R159). -/
theorem rebuiltState_purging (zero : FoundBlock) (purge : ∃ x, ValidMark gb page generation 4 x) :
    rebuiltState gb zero page generation = (.purging, .none, 4) := by
  obtain ⟨x, valid⟩ := purge
  have found := markAt_iff.mpr valid
  unfold rebuiltState
  refine if_pos ?_
  cases page with
  | none => cases found
  | some y => exact Option.isSome_iff_exists.mpr ⟨x, found⟩

/-- Those of one without (R159). -/
theorem rebuiltState_kept (zero : FoundBlock) (none_ : ∀ x, ¬ValidMark gb page generation 4 x) :
    (IsRetired gb zero page generation →
        rebuiltState gb zero page generation = (.retired, .none, marksUsed gb zero page))
      ∧ (¬IsRetired gb zero page generation → IsFrozen gb zero page generation →
        rebuiltState gb zero page generation = (.live, .frozen, marksUsed gb zero page))
      ∧ (¬IsRetired gb zero page generation → ¬IsFrozen gb zero page generation →
        rebuiltState gb zero page generation = (.live, .none, marksUsed gb zero page)) := by
  have unpurged : ¬(page.any fun x => (validMark gb x.1 x.2 generation 4).isSome) = true := by
    cases page with
    | none => exact Bool.false_ne_true
    | some y =>
      intro found
      obtain ⟨x, hx⟩ := Option.isSome_iff_exists.mp found
      exact none_ x (markAt_iff.mp hx)
  unfold rebuiltState
  dsimp only
  rw [if_neg unpurged]
  refine ⟨fun retired => ?_, fun live frozen => ?_, fun live thawed => ?_⟩
  · exact if_pos (isRetired_iff.mpr retired)
  · refine (if_neg fun h => live (isRetired_iff.mp h)).trans ?_
    rw [if_pos (isFrozen_iff.mpr frozen)]
    rfl
  · refine (if_neg fun h => live (isRetired_iff.mp h)).trans ?_
    rw [if_neg fun h => thawed (isFrozen_iff.mp h)]
    rfl

end

end Sys2Proof.Machine

/-!
How keys are resolved (R14, R156 to R161): the refresh set, the lines of the found blocks, the list of names, and the
settling of O55.
-/

namespace Sys2Proof.Machine

/-! ### The mark page and the refresh set -/

/-- The mark page is that of the first block, or of the MIRROR chunk 0 where that cannot be read (R159, log 51). -/
theorem markPage_spec (zero : FoundBlock) (mirror : Option FoundBlock) :
    (∀ bytes, zero.page14 = .data bytes → markPage zero mirror = some (zero.addr, bytes))
      ∧ ((∀ bytes, zero.page14 ≠ .data bytes) →
        (∀ m bytes, mirror = some m → m.page14 = .data bytes → markPage zero mirror = some (m.addr, bytes))
        ∧ ((∀ m bytes, mirror = some m → m.page14 ≠ .data bytes) → markPage zero mirror = none)) := by
  have fallback (lost : ∀ bytes, zero.page14 ≠ .data bytes) : markPage zero mirror
      = mirror.bind fun m => match m.page14 with | .data bytes => some (m.addr, bytes) | _ => none := by
    unfold markPage
    cases page : zero.page14 with
    | data bytes => exact absurd page (lost bytes)
    | unread => cases mirror <;> rfl
    | unreadable => cases mirror <;> rfl
  refine ⟨fun bytes page => ?_, fun lost => ⟨fun m bytes own page => ?_, fun none_ => ?_⟩⟩
  · unfold markPage
    rw [page]
  · rw [fallback lost, own, Option.bind_some, page]
  · rw [fallback lost]
    cases mirror with
    | none => rfl
    | some m =>
      rw [Option.bind_some]
      cases page : m.page14 with
      | data bytes => exact absurd page (none_ m bytes rfl)
      | unread => rfl
      | unreadable => rfl

/-- When a rebuilt record joins the refresh set (R158, R159, log 50). -/
theorem rebuiltRefresh_iff {gb : List GrownBad} {fs : List FoundBlock} {c : CommitRecord} {v : Version}
    {unmatched unreadable : Bool} : rebuiltRefresh gb fs c v unmatched unreadable = true
      ↔ none ∈ v.mirrors ∨ (∃ x, some x ∈ v.chunks ∧ x.copy = .mirror)
        ∨ (∃ f ∈ fs, f.addr ∈ v.blocks ∧ (f.bad = true ∨ 6 ≤ f.worst))
        ∨ (∃ f ∈ fs, f.header.generation = c.generation ∧ f.header.chunk = 0 ∧ f.header.copy = .mirror
            ∧ ∀ x, ¬f.Holds gb x)
        ∨ (∀ f ∈ fs, f.header.generation = c.generation → f.header.copy = .primary → ∀ x, ¬f.Holds gb x)
        ∨ unmatched = true ∨ unreadable = true := by
  have mirrors : v.mirrors.any Option.isNone = true ↔ none ∈ v.mirrors := by
    rw [List.any_eq_true]
    constructor
    · rintro ⟨x, mem, none_⟩
      exact Option.isNone_iff_eq_none.mp none_ ▸ mem
    · exact fun mem => ⟨none, mem, rfl⟩
  have chunks : (v.chunks.any fun x => x.any fun r => decide (r.copy = .mirror)) = true
      ↔ ∃ x, some x ∈ v.chunks ∧ x.copy = .mirror := by
    rw [List.any_eq_true]
    constructor
    · rintro ⟨y, mem, found⟩
      obtain ⟨x, rfl, copy⟩ := (Option.any_eq_true _ _).mp found
      exact ⟨x, mem, of_decide_eq_true copy⟩
    · exact fun ⟨x, mem, copy⟩ => ⟨some x, mem, decide_eq_true copy⟩
  have worn : (((fs.filter fun f => v.blocks.contains f.addr).any fun f => f.bad) = true
        ∨ ((fs.filter fun f => v.blocks.contains f.addr).any fun f => decide (6 ≤ f.worst)) = true)
      ↔ ∃ f ∈ fs, f.addr ∈ v.blocks ∧ (f.bad = true ∨ 6 ≤ f.worst) := by
    rw [List.any_eq_true, List.any_eq_true, ← exists_or]
    refine exists_congr fun f => ?_
    rw [List.mem_filter, List.contains_iff_mem, decide_eq_true_eq, ← and_or_left, and_assoc]
  have orphan : (fs.any fun f => decide (f.header.generation = c.generation) && decide (f.header.chunk = 0)
        && decide (f.header.copy = .mirror) && (f.commit? gb).isNone) = true
      ↔ ∃ f ∈ fs, f.header.generation = c.generation ∧ f.header.chunk = 0 ∧ f.header.copy = .mirror
          ∧ ∀ x, ¬f.Holds gb x := by
    rw [List.any_eq_true]
    refine exists_congr fun f => and_congr_right fun _ => ?_
    rw [Bool.and_eq_true, Bool.and_eq_true, Bool.and_eq_true, decide_eq_true_eq, decide_eq_true_eq, decide_eq_true_eq,
      Option.isNone_iff_eq_none, FoundBlock.commit?_none, and_assoc, and_assoc]
  have primaries : (!(fs.any fun f => decide (f.header.generation = c.generation) && decide (f.header.copy = .primary)
        && (f.commit? gb).isSome)) = true
      ↔ ∀ f ∈ fs, f.header.generation = c.generation → f.header.copy = .primary → ∀ x, ¬f.Holds gb x := by
    rw [Bool.not_eq_true', List.any_eq_false]
    refine forall₂_congr fun f _ => ?_
    rw [Bool.and_eq_true, Bool.and_eq_true, decide_eq_true_eq, decide_eq_true_eq, FoundBlock.commit?_isSome, not_and,
      and_imp, not_exists]
  have order (a b bad o p u l worst : Prop) :
      (((((((a ∨ b) ∨ bad) ∨ o) ∨ p) ∨ u) ∨ l) ∨ worst) = (a ∨ b ∨ (bad ∨ worst) ∨ o ∨ p ∨ u ∨ l) := by
    ac_rfl
  unfold rebuiltRefresh
  dsimp only
  rw [Bool.or_eq_true, Bool.or_eq_true, Bool.or_eq_true, Bool.or_eq_true, Bool.or_eq_true, Bool.or_eq_true,
    Bool.or_eq_true, order, worn, mirrors, chunks, orphan, primaries]

/-! ### The lines of the found blocks -/

section
variable {d : Device} {named : List BlockAddr} {fs : List FoundBlock}

/-- The line of a found block once its version is resolved (R158, log 49). -/
def Device.resolvedLine (d : Device) (named : List BlockAddr) (f : FoundBlock) : BlockEntry :=
  scannedBlock (if named.contains f.addr then .allocated else .stale) f.stamp (d.scan.average f.addr.bank)
    (some f.header.owner)

/-- The found blocks of a key take their lines (R158). -/
def Device.placeAll (d : Device) (named : List BlockAddr) (fs : List FoundBlock) : Device :=
  fs.foldl (fun d f => d.placeFound named f) d

/-- A found block that takes its line leaves the directory, the scan and the refresh set alone. -/
theorem Device.placeFound_same (d : Device) (named : List BlockAddr) (f : FoundBlock) :
    (d.placeFound named f).dir = d.dir ∧ (d.placeFound named f).scan = d.scan
      ∧ (d.placeFound named f).pool.refresh = d.pool.refresh := by
  unfold Device.placeFound Device.setBlock
  split
  · exact ⟨rfl, rfl, rfl⟩
  · split <;> exact ⟨rfl, rfl, rfl⟩

/-- So do the found blocks of a key. -/
theorem Device.placeAll_leaves (d : Device) (named : List BlockAddr) (fs : List FoundBlock) :
    (d.placeAll named fs).dir = d.dir ∧ (d.placeAll named fs).scan = d.scan
      ∧ (d.placeAll named fs).pool.refresh = d.pool.refresh := by
  unfold Device.placeAll
  induction fs generalizing d with
  | nil => exact ⟨rfl, rfl, rfl⟩
  | cons f fs ih =>
    obtain ⟨dir, scan, refresh⟩ := ih (d.placeFound named f)
    obtain ⟨dir', scan', refresh'⟩ := d.placeFound_same named f
    exact ⟨dir.trans dir', scan.trans scan', refresh.trans refresh'⟩

/-- A block of none of them that is good keeps its line. -/
theorem Device.block?_placeAll_other {a : BlockAddr} (other : ∀ f ∈ fs, f.bad = false → f.addr ≠ a) :
    (d.placeAll named fs).pool.block? a = d.pool.block? a := by
  unfold Device.placeAll
  induction fs generalizing d with
  | nil => rfl
  | cons f fs ih =>
    rw [List.foldl_cons, ih fun g hg => other g (List.mem_cons_of_mem f hg)]
    unfold Device.placeFound
    split
    next => rfl
    next good =>
      exact Device.block?_setBlock_other (other f List.mem_cons_self (Bool.eq_false_iff.mpr good)).symm _

/-- A good block of them takes its line (R158). -/
theorem Device.block?_placeAll_self (apart : (fs.map (·.addr)).Nodup) {f : FoundBlock} (mem : f ∈ fs)
    (general : f.addr.block ≠ 0) (good : f.bad = false) :
    (d.placeAll named fs).pool.block? f.addr = some (d.resolvedLine named f) := by
  unfold Device.placeAll
  induction fs generalizing d with
  | nil => cases mem
  | cons g fs ih =>
    rw [List.map_cons, List.nodup_cons] at apart
    rw [List.foldl_cons]
    rcases List.mem_cons.mp mem with rfl | mem
    · refine (Device.block?_placeAll_other (named := named) (fs := fs) fun g hg _ same => apart.1 ?_).trans ?_
      · exact same ▸ List.mem_map_of_mem hg
      · unfold Device.placeFound
        rw [if_neg (good ▸ Bool.false_ne_true)]
        exact Device.block?_setBlock_self general _
    · rw [ih apart.2 mem]
      unfold Device.resolvedLine
      rw [(d.placeFound_same named g).2.1]

end

/-! ### A key resolved -/

section
variable {d : Device} {fs : List FoundBlock} {r : RecordName}

/-- The entry that a key's blocks give (R158). -/
def Device.rebuilt (d : Device) (fs : List FoundBlock) (r : RecordName) : Option (Entry × Bool) :=
  rebuiltEntry d.scan.grownBad d.scan.bodies (d.desc r.ns).mirrored r (foundOf fs r)

/-- A key beyond the bounds, or without an entry, has its blocks STALE (R14, R158). -/
theorem Device.resolveKey_none (none_ : ¬d.fitsBounds r = true ∨ d.rebuilt fs r = none) :
    d.resolveKey fs r = d.placeAll [] (foundOf fs r) := by
  have nothing : (if d.fitsBounds r = true then d.rebuilt fs r else none) = none := by
    rcases none_ with out | none_
    · exact if_neg out
    · rw [none_]
      exact ite_self none
  unfold Device.rebuilt at nothing
  unfold Device.resolveKey
  dsimp only
  rw [nothing]
  rfl

/-- A key within them has its entry inserted and its blocks ALLOCATED or STALE (R158). -/
theorem Device.resolveKey_some {e : Entry} {refresh : Bool} (fits : d.fitsBounds r = true)
    (some_ : d.rebuilt fs r = some (e, refresh)) :
    d.resolveKey fs r = if refresh = true
      then ((d.placeAll e.version.blocks (foundOf fs r)).insertRecord e).joinRefresh r
      else (d.placeAll e.version.blocks (foundOf fs r)).insertRecord e := by
  unfold Device.rebuilt at some_
  unfold Device.resolveKey
  dsimp only
  rw [if_pos fits, some_]
  rfl

/-- The bounds of R14. -/
theorem Device.fitsBounds_iff : d.fitsBounds r = true ↔ (d.desc r.ns).enabled = true
    ∧ d.recordCount r.ns < (d.desc r.ns).recordLimit ∧ d.dir.length < 1024 := by
  unfold Device.fitsBounds
  rw [Bool.and_eq_true, Bool.and_eq_true, decide_eq_true_eq, decide_eq_true_eq, and_assoc]
  rfl

/-- A key resolved leaves the other entries alone (R158). -/
theorem Device.entry?_resolveKey_other {q : RecordName} (other : q ≠ r) :
    (d.resolveKey fs r).entry? q = d.entry? q := by
  by_cases none_ : ¬d.fitsBounds r = true ∨ d.rebuilt fs r = none
  · rw [Device.resolveKey_none none_]
    exact Device.entry?_congr (Device.placeAll_leaves _ _ _).1 q
  · obtain ⟨fits, some_⟩ := not_or.mp none_
    obtain ⟨⟨e, refresh⟩, made⟩ := Option.ne_none_iff_exists'.mp some_
    have inserted : ((d.placeAll e.version.blocks (foundOf fs r)).insertRecord e).entry? q = d.entry? q := by
      rw [Device.entry?_insertRecord_other _ e (q := q) fun same => other (same.trans (rebuiltEntry_name made))]
      exact Device.entry?_congr (Device.placeAll_leaves _ _ _).1 q
    rw [Device.resolveKey_some (not_not.mp fits) made]
    cases refresh
    · exact inserted
    · exact (Device.entry?_congr rfl q).trans inserted

/-- The blocks that a key's entry names are the ones that become ALLOCATED (R158). -/
theorem Device.block?_resolveKey (fs : List FoundBlock) (r : RecordName) (d : Device) :
    ∃ named, (∀ a, (d.resolveKey fs r).pool.block? a = (d.placeAll named (foundOf fs r)).pool.block? a)
      ∧ ∀ a, a ∈ named
        ↔ d.fitsBounds r = true ∧ ∃ e refresh, d.rebuilt fs r = some (e, refresh) ∧ a ∈ e.version.blocks := by
  by_cases none_ : ¬d.fitsBounds r = true ∨ d.rebuilt fs r = none
  · refine ⟨[], fun a => by rw [Device.resolveKey_none none_], fun a => iff_of_false List.not_mem_nil ?_⟩
    rintro ⟨fits, e, refresh, made, _⟩
    exact none_.elim (fun out => out fits) fun empty => by cases empty.symm.trans made
  · obtain ⟨fits, some_⟩ := not_or.mp none_
    obtain ⟨⟨e, refresh⟩, made⟩ := Option.ne_none_iff_exists'.mp some_
    refine ⟨e.version.blocks, fun a => ?_, fun a => ⟨fun mem => ⟨not_not.mp fits, e, refresh, made, mem⟩, ?_⟩⟩
    · rw [Device.resolveKey_some (not_not.mp fits) made]
      cases refresh <;> rfl
    · rintro ⟨_, e', refresh', made', mem⟩
      cases made.symm.trans made'
      exact mem

end

/-! ### The lists of found blocks and of names -/

/-- A found block goes to its place in ascending order (R156). -/
theorem insertFound_ordered {f : FoundBlock} {fs : List FoundBlock} (ordered : (fs.map (·.addr.num)).Pairwise (· < ·))
    (new : ∀ g ∈ fs, g.addr ≠ f.addr) : ((insertFound f fs).map (·.addr.num)).Pairwise (· < ·) := by
  induction fs with
  | nil => exact List.pairwise_singleton _ _
  | cons x rest ih =>
    obtain ⟨first, later⟩ := List.pairwise_cons.mp ordered
    unfold insertFound
    split
    next low =>
      refine List.pairwise_cons.mpr ⟨fun n hn => ?_, ordered⟩
      rcases List.mem_cons.mp hn with rfl | hn
      · exact low
      · exact Nat.lt_trans low (first n hn)
    next high =>
      have above : x.addr.num < f.addr.num := by
        refine Nat.lt_of_le_of_ne (Nat.not_lt.mp high) fun same => ?_
        exact new x List.mem_cons_self (blockNum_inj same)
      refine List.pairwise_cons.mpr ⟨fun n hn => ?_, ih later fun g hg => new g (List.mem_cons_of_mem x hg)⟩
      obtain ⟨g, hg, rfl⟩ := List.mem_map.mp hn
      rcases mem_insertFound.mp hg with hg | rfl
      · exact first _ (List.mem_map_of_mem hg)
      · exact above

/-- A device has the found blocks of another, or these and one at a block (R156). -/
def Device.FindsAt (d : Device) (a : BlockAddr) (d' : Device) : Prop :=
  d'.scan.found = d.scan.found ∨ ∃ f : FoundBlock, f.addr = a ∧ d'.scan.found = insertFound f d.scan.found

section
variable {d x : Device} {a : BlockAddr} (same : x.scan.found = d.scan.found)
include same

/-- A line given finds nothing. -/
theorem Device.findsAt_setBlock (a' : BlockAddr) (e : BlockEntry) : d.FindsAt a (x.setBlock a' e) :=
  .inl (by rw [Device.setBlock_scan, same])

/-- A found block added is one at its block. -/
theorem Device.findsAt_addFound (f : FoundBlock) : d.FindsAt f.addr (x.addFound f) :=
  .inr ⟨f, rfl, congrArg (insertFound f) same⟩

end

/-- A BAD block with a valid header is found, and no other block (R154, R156). -/
theorem Device.findsAt_classifyBad (d : Device) (a : BlockAddr) (worst : Nat) (data : List Byte) :
    d.FindsAt a (d.classifyBad a worst data) := by
  by_cases stays : setAside d.scan.grownBad a 0 1 = true ∨ readHeader (segments data 1 4) = none
  · exact .inl (by rw [Device.classifyBad_stays stays])
  · obtain ⟨kept, some_⟩ := not_or.mp stays
    obtain ⟨h, header⟩ := Option.ne_none_iff_exists'.mp some_
    rw [Device.classifyBad_member kept header]
    refine Device.findsAt_addFound ?_ (badMember a h data worst)
    split
    · rw [Device.setBlock_scan]
    · rfl

/-- A member of a version is found. -/
theorem Device.findsAt_memberFound {d x : Device} (same : x.scan.found = d.scan.found) (f : FoundBlock) :
    d.FindsAt f.addr (x.memberFound f) := by
  unfold Device.memberFound
  refine Device.findsAt_addFound ?_ f
  split
  · rw [Device.setBlock_scan, same]
  · exact same

/-- A good block with a valid header is found, and no other block (R154, R156). -/
theorem Device.findsAt_classifyGood (d : Device) (a : BlockAddr) (worst : Nat) (data : List Byte) :
    d.FindsAt a (d.classifyGood a worst data) := by
  have counted := (d.countStamp_same a.bank (readStamp (segment data 0))).2.1
  cases factory : allZero (segment data 15) with
  | true =>
    rw [Device.classifyGood_factory factory]
    exact Device.findsAt_setBlock rfl _ _
  | false =>
    cases header : readHeader (segments data 1 4) with
    | some h =>
      rw [Device.classifyGood_member factory header]
      exact Device.findsAt_memberFound counted _
    | none =>
      rw [Device.classifyGood_headless factory header]
      split
      · split
        · exact .inl counted
        · split
          · exact .inl counted
          · exact Device.findsAt_setBlock counted _ _
      · exact Device.findsAt_setBlock counted _ _

/-- What is read of a general block's page 0 finds no other block (R154, R156). -/
theorem Device.findsAt_classify (d : Device) (a : BlockAddr) (o : ReadOutcome) (data : List Byte) :
    d.FindsAt a (d.classify a o data) := by
  cases named : d.scan.grownBad.any fun g => decide (g.addr = a) with
  | true =>
    obtain ⟨lost, read⟩ := Device.classify_named (data := data) named
    cases o with
    | uncorrectable => exact .inl (congrArg (·.scan.found) lost)
    | corrected n => exact (read n).symm ▸ d.findsAt_classifyBad a n.val data
  | false =>
    obtain ⟨lost, read⟩ := Device.classify_unnamed (data := data) named
    cases o with
    | uncorrectable => exact lost.symm ▸ Device.findsAt_setBlock rfl _ _
    | corrected n => exact (read n).symm ▸ d.findsAt_classifyGood a n.val data

/-- The names of found blocks are those they bear, each once, in ascending order (R158). -/
theorem foundNames_spec (fs : List FoundBlock) : ((foundNames fs).map (·.num)).Pairwise (· < ·)
    ∧ ∀ r, r ∈ foundNames fs ↔ ∃ f ∈ fs, f.header.name = r := by
  have run (ns : List RecordName) (ordered : (ns.map (·.num)).Pairwise (· < ·)) :
      ((fs.foldl (fun ns f => insertName f.header.name ns) ns).map (·.num)).Pairwise (· < ·)
        ∧ ∀ r, r ∈ fs.foldl (fun ns f => insertName f.header.name ns) ns ↔ r ∈ ns ∨ ∃ f ∈ fs, f.header.name = r := by
    induction fs generalizing ns with
    | nil => exact ⟨ordered, fun r => by simp⟩
    | cons f fs ih =>
      obtain ⟨sorted, mem⟩ := ih (insertName f.header.name ns) (insertName_ordered _ ordered)
      refine ⟨sorted, fun r => (mem r).trans ?_⟩
      rw [mem_insertName, List.exists_mem_cons_iff, or_comm (a := r = _), or_assoc, eq_comm (a := r)]
  obtain ⟨sorted, mem⟩ := run [] List.Pairwise.nil
  exact ⟨sorted, fun r => (mem r).trans (or_iff_right List.not_mem_nil)⟩

end Sys2Proof.Machine

/-!
The entry that a key's blocks give, field by field (R158, R159), and the settling of O55.
-/

namespace Sys2Proof.Machine

/-! ### The fields of a rebuilt entry -/

section
variable {gb : List GrownBad} {r : RecordName} {c : CommitRecord} {mirrored : Bool} {p m : List (Option FoundBlock)}
  {zero : FoundBlock}

/-- The chunk of a rebuilt version is that of the blocks chosen (R158). -/
theorem chunkAt_rebuiltVersion (hp : p.length = c.count) (hm : m.length = c.count) {i : Nat} (inside : i < c.count) :
    (rebuiltVersion c mirrored p m zero).chunkAt i = chunkElement (chosenAt p i) (chosenAt m i) := by
  unfold Version.chunkAt rebuiltVersion
  dsimp only
  rw [map_zip_chosen (fun x => chunkElement x.1 x.2) hp hm, List.getElem?_map, List.getElem?_range inside]
  rfl

/-- The version of a rebuilt entry, chunk by chunk (R158). -/
theorem rebuiltVersion_eq (hp : p.length = c.count) (hm : m.length = c.count) :
    rebuiltVersion c mirrored p m zero =
      { generation := c.generation, bodyLength := c.bodyLength, frozen := zero.header.frozen
        retired := zero.header.retired
        chunks := (List.range c.count).map fun i => chunkElement (chosenAt p i) (chosenAt m i)
        mirrors := if mirrored then (List.range c.count).map fun i => mirrorElement (chosenAt p i) (chosenAt m i)
          else [] } := by
  unfold rebuiltVersion
  rw [map_zip_chosen (fun x => chunkElement x.1 x.2) hp hm, map_zip_chosen (fun x => mirrorElement x.1 x.2) hp hm]

/-- A chunk is missing where neither copy has a block for it. -/
theorem isNone_chunkElement (x y : Option FoundBlock) : (chunkElement x y).isNone = (x.isNone && y.isNone) := by
  cases x with
  | some _ => rfl
  | none => cases y <;> rfl

/-- The damaged chunks of a rebuilt entry are those without a block (R158). -/
theorem rebuiltFrom_damaged (hp : p.length = c.count) (hm : m.length = c.count) :
    (rebuiltFrom gb r c mirrored p m zero).damaged
      = (List.range c.count).filter fun i => (chosenAt p i).isNone && (chosenAt m i).isNone := by
  unfold rebuiltFrom
  refine List.filter_congr fun i hi => ?_
  rw [chunkAt_rebuiltVersion hp hm (List.mem_range.mp hi), isNone_chunkElement]

/-- A rebuilt entry with a PURGE mark is PURGING (R159). -/
theorem rebuiltFrom_purging (purge : ∃ x, ValidMark gb (markPage zero (chosenAt m 0)) c.generation 4 x) :
    (rebuiltFrom gb r c mirrored p m zero).state = .purging ∧ (rebuiltFrom gb r c mirrored p m zero).hold = .none
      ∧ (rebuiltFrom gb r c mirrored p m zero).marks = 4 ∧ (rebuiltFrom gb r c mirrored p m zero).busy = .purge := by
  unfold rebuiltFrom
  rw [rebuiltState_purging zero purge]
  exact ⟨rfl, rfl, rfl, rfl⟩

/-- One without is RETIRED or LIVE, FROZEN or not, by its marks and its header (R159). -/
theorem rebuiltFrom_kept (kept : ∀ x, ¬ValidMark gb (markPage zero (chosenAt m 0)) c.generation 4 x) :
    (rebuiltFrom gb r c mirrored p m zero).busy = .none
      ∧ (rebuiltFrom gb r c mirrored p m zero).marks = marksUsed gb zero (markPage zero (chosenAt m 0))
      ∧ (IsRetired gb zero (markPage zero (chosenAt m 0)) c.generation →
        (rebuiltFrom gb r c mirrored p m zero).state = .retired ∧ (rebuiltFrom gb r c mirrored p m zero).hold = .none)
      ∧ (¬IsRetired gb zero (markPage zero (chosenAt m 0)) c.generation →
        (rebuiltFrom gb r c mirrored p m zero).state = .live
          ∧ (IsFrozen gb zero (markPage zero (chosenAt m 0)) c.generation →
            (rebuiltFrom gb r c mirrored p m zero).hold = .frozen)
          ∧ (¬IsFrozen gb zero (markPage zero (chosenAt m 0)) c.generation →
            (rebuiltFrom gb r c mirrored p m zero).hold = .none)) := by
  obtain ⟨whenRetired, whenFrozen, whenThawed⟩ := rebuiltState_kept zero kept
  unfold rebuiltFrom
  dsimp only
  by_cases retired : IsRetired gb zero (markPage zero (chosenAt m 0)) c.generation
  · rw [whenRetired retired]
    exact ⟨rfl, rfl, fun _ => ⟨rfl, rfl⟩, fun live => absurd retired live⟩
  · by_cases frozen : IsFrozen gb zero (markPage zero (chosenAt m 0)) c.generation
    · rw [whenFrozen retired frozen]
      exact ⟨rfl, rfl, fun h => absurd h retired, fun _ => ⟨rfl, fun _ => rfl, fun thawed => absurd frozen thawed⟩⟩
    · rw [whenThawed retired frozen]
      exact ⟨rfl, rfl, fun h => absurd h retired, fun _ => ⟨rfl, fun h => absurd h frozen, fun _ => rfl⟩⟩

/-- A BAD first block, or no readable mark page, counts all mark slots as used (R159, log 51). -/
theorem marksUsed_lost {page : Option (BlockAddr × List Byte)} (lost : zero.bad = true ∨ page = none) :
    marksUsed gb zero page = 3 := by
  unfold marksUsed
  split
  next => rfl
  next good => rw [lost.resolve_left good, slotsProgrammed_unreadable]

/-- Otherwise the mark page says how many are (R159). -/
theorem marksUsed_read {page : Option (BlockAddr × List Byte)} (good : zero.bad = false) :
    marksUsed gb zero page = slotsProgrammed gb page := if_neg (good ▸ Bool.false_ne_true)

end

/-! ### The directory and the refresh set of a key resolved -/

section
variable {d : Device} {fs : List FoundBlock} {r : RecordName}

/-- A key without an entry leaves the directory and the refresh set alone (R14, R158). -/
theorem Device.resolveKey_nothing (none_ : ¬d.fitsBounds r = true ∨ d.rebuilt fs r = none) :
    (d.resolveKey fs r).dir = d.dir ∧ (d.resolveKey fs r).pool.refresh = d.pool.refresh := by
  rw [Device.resolveKey_none none_]
  obtain ⟨dir, _, refresh⟩ := d.placeAll_leaves [] (foundOf fs r)
  exact ⟨dir, refresh⟩

/-- A key with one has it, and joins the refresh set or not (R158). -/
theorem Device.resolveKey_entry {e : Entry} {refresh : Bool} (fits : d.fitsBounds r = true)
    (made : d.rebuilt fs r = some (e, refresh)) :
    (d.resolveKey fs r).entry? r = some e
      ∧ (d.resolveKey fs r).pool.refresh = if refresh = true then insertName r d.pool.refresh else d.pool.refresh := by
  obtain ⟨_, _, same⟩ := d.placeAll_leaves e.version.blocks (foundOf fs r)
  have inserted : ((d.placeAll e.version.blocks (foundOf fs r)).insertRecord e).entry? r = some e := by
    obtain rfl : e.name = r := rebuiltEntry_name made
    exact Device.entry?_insertRecord_self _ e
  rw [Device.resolveKey_some fits made]
  cases refresh with
  | false => exact ⟨inserted, same⟩
  | true => exact ⟨(Device.entry?_congr rfl r).trans inserted, congrArg (insertName r) same⟩

end

/-- Settles O55: the winner, the candidates, the choice among duplicates, the entry made of it and the lines of the
blocks, each by its own lemma. -/
theorem versionsAreResolvedFromTheFoundBlocks : Obligations.VersionsAreResolvedFromTheFoundBlocks := by
  unfold Obligations.VersionsAreResolvedFromTheFoundBlocks
  intro aside holds combos pages matching
  have asideEq : aside = fun gb a page seg => setAside gb a page seg = true :=
    funext fun _ => funext fun _ => funext fun _ => funext fun _ => propext setAside_iff.symm
  have holdsEq : holds = fun gb f c => f.Holds gb c := by
    refine funext fun gb => funext fun f => funext fun c => propext ?_
    exact and_congr_right fun _ => and_congr_left fun _ => not_congr setAside_iff.symm
  have combosEq : combos = combinations := rfl
  have matchingEq : matching = matchesRecord := rfl
  clear_value aside holds combos matching
  subst asideEq holdsEq combosEq matchingEq
  refine ⟨fun gb fs => ?_,
    fun bodies c cs whole => ⟨chooseCopy_single, fun l hl two => chooseCopy_duplicates whole hl two⟩,
    fun gb bodies mirrored r fs => ⟨fun none_ => rebuiltEntry_none none_ mirrored r, fun c won => ?_⟩,
    fun d a o data ordered new => ?_, foundNames_spec, fun _ _ => rfl, fun d fs r apart general => ?_⟩
  · refine ⟨fun f c => FoundBlock.commit?_iff, winnerOf_none, fun c won => ?_, fun sorted c won => ?_,
      fun c copy i => ⟨candidatesOf_sublist, fun f => mem_candidatesOf⟩⟩
    · obtain ⟨f, hf, held, best⟩ := winnerOf_block won
      exact ⟨⟨f, hf, held⟩, fun g hg x hx => (best g hg x hx).1,
        fun g hg x hx primary same => ⟨f, hf, ((best g hg x hx).2 same).1 primary, held⟩⟩
    · obtain ⟨f, hf, held, best⟩ := winnerOf_block won
      refine ⟨f, hf, held, fun g hg x hx same => ?_⟩
      obtain ⟨primary, lower⟩ := (best g hg x hx).2 same
      exact ⟨primary, lower sorted⟩
  · obtain ⟨zero, isZero, made⟩ := rebuiltEntry_some (bodies := bodies) won mirrored r
    have hp := chosen_length gb bodies fs c .primary
    have hm := chosen_length gb bodies fs c .mirror
    intro both at_
    obtain ⟨own, other⟩ := markPage_spec zero (chosenAt (chosen gb bodies fs c .mirror).1 0)
    refine ⟨zero, _, _, made, isZero, rfl, rfl, rebuiltVersion_eq hp hm, rebuiltFrom_damaged hp hm,
      markPage zero (chosenAt (chosen gb bodies fs c .mirror).1 0), own, other,
      ⟨rebuiltFrom_purging, fun kept => ?_⟩, ?_⟩
    · obtain ⟨busy, marks, whenRetired, whenLive⟩ := rebuiltFrom_kept (r := r) (mirrored := mirrored)
        (p := (chosen gb bodies fs c .primary).1) kept
      refine ⟨busy, whenRetired, whenLive, fun lost => marks.trans (marksUsed_lost lost), fun good some_ => ?_⟩
      rw [marks, marksUsed_read good]
      exact slotsProgrammed_spec some_
    · rw [rebuiltRefresh_iff, Bool.or_eq_true, or_assoc, Option.isNone_iff_eq_none]
      exact Iff.rfl
  · rcases d.findsAt_classify a o data with same | ⟨f, rfl, found⟩
    · rw [same]
      exact ordered
    · rw [found]
      exact insertFound_ordered ordered new
  · intro mine fits rebuilt d' named
    obtain ⟨names, lines, mem⟩ := d.block?_resolveKey fs r
    have mem_names (a : BlockAddr) : a ∈ names ↔ named a :=
      (mem a).trans (and_congr_left fun _ => Device.fitsBounds_iff)
    have distinct : ((foundOf fs r).map (·.addr)).Nodup := apart.sublist (List.filter_sublist.map _)
    refine ⟨fun f hf good => ?_, fun a other => (lines a).trans (Device.block?_placeAll_other other),
      fun q => Device.entry?_resolveKey_other, fun none_ => ?_, fun e refresh room made => ?_⟩
    · intro average line
      have given := (lines f.addr).trans
        (Device.block?_placeAll_self distinct hf (general f (List.mem_filter.mp hf).1) good)
      refine ⟨fun own => given.trans ?_, fun other => given.trans ?_⟩
      · unfold Device.resolvedLine
        rw [if_pos (List.contains_iff_mem.mpr ((mem_names _).mpr own))]
        exact rfl
      · unfold Device.resolvedLine
        rw [if_neg fun own => other ((mem_names _).mp (List.contains_iff_mem.mp own))]
        exact rfl
    · exact Device.resolveKey_nothing (none_.imp_left fun out fits => out (Device.fitsBounds_iff.mp fits))
    · obtain ⟨entry, joined⟩ := Device.resolveKey_entry (Device.fitsBounds_iff.mpr room) made
      exact ⟨fun _ => entry, joined⟩

end Sys2Proof.Machine
